-- ==== Sys2Proof/Word.lean ====
section
/-! DEFINITION. The word types of the part: registers of 32 bits (00_scope R19), bytes, node addresses of
24 bits (01 R25), 64-bit counts, and SHA-384 digests (00_scope R23). -/

namespace Sys2Proof

/-- A register of 32 bits (00_scope, "Registers and access types"). -/
abbrev Word := BitVec 32
/-- A byte of a record, a frame or a container. -/
abbrev Byte := BitVec 8
/-- A 24-bit fleet node address (01 R25). -/
abbrev Node := BitVec 24
/-- A 48-bit record sequence number (09 R339). -/
abbrev Seq := BitVec 48
/-- A 64-bit count: an epoch number, a cumulative value. -/
abbrev W64 := BitVec 64
/-- A SHA-384 digest, as the integer of its 48 bytes, least significant byte first (00_scope R18). -/
abbrev Digest := BitVec 384

end Sys2Proof
end

