-- ==== Sys2Proof/Messages.lean ====
section
/-! DEFINITION. The messages, records and transactions that reach the block as the operands of its commands, that it
holds, and that it sends. Layouts are those of the chapters named beside each. -/

namespace Sys2Proof

/-- The two parts that hold the common blocks (00_scope, "The two parts"). -/
inductive Part where
  | die | agg
  deriving DecidableEq, Repr

/-- A side: of a tray's aggregator pair, of a die unit's two Race ports (A toward die 0, B toward die 31). -/
inductive Side where
  | a | b
  deriving DecidableEq, Repr

/-- The other side. -/
def Side.other : Side → Side
  | .a => .b
  | .b => .a

/-- Port number of a side at a die unit: 0 the A-side port, 1 the B-side port (10 R388). -/
def Side.ix : Side → Nat
  | .a => 0
  | .b => 1

/-- The origin of an access (01 R46, 14 R471). A host access brings its three fields from the host bus; a proxy access
brings the aggregator's address from the FROM field (01 R52). -/
inductive Origin where
  /-- The die unit's host port: AGENT, PRIV, CONTEXT. -/
  | host (agent : BitVec 16) (priv : BitVec 4) (ctx : BitVec 12)
  /-- The Race proxy path of a die unit: the port of arrival and the aggregator's address. -/
  | proxy (side : Side) (node : Node)
  /-- The die unit's Ladle. -/
  | ladle
  /-- PCIe, at an aggregator. -/
  | pcie
  /-- I3C, at an aggregator. -/
  | i3c
  /-- I2C, at an aggregator. -/
  | i2c
  /-- A core of the aggregator's control cluster. -/
  | cluster (core : Fin 4)
  deriving DecidableEq, Repr

/-- A record's class that has a stream (09 R334). -/
inductive RecClass where
  | alarm | runner | record | bulk
  deriving DecidableEq, Repr

/-- The class number of a record header (09 R334). -/
def RecClass.code : RecClass → Nat
  | .alarm => 0
  | .runner => 2
  | .record => 3
  | .bulk => 4

/-- The class a number names (09 R334). -/
def RecClass.ofCode (n : Nat) : Option RecClass :=
  if n = 0 then some .alarm else if n = 2 then some .runner else if n = 3 then some .record
  else if n = 4 then some .bulk else none

/-- A record as stored: the 32-byte header of 09 R332 and its payload; LEN is the payload's length. -/
structure Rec where
  /-- TYPE (09 R336). -/
  typ : Byte
  /-- FLAGS (09 R333). -/
  flags : Byte
  /-- SRC (01 R25). -/
  src : Node
  /-- CLASS: class number in [2:0], TQ in [7:4] (09 R334). -/
  cls : Byte
  /-- SEQ (09 R339). -/
  seq : Seq
  /-- TIME, Krazinil time (02 R53). -/
  time : BitVec 80
  /-- GEN (08 R292). -/
  gen : Word
  /-- CHK as the header carries it (09 R335). -/
  chk : Word
  /-- Payload as stored. -/
  payload : List Byte
  deriving DecidableEq, Repr

/-- A RECSEG frame: its originator and class, the segment head (SOFS, FIRST, LAST) and the data (10 R377). -/
structure RecSeg where
  orig : Node
  cls : RecClass
  sofs : BitVec 24
  first : Bool
  last : Bool
  data : List Byte
  deriving DecidableEq, Repr

/-- A stream and a SEQ of it: an entry of SACK or SYNCRSP (09 R353, 11). -/
structure StreamSeq where
  src : Node
  cls : RecClass
  seq : Seq
  deriving DecidableEq, Repr

/-- The ACK message of 09 R346. -/
structure Ack where
  /-- AFLAGS: [2:0] NACK per class, [3] FULL, [6:4] NOBASE per class. -/
  aflags : Byte
  dest : Node
  sender : Node
  jseqA : Seq
  jseqR : Seq
  jseqB : Seq
  deriving DecidableEq, Repr

/-- A PTP message at a fleet port of an aggregator (02, "PTP fallback on the aggregator"). A timestamp is SEC and
nanoseconds. -/
inductive PtpMsg where
  /-- Announce: domain, PTP timescale, and the data set as one number that the best master clock algorithm
  compares (lower is better). -/
  | announce (port : Fin 8) (domain : Byte) (ptpScale : Bool) (rank : Nat)
  /-- Sync: a one-step Sync carries its origin timestamp, a two-step Sync leaves it to the Follow_Up. -/
  | sync (port : Fin 8) (domain : Byte) (twoStep : Bool) (sec : BitVec 48) (ns : Word)
  /-- Follow_Up of a two-step Sync. -/
  | followUp (port : Fin 8) (domain : Byte) (sec : BitVec 48) (ns : Word)
  /-- Delay_Resp to the aggregator's Delay_Req. -/
  | delayResp (port : Fin 8) (domain : Byte) (sec : BitVec 48) (ns : Word)
  /-- A peer-delay message: not supported. -/
  | pdelay (port : Fin 8)
  deriving DecidableEq, Repr

/-- Damage done to one tree store entry by an upset (05 R210): the bits of VALUE and CARE that flip, whether VALID does, and
which of the two parity bits do. -/
structure StoreUpset where
  entry : Nat
  value : BitVec 160
  care : BitVec 160
  valid : Bool
  par : BitVec 2
  deriving DecidableEq, Repr

/-- The taps of one capture edge (03, "The tap fabric"): the event lines that are 1, the value buses whose valid
strobe is 1, and the production inputs that are not 0. -/
structure Taps where
  /-- Capture clock period that ends at the edge, in picoseconds (02 R78, R89). -/
  period : Word
  lines : List (BitVec 14)
  buses : List (Byte × Word)
  prod : List (Fin 64 × BitVec 16)
  deriving DecidableEq, Repr

/-- A TOPK or ARGMAX entry (04 R142, R147). -/
structure TopEnt where
  value : BitVec 64
  addr : Node
  item : Byte
  deriving DecidableEq, Repr

/-- A lane of a runner or a result (04 R146, R147): the head's fields, the non-empty TOPK entries or the ARGMAX entry,
and the bucket counts that are not 0, as pairs of bucket and count in ascending order. -/
structure Lane where
  op : Nat
  km1 : Nat
  signed : Bool
  sat : Bool
  clamp : Bool
  void : Bool
  ovfin : Bool
  aux : Word
  value : BitVec 64
  tops : List TopEnt
  counts : List (Nat × Nat)
  deriving DecidableEq, Repr

/-- A runner frame (04 R145). -/
structure Runner where
  rtype : Byte
  plan : Byte
  split : Bool
  repeated : Bool
  fast : Bool
  epn : BitVec 64
  orig : Node
  hops : Byte
  contrib : Word
  sref : BitVec 24
  turnat : Byte
  pver : Byte
  gen : Word
  lanes : List Lane
  /-- The frame's CRC-32C is correct. -/
  crcOk : Bool
  deriving DecidableEq, Repr

/-- What identifies an entry of the reduction engine (04, "The reduction engine"): plan, EPN, scope level and scope
address. -/
structure RdxKey where
  plan : Fin 64
  scope : Fin 4
  addr : Node
  epn : BitVec 64
  deriving DecidableEq, Repr

/-- A reduction result on its way up (04 R157, R159; 11 FRUN). -/
structure RdxResult where
  key : RdxKey
  pver : Byte
  status : Fin 4
  nexp : Word
  ngot : Word
  contrib : Word
  sref : BitVec 24
  lanes : List Lane
  deriving DecidableEq, Repr

/-- A fence: its descriptor (08 R295) and its extension (08 R296). XLEN is the extension's length. -/
structure Fence where
  fkind : Byte
  /-- FFLAGS. -/
  fflags : Byte
  wgid : BitVec 16
  gen : Word
  fseq : Word
  subj : Node
  cause : Byte
  decid : BitVec 64
  tf : BitVec 80
  score : BitVec 16
  seff : Word
  rdie : Node
  spares : BitVec 16
  ext : List Byte
  deriving DecidableEq, Repr

/-- What OPEN and TEARDOWN carry (08 R293): WGID, member trays (G and T as one number) with eight die masks each, TF. -/
structure WatchGroup where
  wgid : BitVec 12
  trays : List (BitVec 12 × List Word)
  tf : BitVec 80
  deriving DecidableEq, Repr

/-- A retired event of a trace slot (12, "The trace port"): a branch with its address and direction, an indirect
transfer with its kind and target, a data access with address, log2 of its size, direction and value. -/
inductive TraceEv where
  | branch (addr : BitVec 64) (taken : Bool)
  | indirect (kind : BitVec 3) (tgt : BitVec 64)
  | data (addr : BitVec 64) (size : BitVec 2) (write : Bool) (value : BitVec 64)
  deriving DecidableEq, Repr

/-- A byte or halfword write to a protected memory (15 R504): word address, byte enables, data. -/
structure NarrowWrite where
  addr : BitVec 23
  mask : BitVec 4
  data : Word
  deriving DecidableEq, Repr

/-- An event slot of a core's trace port with its context (12 R416). -/
structure TraceSlot where
  ev : TraceEv
  gen : Word
  thr : Word
  priv : BitVec 4
  privd : Bool
  deriving DecidableEq, Repr

/-- A request on the memory watch tap (12, "Watchpoints"). -/
structure WatchReq where
  addr : BitVec 64
  len : BitVec 13
  write : Bool
  agent : BitVec 8
  gen : Word
  deriving DecidableEq, Repr

/-- The head of a vote message (08 R302), but for MTYPE, which the command that brings it states. -/
structure VoteHead where
  mflags : Byte
  src : Node
  role : Byte
  term : Word
  n : Word
  deriving DecidableEq, Repr

/-- Body of TRAY_BEAT (08 R302). -/
structure TrayBeat where
  gterm : Word
  sterm : Word
  pair : Byte
  adm : Byte
  deriving DecidableEq, Repr

/-- Body of PROPOSE (08 R302). -/
structure Proposal where
  subj : Node
  verd : Byte
  cause : Byte
  pflags : Byte
  score : BitVec 16
  step : Word
  rdie : Node
  decid : BitVec 64
  deriving DecidableEq, Repr

/-- Arguments of PAIRUP (18 R591). -/
structure PairUp where
  half : Bool
  sides : BitVec 2
  arbmind : Word
  cert : List Byte
  issuer : Node
  deriving DecidableEq, Repr

/-- What a chain command says (10 R380; 08 R295; 10 R367; 16 R534; 18 R591). -/
inductive ChainOp where
  | fence (f : Fence)
  | setgen (gen : BitVec 2) (at_ : BitVec 80)
  | patBegin (loadId totLen : Word)
  | patChunk (loadId ofs : Word) (bytes : List Byte)
  | patEnd (loadId : Word)
  | pairUp (u : PairUp)
  | powerFail
  | wake (st : Byte)
  deriving DecidableEq, Repr

/-- A CMD or CMDRET payload (10 R380); OPC and ARGS are the operation. -/
structure ChainCmd where
  cseq : Word
  mask : Word
  dest : Node
  gen : Word
  issuer : Node
  op : ChainOp
  deriving DecidableEq, Repr

/-- What a training set says of the peer (10 R369). -/
structure Peer where
  agg : Bool
  node : Node
  gens : BitVec 3
  deriving DecidableEq, Repr

/-- An ENUM payload (01 R30, R31; 10 R370). -/
structure EnumMsg where
  g : BitVec 6
  t : BitVec 6
  p : BitVec 3
  len : Byte
  side : Side
  h : Byte
  gmask : BitVec 3
  deriving DecidableEq, Repr

/-- A Race frame in transit (10 R370, R374-R376). -/
structure RaceFrame where
  ftype : Byte
  cls : BitVec 3
  len : BitVec 16
  orig : Node
  hchkOk : Bool
  crcOk : Bool
  /-- The input ended before the trailer. -/
  cut : Bool
  /-- DEST of an MSG frame. -/
  dest : Node
  deriving DecidableEq, Repr

/-- How a fleet frame reached an aggregator (11 R395, R396): port, sender (a node address, or a collector's index), PSEQ
and DEST. -/
structure FleetIn where
  port : Fin 8
  orig : Node
  /-- OCOL: the sender is a collector. -/
  col : Bool
  pseq : Word
  dest : Node
  deriving DecidableEq, Repr

/-- How an operator command reaches an aggregator (16 R539): in an FMGMT frame, or over an access port. -/
inductive OpVia where
  | fleet (i : FleetIn)
  | port (o : Origin)
  deriving DecidableEq, Repr

/-- An operator command but for OPC and arguments, which its row states (16 R539): TARGET, ISSUE, NONCE, signature. -/
structure OpCmd where
  via : OpVia
  target : Node
  issue : BitVec 80
  nonce : BitVec 64
  sig : List Byte
  deriving DecidableEq, Repr

/-- Why a fleet port discards a received frame (11 R391, R392, R395, R396, R402, R404, R413, R414). -/
inductive DiscardWhy where
  | pause | lldp | badHeader | foreignDest | poolFull | recordClass | vlan | fcs | msec
  deriving DecidableEq, Repr

/-- A cycle of waiting vertices (08 R325): its total count and the vertices listed, at most 32. -/
structure HangCycle where
  total : Byte
  verts : List Word
  deriving DecidableEq, Repr

/-- TRAYGRAPH and GROUPGRAPH (12 R443): ASMN, FRAG and NFRAG, cycles and exits (U, W). -/
structure HangGraph where
  asmn : BitVec 64
  frag : Byte
  nfrag : Byte
  cycles : List HangCycle
  exits : List (Word × Word)
  deriving DecidableEq, Repr

/-- An entry of ENTRYRSP (12 R443): W, STAT, the path from W onward, NEXTW. -/
structure WalkRsp where
  w : Word
  /-- 0 END, 1 EXIT, 2 CYCLE, 3 UNKNOWN. -/
  stat : BitVec 2
  path : List Word
  nextw : Word
  deriving DecidableEq, Repr

/-- PAIRHELLO (18 R590). -/
structure Hello where
  g : BitVec 6
  t : BitVec 6
  side : Side
  ack : Bool
  owned : Bool
  /-- LEN per port; 0 a disabled port. -/
  len : List Byte
  genmax : List Byte
  arbmind : Word
  owner : BitVec 64
  devid : BitVec 128
  deriving DecidableEq, Repr

/-- Body of a vote message (08 R302, 12 R443, 18 R590). -/
inductive VoteBody where
  | trayBeat (b : TrayBeat)
  | propose (p : Proposal)
  | decide (f : Fence) (ps : List Proposal)
  | commit (decid : BitVec 64) (agree : Bool)
  | escalate (f : Fence) (ps : List Proposal)
  | fence (f : Fence)
  | fack (decid : BitVec 64) (wgid : BitVec 16) (fseq : Word) (gap : Bool)
  | groupBeat (term : Word) (trays : BitVec 8)
  | relay (drafts : List Fence)
  | trayGraph (g : HangGraph)
  | entryQ (asmn : BitVec 64) (ws : List Word)
  | entryRsp (asmn : BitVec 64) (frag nfrag : Nat) (rs : List WalkRsp)
  | groupGraph (g : HangGraph)
  | hello (h : Hello)
  deriving DecidableEq, Repr

/-- An entry of JSTATE (11 R399): the stream, JSEQ and SSEQ. -/
structure JPair where
  src : Node
  cls : RecClass
  jseq : Seq
  sseq : Seq
  deriving DecidableEq, Repr

/-- A fleet payload (11 R396, R397, R399; 08 R302). -/
inductive FleetMsg where
  | vote (h : VoteHead) (b : VoteBody)
  | role (sys : Bool) (holder : Node) (term : Word)
  | jstate (l : List JPair)
  | cmdHand (port : Nat) (c : ChainCmd)
  | maskRet (port : Nat) (cseq mask : Word)
  | srefHand (plan port : Nat) (epn : BitVec 64) (sref : BitVec 24)
  /-- A segment of the record of a SEQ: offset, FIRST, LAST, data. -/
  | frec (src : Node) (cls : RecClass) (seq : Seq) (sofs : Nat) (first last : Bool) (data : List Byte)
  | fvoid (src : Node) (cls : RecClass) (seq : Seq)
  | sync (l : List StreamSeq)
  | streamReset (l : List StreamSeq)
  | frun (orig : Node) (r : RdxResult)
  /-- A signed operator command relayed to the owner (08 R293): its container. -/
  | mgmt (bytes : List Byte)
  /-- A PTP Delay_Req, which leaves through the CONTROL queue (11 R406). -/
  | delayReq
  deriving DecidableEq, Repr

/-- A CRLINK frame (17 R565): LIVE with STAT, the register, TIME, VLAST and ILAST; READING with the payload of R560;
LOGENT with an entry of R563; IDENT with MID, SWID, SWCRC and the parameters. -/
inductive CrFrame where
  | live (stat : BitVec 16) (emj : BitVec 64) (efrac : Word) (time : BitVec 80) (vlast ilast : Word)
  | reading (payload : List Byte)
  | logent (entry : List Byte)
  | ident (mid : BitVec 128) (swid swcrc : Word) (pars : List Word)
  deriving DecidableEq, Repr

/-- What a read of the calibration port names (17 R562). -/
inductive CalItem where
  | ident | par (pid : Fin 8) | register | state
  deriving DecidableEq, Repr

/-- The cipher suite that a key agreement selects (11 R403). -/
inductive MacSuite where
  | gcm256 | xpn256 | gcm128 | xpn128
  deriving DecidableEq, Repr

/-- An access to the proxy window (01 R48, R49): its access port, slot, offset in the slot, size in bytes, and the data of
a write. -/
structure ProxyAcc where
  o : Origin
  slot : Fin 16
  ofs : BitVec 20
  size : Nat
  data : Option Word
  deriving DecidableEq, Repr

/-- Why a part raises an ALARM, where a rule says that it does and names no record for it. -/
inductive AlarmWhy where
  /-- 02 R60. -/
  | stepRefused
  /-- 05 R192. -/
  | storeErr
  /-- 06 R230. -/
  | weightUe
  /-- 16 R520. -/
  | foreign
  /-- 16 R537. -/
  | reverted
  /-- 04 R156. -/
  | rdxFull
  /-- 07 R267: the condition table is full. -/
  | ctFull
  /-- 01 R24: a frame carries the receiver's own address. -/
  | addrDup
  /-- 01 R32. -/
  | miswired
  /-- 01 R38: the pair handshake failed. -/
  | pairFail
  /-- 08 R288: GEN is used up. -/
  | genUsed
  /-- 08 R293, R294. -/
  | wgBusy
  /-- 08 R311. -/
  | isolated
  /-- 08 R323. -/
  | admFail
  /-- 08 R326. -/
  | pairDeg
  /-- 10 R368. -/
  | genFail
  /-- 10 R385. -/
  | overBudget
  /-- 11 R403. -/
  | keyRej
  /-- 11 R405. -/
  | pnExh
  /-- 11 R409. -/
  | armRej
  /-- 12 R427. -/
  | drainUe
  /-- 19 R614. -/
  | overTemp
  /-- 14 R489: a flash write of the history failed. -/
  | histFail
  deriving DecidableEq, Repr

/-- An output pin (19 R598, R606). -/
inductive Pin where
  /-- TRIG_OUT[line] of 02 R92. -/
  | trigOut (line : Nat)
  /-- PSI_REQ[core] of 03 R123. -/
  | psiReq (core : Nat)
  /-- HALT_REQ[i] of 12 R437. -/
  | haltReq (i : Nat)
  /-- CMP_OUT[i] of 18 R582. -/
  | cmpOut (i : Nat)
  /-- PM_ACK of 18 R574. -/
  | pmAck
  deriving DecidableEq, Repr

/-- What stands before the payload of a fleet frame (11 R393). -/
structure EthHead where
  dst : BitVec 48
  src : BitVec 48
  /-- MACsec: a SecTAG and an ICV. -/
  secTag : Bool
  /-- The 802.1Q tag: PCP, 0, VID. -/
  tag : Option (BitVec 16)
  etype : BitVec 16
  /-- The 16 bytes of the fleet header (11 R395). -/
  head : List Byte
  deriving DecidableEq, Repr

/-- What a part drives: a pin level, a frame on a wire, an alarm (log entry 2).
Mark: DESIGN CHOICE (log entry 2, safe). -/
inductive Out where
  | alarm (why : AlarmWhy)
  | pin (p : Pin) (level : Nat)
  /-- A PTP Delay_Req on a fleet port (02, "PTP fallback"). -/
  | delayReq (port : Nat)
  /-- A runner, out of a port: a die unit's 0 or 1, an aggregator's downstream port (04 R148, R151). -/
  | runner (port : Nat) (r : Runner)
  /-- A partial result of a split chain, to the owning side (04 R153). -/
  | partialRun (port : Nat) (r : Runner)
  /-- A frame out of a fleet port (11 R393, R395): its head, and the payload. -/
  | fleet (port : Nat) (head : EthHead) (m : FleetMsg)
  /-- TW_SAMP, with TW_RTAG when 1 (07 R251). -/
  | sample (tag : Option Nat)
  /-- TW_XREQ: tag, tile, the two engines used (07 R254). -/
  | thirdReq (tag tile engA engB : Nat)
  /-- MG_REQ: VLVL, FLVL, MG_ENG (07 R270). -/
  | margin (v f eng : Nat)
  /-- A segment of a record out of a die unit's Race port (10 R377). -/
  | recseg (port : Nat) (src : Node) (cls : RecClass) (seq : Seq) (sofs : Nat) (first last : Bool) (data : List Byte)
  /-- A RESTART marker: stream's class, VOID, OLDSEQ (09 R348, R349; 10 R370). -/
  | restart (port : Nat) (cls : RecClass) (void : Bool) (oldSeq : Seq)
  | beat (port : Nat)
  /-- Credit words out of a port: buffer units of a class that this receiver returns (10 R371, R372). -/
  | credit (port cls units : Nat)
  /-- HOPDOWN, or HOPUP with cause 0: the port it reports, cause, time (10 R370, R386). -/
  | hop (port : Nat) (up : Bool) (side cause time : Nat)
  | enum (port : Nat) (e : EnumMsg)
  /-- A frame relayed (10 R374, R376); `ok` is false for one that ends in an ABORT block or with a CRC that stays
  wrong. -/
  | relay (port : Nat) (f : RaceFrame) (ok : Bool)
  /-- A RECORD-class stream's ACK from an aggregator (09 R346). -/
  | ack (port : Nat) (k : Ack)
  /-- A proxy request to a die unit: slot, P and D are the port's; write with data, or read (01 R49; 10 R375). -/
  | proxy (port slot die ofs : Nat) (data : Option Word) (wide : Bool)
  /-- A proxy response (10 R375). -/
  | pxrsp (port slot : Nat) (refused wide : Bool) (data : BitVec 64)
  /-- A chain command out of a die unit's port 0 or 1, or from an aggregator's head on a downstream port (08 R318,
  10 R381). -/
  | cmd (port : Nat) (c : ChainCmd)
  /-- A copy turned at a down port, as CMDRET (10 R381). -/
  | cmdret (port : Nat) (c : ChainCmd)
  /-- The margin levels V and F that the sweep of an admission demands of the tray's dies (08 R322). -/
  | sweep (v f : Nat)
  /-- A frame on CRLINK (17 R565). -/
  | crlink (f : CrFrame)
  /-- A request for a fence that has not arrived: WGID, GEN, FSEQ (08 R297, R299). -/
  | fenceReq (wgid gen fseq : Nat)
  deriving DecidableEq, Repr

end Sys2Proof
end

