-- ==== Sys2Proof/Syntax.lean ====
section
/-! DEFINITION. The commands of the block: one constructor per row of spec/opcode_table.json, in the table's order, those
that bring operands first. The operands are what the row's rule says a command brings: the part it concerns, the access port of a register access, the
contents of a message, the outcome of something outside the block. -/

namespace Sys2Proof

/-- A command. -/
inductive Instr where
  /-- MARK_EDGE (R59). An HT_MARK edge is measured against the timebase, and the phase error is corrected by slewing.
  -/
  | markEdge (p : Part)
  /-- TOD_FRAME (R58). A complete time-of-day frame is checked; it sets the timebase from UNSET or flags a mismatch.
  -/
  | todFrame (p : Part) (frame : BitVec 128)
  /-- HOLDOVER (R57). No valid mark arrives for 4 mark periods, so a LOCKED timebase enters HOLDOVER. -/
  | holdover (p : Part)
  /-- DEGRADED (R57). HOLDOVER has lasted more than 10 ms, so the timebase enters DEGRADED. -/
  | degraded (p : Part)
  /-- RESYNC (R74). A write of TIM_CTRL.RESYNC takes a refused step, voids the skipped epoch numbers and records
  TIMESTEP. -/
  | resync (p : Part) (o : Origin)
  /-- PTP_MESSAGE (R64). A received PTP message is timestamped and drives the servo; the aggregator may move its time
  source to PTP. -/
  | ptpMessage (m : PtpMsg)
  /-- EPOCH_FIRE (R66). The timebase reaches a main epoch instant, and the epoch fires. -/
  | epochFire (p : Part)
  /-- FAST_EPOCH_FIRE (R67). The timebase reaches a fast epoch instant, and the fast epoch fires. -/
  | fastEpochFire (p : Part)
  /-- CATCHUP_FIRE (R73). An epoch instant passed by a forward step fires 1 µs after the one before it. -/
  | catchupFire (p : Part)
  /-- EPOCH_SWITCH_ARM (R70). A write of TIM_EPSWCTL.ARM arms a change of period, or is refused under R71. -/
  | epochSwitchArm (p : Part) (o : Origin)
  /-- EPOCH_SWITCH (R70). A pending change of period takes effect at the first qualifying u. -/
  | epochSwitch (p : Part)
  /-- EPEN_WRITE (R90). A write of TIM_CTRL.EPEN stops or resumes main epochs from the next main instant. -/
  | epenWrite (p : Part) (o : Origin) (on : Bool)
  /-- FASTEN_WRITE (R69). A write of TIM_CTRL.FASTEN enables or disables fast epochs and channel 1. -/
  | fastenWrite (p : Part) (o : Origin) (on : Bool)
  /-- CAP_ARM (R75). AON arms CAP with the epoch number and instant ahead of the epoch instant. -/
  | capArm (fast : Bool)
  /-- SNAPSHOT_LATCH (R94). The latch takes every covered counter and sensor value, computes deltas and cumulative
  values, and creates jobs. -/
  | snapshotLatch (ofsNs : Int)
  /-- TRIGGER_ARM (R84). A write of TIM[sel].ARM arms or disarms a general trigger channel. -/
  | triggerArm (p : Part) (o : Origin) (on : Bool)
  /-- TRIGGER_FIRE (R82). A trigger channel reaches its instant and performs its action. -/
  | triggerFire (p : Part) (ch : Fin 16)
  /-- HOSTOUT_PULSE_END (R92). A TRIG_OUT pulse ends after its width PW. -/
  | hostoutPulseEnd (p : Part) (ch : Fin 16)
  /-- CONVERSION_COMPLETE (R99). A sensor conversion completes and replaces the channel's value. -/
  | conversionComplete (ch : Fin 224) (value : Word)
  /-- SENSOR_WRITE (R101). The host sensor port writes an optical channel, or the write is discarded. -/
  | sensorWrite (ch : BitVec 8) (fmt : Nat) (value : Word)
  /-- LIVE_READ (R103). A read of CAP[sel].LIVEL returns a counter's raw value at one edge and latches LIVEH. -/
  | liveRead (o : Origin)
  /-- IMAGE_COMPLETE (R119). The snapshot writer completes an image; the slot enters VALID and SNP_LATEST is updated.
  -/
  | imageComplete (fast : Bool)
  /-- RECORD_BUILD (R114). The record builder turns the next image of a kind into a snapshot record, and the image
  enters BASE. -/
  | recordBuild (fast : Bool)
  /-- SLOT_RELEASE (R114). A former base image becomes FREE once no scorer read and no hold keeps it. -/
  | slotRelease (slot : Fin 16) (sub : Fin 16)
  /-- SNAPSHOT_HOLD (R117). A write of SNP_HOLD holds or releases slots, or is refused above 4 bits. -/
  | snapshotHold (o : Origin) (mask : BitVec 16)
  /-- HOLD_TIMEOUT (R117). A hold has lasted SNP_HOLDTO ms, so its bit is cleared. -/
  | holdTimeout (slot : Fin 16)
  /-- PSI_CROSSING (R123). A sampling down-counter reaches 0 and requests an interrupt of its core. -/
  | psiCrossing (ctr : BitVec 11)
  /-- PSI_ACK (R124). A core returns PSI_ACK, and the die unit commits a sample record. -/
  | psiAck (core : Fin 32) (skid : BitVec 16) (addr : BitVec 64)
  /-- PSI_ENABLE (R125). A write of CAP[sel].PSICFG enables sampling, or is refused for a 65th counter. -/
  | psiEnable (o : Origin) (value : Word)
  /-- RUNNER_LAUNCH (R148). At t0 + LOFS the launching aggregator sends a runner with identity lanes. -/
  | runnerLaunch (plan : Fin 64) (port : Fin 8)
  /-- RUNNER_WINDOW_OPEN (R382). A runner window opens, and RECORD, BULK and own CONTROL starts are withheld in the
  runner's direction. -/
  | runnerWindowOpen (p : Part) (port : Fin 8) (epoch : BitVec 64)
  /-- RUNNER_WINDOW_CLOSE (R382). The tail of the last runner of the epoch passes, and the window closes. -/
  | runnerWindowClose (p : Part) (port : Fin 8)
  /-- RUNNER_FOLD (R151). A die unit folds its items into a passing runner, or forwards it without a fold. -/
  | runnerFold (from_ : Side) (r : Runner)
  /-- RUNNER_ARRIVAL (R158). A runner reaches its receiving head and updates its package entry. -/
  | runnerArrival (port : Fin 8) (r : Runner)
  /-- REDUCTION_DEADLINE (R158). An entry's deadline passes, and it completes PARTIAL or LOST. -/
  | reductionDeadline (k : RdxKey)
  /-- ENTRY_FREE (R156). An entry is freed once its result record is committed to the journal. -/
  | entryFree (k : RdxKey)
  /-- FRUN (R160). An upward reduction result arrives and is merged, or discarded as late or duplicate. -/
  | frun (i : FleetIn) (orig : BitVec 24) (r : RdxResult)
  /-- SREFHAND (R163). A launcher receives the lane 2 result of the previous package result from the owner. -/
  | srefhand (i : FleetIn) (plan : Fin 64) (port : Fin 8) (epn : BitVec 64) (sref : BitVec 24)
  /-- PHASE_ARR (R162). The host signals arrival at a barrier phase, and the die unit stamps it. -/
  | phaseArr (phase : Fin 16) (step : BitVec 24)
  /-- PHASE_REL (R162). The host signals a release, and the die unit stamps it and updates phase times. -/
  | phaseRel (phase : Fin 16) (step : BitVec 24)
  /-- FEATURES_READY (R179). The Riddle has encoded every value the model set names for a vector. -/
  | featuresReady (p : Part)
  /-- TREE_JOB_START (R193). A tree job begins when its features are ready and the previous job has issued its last
  tree. -/
  | treeJobStart (p : Part)
  /-- TREE_VERDICT (R198). A tree job's sum completes, the Weir updates, and the verdict goes to the health unit and
  the record builder. -/
  | treeVerdict (p : Part)
  /-- SWAP_ARM (R204). A write of TRE_SWAPCTL.ARM arms a bank swap, or is refused. -/
  | swapArm (p : Part) (o : Origin)
  /-- SWAP_CANCEL (R204). A write of TRE_SWAPCTL.CANCEL removes a pending swap. -/
  | swapCancel (p : Part) (o : Origin)
  /-- WEIR_RESET (R200). A write of TRE[sel].WEIRCTL.RESET clears the ensemble's Weir state at its next verdict. -/
  | weirReset (p : Part) (o : Origin)
  /-- TREE_SCRUB (R210). The scrubber compares one store entry with its shadow copy and repairs it on a difference. -/
  | treeScrub (p : Part) (upset : Option StoreUpset)
  /-- DENSE_JOB_START (R228). A dense job begins when its features are ready and the previous dense job has finished.
  -/
  | denseJobStart (p : Part)
  /-- DENSE_VERDICT (R231). A dense job completes its outputs, updates their Weirs and yields a verdict record. -/
  | denseVerdict (p : Part)
  /-- DENSE_JOINT (R227). A joint output receives its partner's verdict and gives its level to the health unit. -/
  | denseJoint (p : Part)
  /-- DENSE_WEIR_RESET (R243). A write of DNS[sel].WEIRCTL.RESET clears the model's output Weirs at the next verdict.
  -/
  | denseWeirReset (p : Part) (o : Origin)
  /-- DRIFT_UPDATE (R237). A drift metric updates its CUSUM and live baseline once its value and band are known. -/
  | driftUpdate (p : Part) (metric : BitVec 10)
  /-- REBASE (R242). A write of DRF[sel].REBASE returns the metric to EMPTY at its next update. -/
  | rebase (p : Part) (o : Origin)
  /-- ANNOUNCE (R255). A witness ANNOUNCE is drawn, and the die unit answers whether the tile is sampled. -/
  | announce (tile : BitVec 64) (eng : BitVec 8)
  /-- FIRST (R253). The announced engine's signature arrives for a pending entry. -/
  | first (tag : BitVec 12) (tile : BitVec 64) (eng : BitVec 8) (sig : BitVec 64)
  /-- SECOND (R260). The re-execution's signature arrives, and the signatures are compared. -/
  | second (tag : BitVec 12) (tile : BitVec 64) (eng : BitVec 8) (sig : BitVec 64)
  /-- THIRD (R260). The third execution's signature arrives, and the die unit arbitrates. -/
  | third (tag : BitVec 12) (tile : BitVec 64) (eng : BitVec 8) (sig : BitVec 64)
  /-- PENDING_TIMEOUT (R259). An entry lacking FIRST or SECOND is freed after WIT_PENDTO. -/
  | pendingTimeout (tag : BitVec 12)
  /-- THIRD_TIMEOUT (R259). An entry lacking THIRD is freed as UNDECIDED after WIT_THIRDTO. -/
  | thirdTimeout (tag : BitVec 12)
  /-- CONDITION_CLEAR (R268). A write of WIT[sel].CLEAR frees a condition entry and withdraws its margin demand. -/
  | conditionClear (o : Origin)
  /-- SEED_WRITE (R257). A write of WIT_SEEDH sets the job seed for later ANNOUNCE transactions. -/
  | seedWrite (o : Origin) (high : Word)
  /-- MARGIN_ANSWER (R272). MG_ACK arrives; MG_OK = 1 acknowledges the levels, and MG_OK = 0 exhausts the raised
  kinds. -/
  | marginAnswer (ok : Bool)
  /-- SILENT (R284). A die unit is unreachable from a side for VOT_SILTO µs, so SILENT is raised. -/
  | silent (die : Fin 256) (partnerSame : Bool)
  /-- DIE_UNREACHABLE (R379). No frame from a die unit has arrived within 3 × RACE_BEATPER µs, so it is not reachable
  from that head. -/
  | dieUnreachable (die : Fin 256)
  /-- FENCE_RECEIVE (R298). A die unit receives a fence, places it in a slot and arms a trigger channel for TF. -/
  | fenceReceive (f : Fence)
  /-- FENCE_DONE (R300). A write of HLT[sel].DONE frees a visible fence slot. -/
  | fenceDone (o : Origin)
  /-- TRAY_BEAT_RECEIVE (R311). An aggregator receives a TRAY_BEAT and updates its view of the tray. -/
  | trayBeatReceive (i : FleetIn) (h : VoteHead) (b : TrayBeat)
  /-- TRAYSILENT (R314). The group decider hears no TRAY_BEAT from either side of a tray for 300 µs and raises
  TRAYSILENT. -/
  | traysilent (tray : BitVec 6)
  /-- PROPOSE (R303). A tray side's computed verdict differs from the verdict in force, and it sends PROPOSE. -/
  | propose (subj : BitVec 24)
  /-- PROPOSE_REPEAT (R303). A proposal not yet settled is repeated every VOT_GTO µs, or every 1 s when governed. -/
  | proposeRepeat (subj : BitVec 24)
  /-- PROPOSE_RECEIVE (R304). The decider receives a proposal and decides when it holds what it needs. -/
  | proposeReceive (i : FleetIn) (h : VoteHead) (pr : Proposal)
  /-- GOVERNED_EXPIRY (R316). A governed subject with no repeat for 3 s leaves the queue. -/
  | governedExpiry (subj : BitVec 24)
  /-- DECIDE_RECEIVE (R305). The partner receives DECIDE and answers COMMIT agree or refuse. -/
  | decideReceive (i : FleetIn) (h : VoteHead) (f : Fence)
  /-- COMMIT_RECEIVE (R305). The decider receives COMMIT and publishes the FENCE on agree. -/
  | commitReceive (i : FleetIn) (h : VoteHead) (decid : BitVec 64) (agree : Bool)
  /-- DECIDE_RESEND (R305). No COMMIT arrives within VOT_GTO, so the decider sends DECIDE again. -/
  | decideResend (decid : BitVec 64)
  /-- ESCALATE_RECEIVE (R306). The system decider receives a system-scoped escalation. -/
  | escalateReceive (i : FleetIn) (h : VoteHead) (f : Fence) (ps : List Proposal)
  /-- RELAY_RECEIVE (R306). A group root receives fence drafts from the system decider and publishes the confined
  fences. -/
  | relayReceive (i : FleetIn) (h : VoteHead) (drafts : List Fence)
  /-- FENCE_MESSAGE (R307). An aggregator receives a FENCE, answers FACK, logs EXPEL and HARD and delivers the fence
  to its dies. -/
  | fenceMessage (i : FleetIn) (h : VoteHead) (f : Fence)
  /-- FACK_RECEIVE (R307). The owner receives a FACK from a fence receiver. -/
  | fackReceive (i : FleetIn) (h : VoteHead) (decid : BitVec 64) (wgid : BitVec 16) (fseq : Word) (gap : Bool)
  /-- FENCE_RESEND (R307). A FENCE receiver without FACK after VOT_GTO or VOT_STO is sent the FENCE again. -/
  | fenceResend (decid : BitVec 64)
  /-- GROUP_BEAT_RECEIVE (R311). The system root receives a GROUP_BEAT. -/
  | groupBeatReceive (i : FleetIn) (h : VoteHead) (term : Word) (trays : BitVec 8)
  /-- ISOLATION (R311). A root pair loses its majority of beats within 300 µs and becomes isolated. -/
  | isolation (sys : Bool)
  /-- QUIET_PERIOD_END (R312). A new role holder's quiet period ends, and it begins to decide. -/
  | quietPeriodEnd (sys : Bool)
  /-- ROLE_CLAIM (R39). A role holder sends ROLE_CLAIM every 100 µs. -/
  | roleClaim (sys : Bool)
  /-- ROLE_CLAIM_RECEIVE (R40). A pair receives a role claim and yields to a winning or higher-term claim. -/
  | roleClaimReceive (i : FleetIn) (sys : Bool) (holder : BitVec 24) (term : Word)
  /-- ROLE_VACANT (R40). No claim has arrived for 300 µs, so an eligible pair claims the role. -/
  | roleVacant (sys : Bool)
  /-- CMD_RECEIVE (R381). A die unit decides acceptance of a chain command, sets its mask bit and forwards the frame.
  -/
  | cmdReceive (from_ : Side) (c : ChainCmd)
  /-- CMDRET (R381). A command copy turned at a down port returns to its head with its mask. -/
  | cmdret (port : Fin 8) (c : ChainCmd)
  /-- CMD_MASK (R319). The issuer receives the acknowledgement mask of a copy from a head. -/
  | cmdMask (via : Option FleetIn) (port : Fin 8) (cseq : Word) (mask : Word)
  /-- CMD_REISSUE (R319). Dies missing from both masks after VOT_CMDTO are sent the command again from the partner's
  head. -/
  | cmdReissue (port : Fin 8) (cseq : Word)
  /-- CMD_UNACK (R319). Dies still missing after 1,000 µs are reported with CMDUNACK. -/
  | cmdUnack (port : Fin 8) (cseq : Word)
  /-- LINK_DOWN (R320). A host link status line falls, and a LINKDOWN record is committed. -/
  | linkDown (link : Fin 16)
  /-- LINK_DEAD (R321). A link stays down for HLT_LDTO µs, so LINKDEAD is raised. -/
  | linkDead (link : Fin 16)
  /-- LINK_UP (R321). A link returns before LINKDEAD, and a LINKUP record is committed. -/
  | linkUp (link : Fin 16)
  /-- ADMIT_START (R322). A write of VOT_ADMCTL.START puts the pair in TESTING for watch group w. -/
  | admitStart (o : Origin) (wgid : BitVec 12)
  /-- ADMIT_TEST_DONE (R322). Self-tests and checked enumeration complete, and the pair enters SWEEP. -/
  | admitTestDone (pass : Bool)
  /-- SWEEP_END (R323). The sweep ends; the pair enters READY on a pass or FAILED otherwise. -/
  | sweepEnd
  /-- ADMIT_LOADED (R322). A write of VOT_ADMCTL.LOADED puts the pair in LOADED, and both sides propose ADMIT. -/
  | admitLoaded (o : Origin)
  /-- ADMIT_ABORT (R323). A write of VOT_ADMCTL.ABORT returns the pair to IDLE. -/
  | admitAbort (o : Origin)
  /-- TRAYGRAPH (R444). The group decider receives a tray's cycles and exits. -/
  | traygraph (i : FleetIn) (h : VoteHead) (g : HangGraph)
  /-- ENTRYQ (R443). An assembler or group decider answers a query for the walk from a vertex. -/
  | entryq (i : FleetIn) (h : VoteHead) (asmn : BitVec 64) (ws : List Word)
  /-- ENTRYRSP (R444). The decider receives a walk result and searches for cycles. -/
  | entryrsp (i : FleetIn) (h : VoteHead) (asmn : BitVec 64) (rs : List WalkRsp)
  /-- GROUPGRAPH (R444). The system decider receives a group's cycles and exits. -/
  | groupgraph (i : FleetIn) (h : VoteHead) (g : HangGraph)
  /-- HELD_EVENT_COMMIT (R486). Room frees, and one EVENT record per code with held occurrences is committed. -/
  | heldEventCommit (p : Part)
  /-- SPILL_READBACK (R341). Buffer space frees, and the oldest spilled records are read back in SEQ order. -/
  | spillReadback (cls : RecClass)
  /-- RECORD_SEND (R377). A die unit starts the segments of a record toward a head when credits allow. -/
  | recordSend (cls : RecClass) (side : Side)
  /-- RECORD_RECEIVE (R347). An aggregator receives a reassembled record and journals, discards or NACKs it: the command is the
  arrival of a RECSEG frame of 10 R377, the last of which makes the record whole. -/
  | recordReceive (port : Fin 8) (g : RecSeg)
  /-- RESTART_MARKER (R349). An aggregator receives a RESTART marker, ending NOBASE or writing a void entry. -/
  | restartMarker (orig : BitVec 24) (cls : RecClass) (void : Bool) (oldSeq : BitVec 48)
  /-- ACK_SEND (R346). An aggregator sends an ACK on journaling progress, on a gap, or every 50 µs. -/
  | ackSend (die : Fin 256)
  /-- ACK_RECEIVE (R348). A die unit receives an ACK and resends on NACK or NOBASE. -/
  | ackReceive (side : Side) (a : Ack)
  /-- ACK_TIMEOUT (R348). No ACK advances JSEQ for REC_ACKTO µs, so the stream is resent from JSEQ + 1. -/
  | ackTimeout (side : Side) (cls : RecClass)
  /-- HEAD_TIMEOUT (R350). No frame from a head for REC_HEADTO µs makes it unreachable. -/
  | headTimeout (side : Side)
  /-- FREC_SEND (R353). The forwarder sends a record's segments to a collector in SEQ order. -/
  | frecSend (stream : Nat)
  /-- SACK (R352). An aggregator receives a SACK and frees the acknowledged journal entries. -/
  | sack (i : FleetIn) (entries : List StreamSeq)
  /-- SYNCRSP (R354). The forwarder receives NEXT and resumes the stream from it. -/
  | syncrsp (i : FleetIn) (entries : List StreamSeq)
  /-- SINK_TIMEOUT (R354). No SACK progress for JRN_SINKTO µs moves the stream to the next collector. -/
  | sinkTimeout (stream : Nat)
  /-- SYNC_TIMEOUT (R354). A SYNC unanswered after JRN_SYNCTO µs is sent again. -/
  | syncTimeout (stream : Nat)
  /-- JSTATE_RECEIVE (R399). A side receives its partner's journal state. -/
  | jstateReceive (i : FleetIn) (entries : List JPair)
  /-- DIGEST (R360). At each multiple of REC_DIGPER, the source commits a signed DIGEST record. -/
  | digest (p : Part)
  /-- HOP_TRAIN (R369). A hop detects its peer and runs the training steps toward UP. -/
  | hopTrain (p : Part) (port : Fin 8) (peer : Peer)
  /-- TRAIN_TIMEOUT (R369). A training step exceeds its limit, and the port returns to DOWN. -/
  | trainTimeout (p : Part) (port : Fin 8)
  /-- TRAIN_RETRY (R369). A DOWN port retries training every 1 ms while RETRAINEN = 1. -/
  | trainRetry (p : Part) (port : Fin 8)
  /-- HOP_UP (R369). LINKUP completes training, the port enters UP, and a retrained split hop sends HOPUP. -/
  | hopUp (p : Part) (port : Fin 8)
  /-- HOP_DOWN (R386). A port goes DOWN on loss of lock or an error burst and sends HOPDOWN. -/
  | hopDown (p : Part) (port : Fin 8) (burst : Bool)
  /-- CREDIT_STALL (R386). No credit return for 100 µs while credits are owed takes the port DOWN. -/
  | creditStall (p : Part) (port : Fin 8)
  /-- HOPDOWN_RECEIVE (R387). An aggregator receives HOPDOWN and marks the port SPLIT with its last D. -/
  | hopdownReceive (port : Fin 8) (orig : BitVec 24) (dport : Side) (cause : BitVec 8)
  /-- HOPUP_RECEIVE (R369). Aggregator A receives HOPUP and restarts enumeration on the port. -/
  | hopupReceive (port : Fin 8) (orig : BitVec 24)
  /-- SETGEN (R367). A die unit receives SETGEN with the chain generation and a switch instant. -/
  | setgen (gen : BitVec 2) (at_ : BitVec 80)
  /-- GEN_SWITCH (R367). At the switch instant, every hop retrains at the chosen generation. -/
  | genSwitch (p : Part) (port : Fin 8) (failed : Bool)
  /-- FRAME_RELAY (R374). A die unit relays a Race frame cut-through, or discards it on a wrong HCHK. -/
  | frameRelay (from_ : Side) (f : RaceFrame)
  /-- CREDIT_WORD (R372). A credit word returns buffer units to the sender. -/
  | creditWord (p : Part) (port : Fin 8) (cls : Fin 5) (units : BitVec 8)
  /-- PORT_RETRAIN (R388). A write of RACE[sel].RETRAIN takes the port DOWN to train again. -/
  | portRetrain (p : Part) (o : Origin)
  /-- ENUM_START (R30). Aggregator A starts enumeration by sending ENUM with h = 0. -/
  | enumStart (port : Fin 8)
  /-- ENUM (R31). A die unit receives ENUM, takes or checks its address and forwards with h + 1. -/
  | enum (from_ : Side) (e : EnumMsg)
  /-- ENUM_COMPLETE (R30). Aggregator B receives the A pass, checks h = LEN and starts the B pass. -/
  | enumComplete (port : Fin 8) (e : EnumMsg)
  /-- ENUM_TIMEOUT (R33). The A pass has not reached B within 200 µs, so the chain is split. -/
  | enumTimeout (port : Fin 8)
  /-- ENUM_ALONE (R34). Aggregator A has sent no ENUM within 10 ms, so aggregator B enumerates the port alone. -/
  | enumAlone (port : Fin 8) (gmask : BitVec 3)
  /-- PROXY_ACCESS (R49). A PCIe access to the proxy window becomes a proxy read or write to a die unit. -/
  | proxyAccess (a : ProxyAcc)
  /-- PXRD (R375). A die unit consumes a proxy read and answers PXRSP. -/
  | pxrd (from_ : Side) (src : BitVec 24) (slot : Fin 16) (wide : Bool) (ofs : BitVec 20)
  /-- PXWR (R375). A die unit consumes a proxy write and answers PXRSP. -/
  | pxwr (from_ : Side) (src : BitVec 24) (slot : Fin 16) (ofs : BitVec 20) (data : Word)
  /-- PXRSP (R375). The aggregator receives a proxy response and completes the access. -/
  | pxrsp (slot : Fin 16) (refused : Bool) (wide : Bool) (data : BitVec 64)
  /-- PROXY_TIMEOUT (R51). A proxy access unanswered after 50 µs sets TIMEOUT and fails. -/
  | proxyTimeout (slot : Fin 16)
  /-- FLEET_PORT_UP (R391). A fleet port completes negotiation and training and comes up. -/
  | fleetPortUp (port : Fin 8) (speed : BitVec 2) (fec : BitVec 3)
  /-- FLEET_PORT_DOWN (R401). A fleet port goes down; its CONTROL and RUNNER queues are discarded and its streams
  move. -/
  | fleetPortDown (port : Fin 8)
  /-- MKA_KEY_INSTALL (R404). MKA installs a key, and the port begins sending protected frames. -/
  | mkaKeyInstall (port : Fin 8) (suite : MacSuite) (an : BitVec 2)
  /-- MACSEC_REKEY (R405). The transmit packet number reaches its threshold, and the port asks MKA for a new key. -/
  | macsecRekey (port : Fin 8)
  /-- PN_EXHAUSTED (R405). The packet number would pass its limit before a new key, so the port goes down. -/
  | pnExhausted (port : Fin 8)
  /-- GCL_ARM (R407). A write of SLU[sel].ARM arms the administrative gate list, or is refused. -/
  | gclArm (o : Origin)
  /-- GCL_CANCEL (R408). A write of CANCEL removes a pending gate list. -/
  | gclCancel (o : Origin)
  /-- GCL_TAKEOVER (R408). A pending list takes over at its base time, and cycle 0 begins. -/
  | gclTakeover (port : Fin 8)
  /-- GATE_ENTRY (R410). An interval of the operative list ends, and the next entry's gates apply. -/
  | gateEntry (port : Fin 8)
  /-- FRAME_START (R410). The port starts the head frame of the lowest open, eligible class. -/
  | frameStart (port : Fin 8)
  /-- TRACE_EVENT (R421). A core presents retired events, and its stream emits packets. -/
  | traceEvent (core : Fin 32) (slots : List TraceSlot)
  /-- BLOCK_DRAIN (R423). A full staging block is drained to the core's area. -/
  | blockDrain (core : Fin 32)
  /-- DRAIN_IDLE (R423). A stream idle for 10 µs has its partly filled block padded and drained. -/
  | drainIdle (core : Fin 32)
  /-- TRACE_RECORD (R426). In STREAM mode, drained blocks are read back and committed as TRACE records. -/
  | traceRecord (core : Fin 32)
  /-- TRACE_RESUME (R427). A write of TRC_CTRL.TRCEN from 0 to 1 resumes the drain. -/
  | traceResume (o : Origin)
  /-- TOKEN_VERIFY (R429). A write of TRC_TOKCTL.VERIFY starts the check of a token. -/
  | tokenVerify (o : Origin)
  /-- TOKEN_CLEAR (R429). A write of TRC_TOKCTL.CLEAR removes the held token. -/
  | tokenClear (o : Origin)
  /-- SESSION_OPEN (R430). A write of TRC_SESSION.OPEN opens a session of the class, or is refused. -/
  | sessionOpen (o : Origin) (classU : Bool)
  /-- SESSION_CLOSE (R432). A write of TRC_SESSION.CLOSE ends the session, and staging drains. -/
  | sessionClose (o : Origin)
  /-- CORE_LOW_POWER (R433). A core signals low-power entry or exit, and its stream emits POWER or SYNC. -/
  | coreLowPower (core : Fin 32) (enter : Bool) (st : BitVec 4)
  /-- WATCH_MATCH (R435). A memory watch request matches a watchpoint, which takes its action. -/
  | watchMatch (lanes : List WatchReq)
  /-- HALT_ACK (R437). The host returns HALT_ACK, and HALT_REQ drops. -/
  | haltAck (wp : Fin 16)
  /-- HALT_RELEASE (R437). A write of WCH[sel].HALT.RELEASE drops HALT_REQ. -/
  | haltRelease (o : Origin)
  /-- WATCH_ENABLE (R449). A write of WCH[sel].EN enables a watchpoint, or is refused with MATCH 0. -/
  | watchEnable (o : Origin) (on : Bool)
  /-- WAITFOR_SAMPLE (R439). The Ladle samples every wait-for word and updates its edges. -/
  | waitforSample (words : List (Fin 128 × Word))
  /-- COMPRESS (R457). A part begins to compress a record at the level in force. -/
  | compress (p : Part)
  /-- COMPRESS_COMPLETE (R453). Compression ends, and the record is committed compressed, or raw when not smaller. -/
  | compressComplete (p : Part)
  /-- COMPRESS_ABANDON (R460). A compression past FLM_CBUDGET is abandoned and redone at level 0. -/
  | compressAbandon (p : Part)
  /-- COMPRESS_FAULT (R467). A history UE or a LINK reset interrupts compression, and the record is committed
  uncompressed. -/
  | compressFault (p : Part) (ue : Bool)
  /-- MBX_PUSH (R472). A write of MBX[sel].TXDATA pushes a stamped word to the other side. -/
  | mbxPush (p : Part) (o : Origin) (w : Word)
  /-- MBX_POP (R472). A read of MBX[sel].RXDATA removes the head word of the inbound queue. -/
  | mbxPop (p : Part) (o : Origin)
  /-- DOORBELL_SET (R474). A write of MBX[sel].DBSET sets doorbell bits at the receiver and in PEND. -/
  | doorbellSet (p : Part) (o : Origin) (bits : Word)
  /-- DOORBELL_ACK (R474). A write of 1 to MBX[sel].DB clears the bit and the sender's PEND bit. -/
  | doorbellAck (p : Part) (o : Origin) (bits : Word)
  /-- MBX_TIMEOUT (R477). A PEND bit set for MBX[sel].TO µs sets TIMEOUT at the sender. -/
  | mbxTimeout (p : Part) (ch : Fin 16) (sideK : Bool)
  /-- POSTEVENT (R481). Side K serves a POSTEVENT request, raising the host event and replying. -/
  | postevent (p : Part) (ch : Fin 16)
  /-- PING (R481). Side K serves a PING request and replies. -/
  | ping (p : Part) (ch : Fin 16)
  /-- UNKNOWN_REQUEST (R481). Side K answers a request of an unassigned OP with STATUS 1. -/
  | unknownRequest (p : Part) (ch : Fin 16)
  /-- BUCKET_REFILL (R483). At each millisecond, every event code's bucket gains RATE units. -/
  | bucketRefill (p : Part)
  /-- EVR_CFG_WRITE (R483). A write of EVR[sel].CFG sets a code's configuration and refills its bucket. -/
  | evrCfgWrite (p : Part) (o : Origin) (value : Word)
  /-- EVREAD (R491). A signed EVREAD command commits a range of history entries as REPLAY records. -/
  | evread (c : OpCmd) (first : Word) (count : BitVec 16)
  /-- EVCLEAR (R491). A signed EVCLEAR command clears the ring, the history or both, and raises EVCLEARED. -/
  | evclear (c : OpCmd) (ring : Bool) (history : Bool)
  /-- MEMORY_SCRUB (R503). The scrubber reads one word of a memory every SCRUBPER cycles; `upset`: the bits that have flipped
  in it. `dma`: in its place, a DMA channel reads the word at an address (R509). -/
  | memoryScrub (p : Part) (mem : Fin 19) (upset : BitVec 39) (dma : Option (Fin 3 × BitVec 23))
  /-- ECC_WRITE_BACK (R500). The corrected word is written back in the memory's next free write cycle. -/
  | eccWriteBack (p : Part) (mem : Fin 19) (addr : BitVec 23)
  /-- MERGE_FLUSH (R504). A merge-buffer entry idle for 32 cycles is merged and written. -/
  | mergeFlush (p : Part) (mem : Fin 19) (writes : List NarrowWrite)
  /-- FETCH_TRAP (R508). An uncorrectable instruction fetch traps the Ladle or a cluster core. -/
  | fetchTrap (p : Part) (addr : BitVec 23) (synd : BitVec 7)
  /-- PARTITION_RESET (R510). A partition resets, from a memory error or a write of RAS_PRST. -/
  | partitionReset (p : Part) (part : Fin 7) (byReg : Option Origin)
  /-- DMA_RESUME (R509). A halted channel other than trace drain resumes 10 µs after handling. -/
  | dmaResume (p : Part) (chan : Fin 4)
  /-- CE_CLEAR (R501). A write of RAS[sel].CECLR frees every entry that is not REMAPPED. -/
  | ceClear (p : Part) (o : Origin)
  /-- FLIP_ARM (R512). A write of RAS_FLIPCTL.ARM arms a flip mask for the next write to a memory. -/
  | flipArm (p : Part) (o : Origin) (mem : BitVec 5)
  /-- MEMORY_PORT_READ (R604). A read-back beat arrives on the memory port, marked uncorrectable by MP_RERR or not. -/
  | memoryPortRead (cls : RecClass) (rerr : Bool)
  /-- MEMORY_PORT_DONE (R604). MP_DONE completes a request, and the production counter adds MP_CBYTES. -/
  | memoryPortDone (kind : BitVec 2) (cbytes : BitVec 7)
  /-- LOAD_BEGIN (R533). A write of PAT_LOADCTL.BEGIN starts a host-port load. -/
  | loadBegin (p : Part) (o : Origin)
  /-- LOAD_DATA (R533). A write of PAT_DATA adds a container word, which is hashed and staged. -/
  | loadData (p : Part) (o : Origin) (w : Word)
  /-- LOAD_END (R533). A write of PAT_LOADCTL.END starts verification. -/
  | loadEnd (p : Part) (o : Origin)
  /-- LOAD_VERIFIED (R524). Verification completes; the content becomes pending or is rejected with a code. -/
  | loadVerified (p : Part)
  /-- LOAD_CANCEL (R532). A write of PAT_LOADCTL.CANCEL removes pending content and its swap. -/
  | loadCancel (p : Part) (o : Origin)
  /-- LOAD_ABORT (R533). A write of PAT_LOADCTL.ABORT abandons a load in progress. -/
  | loadAbort (p : Part) (o : Origin)
  /-- PATBEGIN (R534). A die unit receives PATBEGIN and starts a Race load. -/
  | patbegin (from_ : Side) (loadId : Word) (totLen : Word)
  /-- PATCHUNK (R534). A die unit takes a container chunk by offset, once. -/
  | patchunk (from_ : Side) (loadId : Word) (ofs : Word) (bytes : List Byte)
  /-- PATEND (R534). A die unit receives PATEND and starts verification. -/
  | patend (from_ : Side) (loadId : Word)
  /-- FW_SWAP (R537). A write of PAT_FWCTL.SWAP makes the verified inactive firmware bank active. -/
  | fwSwap (p : Part) (o : Origin)
  /-- FW_REVERT (R537). New firmware not healthy within 1 s causes a reset into the previous bank. -/
  | fwRevert (p : Part)
  /-- FW_COMMIT (R538). A write of PAT_FWCTL.COMMIT raises the fuse SVN, or is refused. -/
  | fwCommit (p : Part) (o : Origin)
  /-- OPEN (R293). A signed OPEN command opens a watch group, relayed to the owner for its fence. -/
  | openGroup (c : OpCmd) (g : WatchGroup)
  /-- TEARDOWN (R293). A signed TEARDOWN command closes a watch group at TF. -/
  | teardown (c : OpCmd) (g : WatchGroup)
  /-- SETSPARES (R317). A signed SETSPARES command sets the group spare count. -/
  | setspares (c : OpCmd) (group : BitVec 6) (spares : BitVec 16)
  /-- MKAKEY (R541). A signed MKAKEY command installs the MACsec connectivity association key. -/
  | mkakey (c : OpCmd) (portMask : BitVec 8) (ckn : BitVec 128) (wrapped : List Byte)
  /-- NODEOVR (R541). A signed NODEOVR command stores a node override for the part. -/
  | nodeovr (c : OpCmd) (devid : BitVec 128) (g : BitVec 6) (t : BitVec 6)
  /-- ENROLL (R519). ENROLL binds the first owner of an UNOWNED aggregator. -/
  | enroll (c : OpCmd) (o : Origin) (cert : List Byte)
  /-- KEYROTATE (R519). KEYROTATE replaces the operator key for the same OWNERID. -/
  | keyrotate (c : OpCmd) (cert : List Byte)
  /-- RELEASE (R519). RELEASE returns the aggregator to UNOWNED and erases patterns, override and keys. -/
  | release (c : OpCmd) (devid : BitVec 128)
  /-- ATTEST (R542). A write of SEC_ATTCTL.ATTEST starts an attestation report over the nonce. -/
  | attest (p : Part) (o : Origin)
  /-- ATTEST_READY (R542). The signed report is ready in the read buffer and may be committed as AUDIT. -/
  | attestReady (p : Part)
  /-- CERT (R542). A write of SEC_ATTCTL.CERT places the device and product CA certificates in the read buffer. -/
  | cert (p : Part) (o : Origin)
  /-- SECDATA_READ (R548). A read of PAT[sel].SECDATA returns a section word and advances SECOFS. -/
  | secdataRead (p : Part) (o : Origin)
  /-- BUFDATA_READ (R549). A read of SEC_BUFDATA returns a buffer word and advances the index. -/
  | bufdataRead (p : Part) (o : Origin)
  /-- CRUCIBLE_MARK (R553). A CR_MARK edge disciplines the Crucible's own timebase. -/
  | crucibleMark (frame : Option (BitVec 128))
  /-- CRUCIBLE_SAMPLE (R556). At each 125 µs instant, both channels latch and the energy register advances. -/
  | crucibleSample (v : BitVec 24) (i : BitVec 24) (ue : Bool)
  /-- CRLINK_RECEIVE (R565). The core receives a CRLINK frame and updates the CRU mirror, or discards it on a bad CRC.
  -/
  | crlinkReceive (f : CrFrame) (crcOk : Bool)
  /-- CAL_READ (R562). The calibration port returns identification, parameters, register or state. -/
  | calRead (item : CalItem)
  /-- CAL_LOG_READ (R562). The calibration port returns a log entry. -/
  | calLogRead (n : BitVec 16)
  /-- CAL_WRITE (R562). The calibration port writes a parameter, blowing BROKEN first when sealed. -/
  | calWrite (pid : Fin 8) (value : Word) (calen : Bool)
  /-- CAL_SEAL (R562). The calibration port blows the SEAL fuse. -/
  | calSeal (calen : Bool)
  /-- CRUCIBLE_POWERUP (R563). The Crucible powers up, checks its ROM and logs POWERUP. -/
  | cruciblePowerup (romCrc : Word) (ue : Bool)
  /-- SWCRC_CHECK (R564). The Crucible recomputes SWCRC each hour and enters ERROR on a difference. -/
  | swcrcCheck (romCrc : Word)
  /-- PM_REQUEST (R574). A PM_REQ change or a PWR_REQ write requests a power state. -/
  | pmRequest (byReg : Option Origin) (st : BitVec 2)
  /-- WAKE (R591). A WAKE command requests the named state in SLEEP. -/
  | wake (from_ : Side) (st : BitVec 8)
  /-- COMPARATOR_TRIP (R581). DEBOUNCE samples beyond THR trip a comparator, which takes its actions. -/
  | comparatorTrip (cmp : Fin 16) (value : Word)
  /-- COMPARATOR_CLEAR (R581). DEBOUNCE samples past the hysteresis clear a comparator. -/
  | comparatorClear (cmp : Fin 16) (value : Word)
  /-- COMPARATOR_ENABLE (R583). A write of PWR[sel].CMPEN enables or disables a comparator. -/
  | comparatorEnable (o : Origin) (on : Bool)
  /-- POWER_ON_RESET (R589). The aggregator is released from power-on reset, reads its straps and starts. -/
  | powerOnReset (strapG : BitVec 6) (strapT : BitVec 6) (sideB : Bool)
  /-- PAIRHELLO_RECEIVE (R590). A side receives its partner's HELLO and completes or fails the handshake. -/
  | pairhelloReceive (i : FleetIn) (h : Hello)
  /-- PAIRUP (R591). A die unit holding both PAIRUP halves verifies the certificate and completes the handshake. -/
  | pairup (from_ : Side) (u : PairUp)
  /-- SELECT_WRITE (R45). A write of a select register changes the writing port's selection, or is refused. -/
  | selectWrite (p : Part) (o : Origin) (ofs : BitVec 25) (value : Word)
  /-- READ_CLEAR (R19). A read of an RC register returns its value and clears it. -/
  | readClear (p : Part) (o : Origin) (ofs : BitVec 25) (size : Nat)
  /-- LOW_HALF_READ (R22). A read of the low half of a register pair latches the high half. -/
  | lowHalfRead (p : Part) (o : Origin) (ofs : BitVec 25) (size : Nat)
  /-- REGISTER_WRITE (R19). A write to a register with no row of its own takes effect under its access type and is
  audited. -/
  | registerWrite (p : Part) (o : Origin) (ofs : BitVec 25) (size : Nat) (value : Word)
  /-- CAPTURE_EDGE (R95). At each capture edge the tap fabric samples every tap, and the general and production
  counters change under their modes. -/
  | captureEdge (t : Taps)
  /-- OVERTEMP (R614). The reported junction temperature rises above 105 °C, so the aggregator sets
  HLT_AGGERR.OVERTEMP and raises an ALARM. -/
  | overtemp (celsius : BitVec 8)
  /-- B_PASS_END (R31). The B pass of enumeration reaches aggregator A, and the enumeration completes, so the port
  leaves SPLIT or MISWIRED. -/
  | bPassEnd (port : Fin 8) (e : EnumMsg)
  /-- FENCE_REQUEST (R297). An aggregator receives a die unit's request for a missing fence and sends that fence
  again. -/
  | fenceRequest (die : Fin 256) (wgid : BitVec 12) (gen fseq : Word)
  /-- PARTITION_RESET_END (R510). A partition reset completes 1 µs to 4 µs after it began, and a latch deferred into
  the reset takes place with LATE. -/
  | partitionResetEnd (p : Part) (part : Fin 7) (lateNs : Nat)
  /-- FLEET_FRAME_DISCARD (R396). A fleet port receives a frame that is discarded and counted: PAUSE, LLDP, a bad
  header, a foreign DEST, a full pool or a record class. -/
  | fleetFrameDiscard (port : Fin 8) (why : DiscardWhy)
  /-- PTP_RETURN (R64). The host time port has shown LOCKED conditions for 1 s, so the aggregator returns to it from
  PTP. -/
  | ptpReturn
  /-- LATCH_CLOCK_DECISION (R79). At t0 − 64 ns, AON chooses the latch clock for the epoch. -/
  | latchClockDecision
  /-- HOST_CLOCK_LOSS (R79). No capture edge arrives for 32 ns, so loss of host clock is asserted. -/
  | hostClockLoss
  /-- CLKSTOP_LATCH (R80). No capture edge arrives by t0 + 4.5 ns, so the latch takes the next AON edge and marks
  CLKSTOP. -/
  | clkstopLatch
  /-- CONDITION_SWEEP (R268). At each whole second, ALERT entries older than the window are freed. -/
  | conditionSweep
  /-- MARGIN_REQUEST (R270). A changed requested level is sent on the margin port once no request is outstanding. -/
  | marginRequest
  /-- MARGIN_TIMEOUT (R272). A margin request has no answer after WIT_MACKTO and counts as refused. -/
  | marginTimeout
  /-- HEALTH_RECORD (R285). The die unit sends a HEALTH record for a change of score, verdict or hard flags. -/
  | healthRecord
  /-- VERDICT_DOWNHOLD (R283). A lower verdict has held for HLT_DOWNHOLD ms, so the computed verdict moves down. -/
  | verdictDownhold
  /-- NOVOTE_EXPIRE (R280). The last NOVOTE leaves the HLT_NVWIN window, and its contribution ends. -/
  | novoteExpire
  /-- HOST_FATAL (R284). HF_FATAL has been asserted for 1 µs, so HOSTFATAL is raised. -/
  | hostFatal
  /-- TRAY_BEAT (R302). Each tray side sends TRAY_BEAT every 100 µs. -/
  | trayBeat
  /-- PARTNER_LOST (R326). A side hears no TRAY_BEAT from its partner for 300 µs, sets PAIRDEG and runs the tray
  alone. -/
  | partnerLost
  /-- GROUP_BEAT (R302). Group-root sides send GROUP_BEAT every 100 µs. -/
  | groupBeat
  /-- SWEEP_STEP (R322). A sweep period ends, and the pair demands the next margin levels. -/
  | sweepStep
  /-- HANG_ASSEMBLY (R444). At each assembly instant, each tray assembler contracts its wait-for graph and sends
  TRAYGRAPH. -/
  | hangAssembly
  /-- COLLECTION_CLOSE (R444). Collection closes at ta + 150 µs, and the decider queries the exit targets. -/
  | collectionClose
  /-- ALARM_HELD_COMMIT (R615). Room frees, and held ALARM records are committed in ascending TYPE. -/
  | alarmHeldCommit
  /-- JOURNAL_WRITE (R347). A journal write completes, the record is journaled and JSEQ advances. -/
  | journalWrite
  /-- JSTATE (R399). Each side sends its journal state to its partner every 50 µs. -/
  | jstate
  /-- SEAL (R362). An aggregator commits the signed SEAL of each 100 ms block. -/
  | seal
  /-- POWER_FAIL_WARNING (R359). PFW_N low for 1 µs starts the power-fail sequence: POWERFAIL, drain and flush. -/
  | powerFailWarning
  /-- POWERFAIL (R591). A die unit receives POWERFAIL and refuses RECORD and BULK records. -/
  | powerfail
  /-- FLASH_FLUSH (R359). At tp + 4.0 ms, the seal state and the undelivered stream entries are flushed to flash. -/
  | flashFlush
  /-- FLUSH_COMPLETE (R359). The flash flush completes. -/
  | flushComplete
  /-- POWER_FAIL_RECOVERY (R593). PFW_N has been high for 10 ms after the flush, so the aggregator takes a system
  reset. -/
  | powerFailRecovery
  /-- BEAT (R379). A die unit sends a BEAT toward each head every RACE_BEATPER µs. -/
  | beat
  /-- QUEUE_SAMPLE (R412). Every 1 µs the Sluice samples queue depth and head delay, and copies them at each epoch
  instant. -/
  | queueSample
  /-- DRAIN_HALT (R427). A drain write fails, so the drain channel halts and every stream stops. -/
  | drainHalt
  /-- TOKEN_VERIFIED (R429). The Ladle completes the token check: valid or TOKBAD. -/
  | tokenVerified
  /-- TOKEN_EXPIRY (R432). The token leaves force, and the session it governs ends. -/
  | tokenExpiry
  /-- WAITFOR_REPORT (R440). A change of edge set, or the WFG_RPTPER period, commits a WAITFOR record. -/
  | waitforReport
  /-- FRAME_VERIFY (R466). The aggregator decodes a queued compressed record and raises FLMBAD on an error. -/
  | frameVerify
  /-- HISTORY_FLUSH (R488, R489). Unflushed event entries are written to the flash history; `ok`: the write succeeds. -/
  | historyFlush (ok : Bool)
  /-- AUDIT_FLASH_WRITE (R547). An aggregator writes audit entries to its flash trail; `ok`: the write succeeds. -/
  | auditFlashWrite (ok : Bool)
  /-- CRUCIBLE_READING (R559). At each multiple of RPER, a signed reading is made and sent on CRLINK. -/
  | crucibleReading
  /-- READING_REPEAT (R559). The reading is sent on CRLINK a second time 10 ms later. -/
  | readingRepeat
  /-- CRLINK_LIVE (R565). The Crucible sends a LIVE frame every millisecond. -/
  | crlinkLive
  /-- CRLINK_IDENT (R565). The Crucible sends an IDENT frame every second. -/
  | crlinkIdent
  /-- LOG_RESEND (R563). The Crucible resends one log entry per millisecond in a 1,024 ms cycle. -/
  | logResend
  /-- CRUCIBLE_POWERDOWN (R563). The supply monitor trips, and the Crucible saves its state and logs POWERDOWN. -/
  | cruciblePowerdown
  /-- POWER_TRANSITION_DONE (R574). A power-state transition completes, PM_ACK updates and PWRSTATE is committed. -/
  | powerTransitionDone
  /-- HOSTOFF_DRAIN (R577). The HOSTOFF drain ends or PWR_DRAINTO passes, and the LNK island powers off. -/
  | hostoffDrain
  /-- LADLE_IDLE (R579). LAD powers off PWR_LADIDLE µs after its last request. -/
  | ladleIdle
  /-- DIE_POWER_UP (R588). The die unit's AON island powers up in UNSET and starts up. -/
  | diePowerUp
  /-- DIE_POWER_LOSS (R586). The AON supply leaves range, and everything restarts. -/
  | diePowerLoss
  /-- DIE_UNIT_RESET (R586). KZ_RST_N low resets every die-unit partition together. -/
  | dieUnitReset
  /-- HOST_RESET (R602). HOST_RST_N low flushes side H of every mailbox channel. -/
  | hostReset
  /-- MANAGEMENT_RESET (R478). MC_RST_N signals a management controller reset for side H of the aggregator. -/
  | managementReset
  /-- SYSTEM_RESET (R587). SYS_RST_N low resets CORE, CLUSTER, SCORE and LINK together. -/
  | systemReset
  /-- PCIE_RESET (R587). PERST_N low resets the PCIe interface only. -/
  | pcieReset
  /-- PAIRHELLO (R590). Each side sends PAIRHELLO every 1 ms until the handshake completes. -/
  | pairhello
  /-- PAIR_TIMEOUT (R590). No partner HELLO for GLB_PAIRTO ms, so the side proceeds alone. -/
  | pairTimeout
  /-- FLEET_JOIN (R592). A side meets the join conditions, fixes its address and starts beats, claims and forwarding.
  -/
  | fleetJoin
  /-- AGGREGATOR_POWER_LOSS (R587). The aggregator's core supplies leave range, so everything except the Crucible
  stops and the journal is lost. -/
  | aggregatorPowerLoss
  /-- JOURNAL_READY (R589). LPDDR5X training or self-refresh exit and the flash check complete, so the journal becomes
  ready and the LOSS record is prepared. -/
  | journalReady
  /-- TOKEN_IN_FORCE (R429). The timebase reaches a valid token's NB, so the token comes into force and its PRIV grant
  applies. -/
  | tokenInForce
  /-- DIE_UNIT_RESET_RELEASE (R586). KZ_RST_N rises, and the die-unit partitions are released within 4 µs. -/
  | dieUnitResetRelease
  /-- HOST_RESET_RELEASE (R479). HOST_RST_N rises at the release of a side H reset, and side H's sender epoch advances
  modulo 256. -/
  | hostResetRelease
  /-- SYSTEM_RESET_RELEASE (R587). SYS_RST_N rises, and start-up resumes at step 2 of R589 with the timebase and
  journal kept. -/
  | systemResetRelease
  deriving DecidableEq, Repr

end Sys2Proof
end

