-- ==== Sys2Proof/Config.lean ====
section
/-! DEFINITION. What one part fixes and the spec does not put a number to, and the free values. Every name here is
an opaque constant: no proof can see a value of it, so what is proved holds whatever the value is. -/

namespace Sys2Proof.Config

/-- SHA-384 of a byte string (00_scope R23; FIPS 180-4 gives the function, the spec does not).
Mark: DESIGN CHOICE (log entry 7, safe). -/
opaque sha384 : List Byte → Digest

/-- ECDSA P-384 verification: key identifier, message digest, 96 signature bytes (16 R516-R520).
Mark: DESIGN CHOICE (log entry 7, safe). -/
opaque sigValid : Nat → Digest → List Byte → Bool

/-- ECDSA P-384 signature (96 bytes, r then s) by a key over a digest (16 R542, 09 R360).
Mark: DESIGN CHOICE (log entry 7, safe). -/
opaque sign : Nat → Digest → List Byte

/-- A free value: nothing fixes it. The step applies it to the counter `fresh` of the part that draws it and
advances the counter; the three parts' counters never meet, so no two draws are tied together.
Mark: DESIGN CHOICE (log entry 3, safe). -/
opaque free : Nat → Nat

/-- Public keys that the ROM or the fuses fix, as the integer of X and Y (16 R516): 0 the operator CA, 1 the firmware
key, 2 the product CA, 3 a die unit's device key, 4 an aggregator's. Mark: DESIGN CHOICE (log entry 7, safe). -/
opaque romKey : Nat → Nat

/-- Whether a number of section bytes fits a region of the configuration RAM (16 R524, code NOSPACE): part (0 die unit,
1 aggregator), region (0 MODEL, 1 PATTERN), bytes. 15 gives the RAM's words and no region's size.
Mark: DESIGN CHOICE (log entry 14, safe). -/
opaque regionFits : Nat → Nat → Nat → Bool

/-- Fused and ROM values of a part (16 R518, R542): part (0 die unit, 1 aggregator), and 0 ISSUED of the device
certificate, 1 its SIG, 2 the bytes of the product CA certificate, 3 the ROM version, 4 the bytes of the meter key's
certificate (17 R560), 5 the silicon revision (18 R596). Mark: DESIGN CHOICE (log entry 7, safe). -/
opaque fused : Nat → Nat → Nat

/-- Which region a word of the configuration RAM lies in (15 R498, R506): part (0 die unit, 1 aggregator) and address;
0 and 1 MODEL of bank 0 and bank 1, 2 STATE, any other number PATTERN. Mark: DESIGN CHOICE (log entry 14, safe). -/
opaque cfgRegion : Nat → Nat → Nat

/-- What the retention readout shows at a word offset of the retention buffer when the bytes of the records held in it
are these (09 R344): where the records lie is not stated. Mark: DESIGN CHOICE (log entry 14, safe). -/
opaque bufAt : List Byte → Nat → Nat

/-- The longest wait at the shared port that an agent has seen when PWR_ARBMAX is read (18 R584, R585), by agent (from 0)
and by the part's counter of free values: cycles of the port are shorter than the model's clock, and no command brings a
wait. Mark: DESIGN CHOICE (log entry 3, safe). -/
opaque arbWait : Nat → Nat → Nat

/-- A 64-bit word of snapshot RAM, by word offset, that nothing has written since power-on (03 R118).
Mark: DESIGN CHOICE (log entry 3, safe). -/
opaque snapRam : Nat → Nat

end Sys2Proof.Config
end

