-- ==== Sys2Proof/Machine/Bits.lean ====
section
/-! DEFINITION. Bit fields, two's-complement readings, little-endian bytes (00_scope R18), saturating counters and
the rounding rules that several chapters share. -/

namespace Sys2Proof.Machine

/-- Bits `[hi:lo]` of a natural number. -/
def bitsOf (n hi lo : Nat) : Nat := (n >>> lo) % 2 ^ (hi + 1 - lo)

/-- Bits `[hi:lo]` of a register. -/
def fieldOf (w : Word) (hi lo : Nat) : Nat := bitsOf w.toNat hi lo

/-- Bit `k` of a register. -/
def bitAt (w : Word) (k : Nat) : Bool := w.toNat.testBit k

/-- `w` with bits `[hi:lo]` set to `v`. -/
def setFld (w : Word) (hi lo v : Nat) : Word :=
  let m := ((2 ^ (hi + 1 - lo) - 1) <<< lo)
  BitVec.ofNat 32 ((w.toNat &&& (0xFFFFFFFF ^^^ m)) ||| ((v <<< lo) &&& m))

/-- `w` with bit `k` equal to `b`. -/
def setBit (w : Word) (k : Nat) (b : Bool) : Word := setFld w k k (if b then 1 else 0)

/-- `ofs` lies in the `n` bytes from `base`. -/
def inRange (ofs base n : Nat) : Bool := decide (base ≤ ofs) && decide (ofs < base + n)

/-- 1 for true. -/
def b2n (b : Bool) : Nat := if b then 1 else 0

/-- The bits of `m` that are set, as a list of bit numbers below `n`. -/
def bitList (m n : Nat) : List Nat := (List.range n).filter fun k => m.testBit k

/-- How many of the low `n` bits of `m` are set. -/
def popCount (m n : Nat) : Nat := (bitList m n).length

/-- Two's-complement reading of the low `w` bits of `n`. -/
def sext (w n : Nat) : Int :=
  let v := n % 2 ^ w
  if 2 * v < 2 ^ w then (v : Int) else (v : Int) - (2 ^ w : Nat)

/-- The low `w` bits of an integer, as a natural number. -/
def wrapN (w : Nat) (i : Int) : Nat := (i % ((2 ^ w : Nat) : Int)).toNat

/-- An integer clamped to `w` bits, two's complement. -/
def clampS (w : Nat) (i : Int) : Int :=
  let m : Int := ((2 ^ (w - 1) : Nat) : Int)
  if i < -m then -m else if i ≥ m then m - 1 else i

/-- An integer clamped to `lo`..`hi`. -/
def clampI (lo hi i : Int) : Int := if i < lo then lo else if i > hi then hi else i

/-- A counter of `w` bits that saturates at its largest value. -/
def satN (w n : Nat) : Nat := min n (2 ^ w - 1)

/-- A 32-bit counter one further, saturating. -/
def satInc (w : Word) : Word := if w = 0xFFFFFFFF then w else w + 1

/-- A 32-bit counter `n` further, saturating. -/
def satAdd (w : Word) (n : Nat) : Word := BitVec.ofNat 32 (satN 32 (w.toNat + n))

/-- Little-endian bytes: `n` bytes of `v`, least significant first (00_scope R18). -/
def leBytes : Nat → Nat → List Byte
  | 0, _ => []
  | n + 1, v => BitVec.ofNat 8 v :: leBytes n (v / 256)

/-- The integer of bytes, least significant first (00_scope R18). -/
def leNat : List Byte → Nat
  | [] => 0
  | b :: t => b.toNat + 256 * leNat t

/-- `n` bytes of `l` from offset `o` (fewer where `l` ends). -/
def slice (l : List Byte) (o n : Nat) : List Byte := (l.drop o).take n

/-- The integer of `n` bytes of `l` at offset `o`. -/
def leAt (l : List Byte) (o n : Nat) : Nat := leNat (slice l o n)

/-- `l` filled with zero bytes up to a multiple of `n`. -/
def padTo (n : Nat) (l : List Byte) : List Byte :=
  l ++ List.replicate ((n - l.length % n) % n) 0

/-- `n` zero bytes. -/
def zeros (n : Nat) : List Byte := List.replicate n 0

/-- Floor division by a power of two of an integer (an arithmetic shift right). -/
def asr (i : Int) (n : Nat) : Int := Int.fdiv i ((2 ^ n : Nat) : Int)

/-- The element of a list at an index, or a default. -/
def nth {α : Type} (l : List α) (i : Nat) (d : α) : α := l.getD i d

/-- `l` with element `i` replaced. -/
def setNth {α : Type} (l : List α) (i : Nat) (v : α) : List α := l.set i v

/-- The last `n` elements of a list. -/
def lastN {α : Type} (n : Nat) (l : List α) : List α := l.drop (l.length - n)

/-- CRC of a bit stream, reflected form, one bit: register `c`, polynomial `p`. -/
def crcBit (p c : Nat) : Nat := if c % 2 = 1 then (c / 2) ^^^ p else c / 2

/-- CRC-32C of bytes (reflected polynomial 0x82F6_3B78), running register `c`. -/
def crc32cRun (c : Nat) : List Byte → Nat
  | [] => c
  | b :: t =>
    let x := c ^^^ b.toNat
    let p := 0x82F63B78
    crc32cRun (crcBit p (crcBit p (crcBit p (crcBit p (crcBit p (crcBit p (crcBit p (crcBit p x)))))))) t

/-- CRC-32C of bytes: initial value and final XOR all ones. -/
def crc32c (l : List Byte) : Word := BitVec.ofNat 32 (crc32cRun 0xFFFFFFFF l ^^^ 0xFFFFFFFF)

/-- CRC-8, one bit, most significant bit first, polynomial 0x07. -/
def crc8Bit (c : Nat) : Nat := if c ≥ 128 then ((c * 2) % 256) ^^^ 7 else (c * 2) % 256

/-- CRC-8 of bytes (polynomial 0x07, initial value 0), running register `c`. -/
def crc8Run (c : Nat) : List Byte → Nat
  | [] => c
  | b :: t =>
    crc8Run (crc8Bit (crc8Bit (crc8Bit (crc8Bit (crc8Bit (crc8Bit (crc8Bit (crc8Bit (c ^^^ b.toNat))))))))) t

/-- CRC-8 of bytes. -/
def crc8 (l : List Byte) : Byte := BitVec.ofNat 8 (crc8Run 0 l)

end Sys2Proof.Machine
end

