-- ==== Sys2Proof/Machine/Operands.lean ====
section
/-! DEFINITION. The operand that most commands share: the origin of an access, and what the spec reads from it: its
selection bank, its stamp, its node, its mailbox side; and the fields of a node address (01 R25, R26). -/

namespace Sys2Proof

/-- Selection bank of an origin's access port (01 R46): 0 host port or PCIe, 1 Race proxy or I3C/I2C, 2 Ladle or
control cluster. -/
def Origin.bank : Origin → Nat
  | .host _ _ _ => 0
  | .proxy _ _ => 1
  | .ladle => 2
  | .pcie => 0
  | .i3c => 1
  | .i2c => 1
  | .cluster _ => 2

/-- Sender stamp of an origin (14 R471): AGENT, PRIV, CONTEXT. -/
def Origin.stamp : Origin → Word
  | .host a p c => a ++ (if p = 0xF then (0xE : BitVec 4) else p) ++ c
  | .proxy .a _ => 0xF101F000
  | .proxy .b _ => 0xF102F000
  | .ladle => 0xF000F000
  | .pcie => 0xF200F000
  | .i3c => 0xF201F000
  | .i2c => 0xF202F000
  | .cluster k => BitVec.ofNat 32 ((0xF010 + k.val) * 65536 + 0xF000)

/-- ONODE of an origin: the fleet node that sent the request, or 0 (01 R52, 16 R543). -/
def Origin.onode : Origin → Node
  | .proxy _ n => n
  | _ => 0

/-- A host access whose agent is 0xF000 or above is refused (14 R471). -/
def Origin.refused : Origin → Bool
  | .host a _ _ => decide (a.toNat ≥ 0xF000)
  | _ => false

/-- The origin belongs to one of the part's access ports (01 R46). -/
def Origin.suits (p : Part) : Origin → Bool
  | .host _ _ _ => p == .die
  | .proxy _ _ => p == .die
  | .ladle => p == .die
  | .pcie => p == .agg
  | .i3c => p == .agg
  | .i2c => p == .agg
  | .cluster _ => p == .agg

/-- The origin is on side K of the mailboxes (14 R470). -/
def Origin.sideK : Origin → Bool
  | .ladle => true
  | .cluster _ => true
  | _ => false

/-- TRAY of an address: G and T (01 R25). -/
def trayOf (a : Node) : Nat := Machine.bitsOf a.toNat 21 10

/-- KIND of an address (01 R25). -/
def kindOf (a : Node) : Nat := Machine.bitsOf a.toNat 23 22

/-- The fields of an address that a receiver does not ignore (01 R26): no P and D of an aggregator, no spare bits.
0xFF_FFFF, which 10 R380 gives every unit of a chain, is no address with spare bits. -/
def addrEff (a : Node) : Node :=
  let k := kindOf a
  if k = 1 ∨ k = 2 then a &&& 0xFFFC00 else if a = 0xFFFFFF then a else a &&& 0xFFFFFC

/-- A field of an address that R26 ignores is not 0. -/
def addrOdd (a : Node) : Bool := decide (addrEff a ≠ a)

/-- A vote message with the ignored fields of its sender's address taken as 0 (01 R26). -/
def VoteHead.eff (h : VoteHead) : VoteHead := { h with src := addrEff h.src }

/-- A fence with the ignored fields of its addresses taken as 0 (01 R26). -/
def Fence.eff (f : Fence) : Fence := { f with subj := addrEff f.subj, rdie := addrEff f.rdie }

/-- A proposal with the ignored fields of its addresses taken as 0 (01 R26). -/
def Proposal.eff (p : Proposal) : Proposal := { p with subj := addrEff p.subj, rdie := addrEff p.rdie }

end Sys2Proof
end

