-- ==== Sys2Proof/Machine/Table.lean ====
section
/-! DEFINITION. Sparse tables of plain data, keyed by a natural number: an association list whose keys rise
strictly. Registers, counters, journal entries and every other store with many places are held in this form, so
that equal contents are equal data. -/

namespace Sys2Proof.Machine

/-- A sparse table: pairs of key and value, keys strictly rising. -/
abbrev Tab (α : Type) := List (Nat × α)

/-- The value at key `k`, if one is held. -/
def Tab.find {α : Type} (k : Nat) : Tab α → Option α
  | [] => none
  | (j, v) :: t => if j = k then some v else if k < j then none else Tab.find k t

/-- The value at key `k`, or `d` where none is held. -/
def Tab.getD {α : Type} (t : Tab α) (k : Nat) (d : α) : α := (Tab.find k t).getD d

/-- Hold `v` at key `k`. -/
def Tab.put {α : Type} (k : Nat) (v : α) : Tab α → Tab α
  | [] => [(k, v)]
  | (j, w) :: t =>
    if j = k then (k, v) :: t else if k < j then (k, v) :: (j, w) :: t else (j, w) :: Tab.put k v t

/-- Hold nothing at key `k`. -/
def Tab.del {α : Type} (k : Nat) : Tab α → Tab α
  | [] => []
  | (j, w) :: t => if j = k then t else if k < j then (j, w) :: t else (j, w) :: Tab.del k t

/-- Store `v` at key `k` of a table whose unlisted keys read `d`: the default is stored as nothing. -/
def Tab.set {α : Type} [DecidableEq α] (d : α) (k : Nat) (v : α) (t : Tab α) : Tab α :=
  if v = d then Tab.del k t else Tab.put k v t

/-- Change the value at key `k`, reading `d` where none is held. -/
def Tab.modify {α : Type} (d : α) (k : Nat) (f : α → α) (t : Tab α) : Tab α :=
  Tab.put k (f (Tab.getD t k d)) t

/-- The values held, in the order of their keys. -/
def Tab.vals {α : Type} (t : Tab α) : List α := t.map Prod.snd

/-- Keys rise strictly. -/
def Tab.wf {α : Type} : Tab α → Bool
  | [] => true
  | (k, _) :: t => t.all (fun p => decide (k < p.1)) && Tab.wf t

/-- The first key not below `n` at which nothing is held, searched over `fuel` keys. -/
def Tab.freeFrom {α : Type} (t : Tab α) (n : Nat) : Nat → Option Nat
  | 0 => none
  | fuel + 1 => if (Tab.find n t).isNone then some n else Tab.freeFrom t (n + 1) fuel

end Sys2Proof.Machine
end

