-- ==== Sys2Proof/Machine/PartsScore.lean ====
section
/-! DEFINITION. The state of the pattern store (16_pattern_trust) and of the scoring island (05_riddle_trees,
06_dense_drift), which the die unit and the aggregator have alike. Plain data throughout. -/

namespace Sys2Proof.Machine

/-- A section of a pattern: SVER and its bytes (16 R522, R527). -/
structure Section where
  sver : Nat
  bytes : List Byte
  deriving DecidableEq, Repr

/-- A container being received or verified (16 R532-R534). -/
structure Loading where
  /-- TOTLEN announced. -/
  len : Nat
  /-- LOADID, for a load over the Race. -/
  race : Option Nat
  /-- Bytes held, by offset. -/
  chunks : Tab (List Byte)
  /-- A chunk was refused, or END found the load incomplete: the load ends as FORMAT. -/
  bad : Bool
  /-- Requester (16 R543). -/
  stamp : Word
  onode : Node
  deriving DecidableEq, Repr

/-- Verified content that waits for its main latch (16 R532). -/
structure Content where
  /-- An INSERT; otherwise a full PATTERN. -/
  insert : Bool
  arb : Nat
  /-- EFFEPN; 0 the next main latch. -/
  eff : Nat
  /-- SHA-384 of the signed bytes. -/
  digest : Digest
  /-- Sections by STYPE. -/
  secs : Tab Section
  stamp : Word
  onode : Node
  /-- OWNERID of the signer's certificate, when the container carries one. -/
  signer : Option Nat
  deriving DecidableEq, Repr

/-- A firmware bank (16 R536): none where no valid image stands. -/
structure FwImage where
  svn : Nat
  stv : Nat
  /-- SHA-384 of the container's signed bytes. -/
  digest : Digest
  deriving DecidableEq, Repr

/-- Firmware of the part: the Ladle's, or the control cluster's (16 R536-R538). -/
structure Firmware where
  bank0 : Option FwImage
  bank1 : Option FwImage
  /-- 0, 1, or 2 the base image. -/
  active : Nat
  /-- The inactive bank is verified. -/
  verified : Bool
  reverted : Bool
  fuse : Nat
  /-- A swap waits for the Ladle's idle point; the instant of the write (oscillator count). -/
  swapAt : Option Nat
  /-- Firmware started at this oscillator count and has not yet declared itself healthy. -/
  startAt : Option Nat
  /-- Bank to return to if it does not. -/
  previous : Nat
  deriving DecidableEq, Repr

/-- Pattern, owner and loads (16). -/
structure Pat where
  /-- Sections in force but for the banked ones (STYPE 3-7). -/
  secs : Tab Section
  /-- M in force; none when no pattern is. -/
  meas : Option Digest
  arb : Nat
  insgen : Nat
  /-- Anti-rollback floor of the part's own target, and an aggregator's D floor. -/
  arbMin : Nat
  arbMinD : Nat
  /-- OWNERID bound. -/
  owner : Option Nat
  /-- The bound owner's certificate. -/
  cert : List Byte
  /-- The pattern in force has an owner taken from its certificate (R520). -/
  provisional : Bool
  foreign : Bool
  /-- OWNERID of the pattern in force. -/
  patOwner : Option Nat
  loading : Option Loading
  verifying : Option Loading
  pending : Option Content
  /-- PAT_STAT.RESULT. -/
  result : Nat
  fw : Firmware
  /-- Aggregator: D pattern and its chain of inserts kept in flash, and its measurement (R535). -/
  dstore : List (List Byte)
  dmeas : Option Digest
  deriving DecidableEq, Repr

/-- One bank of a model set (05 R168, 06 R217): its sections, and the first store entry of each slot's ensemble. -/
structure Bank where
  secs : Tab Section
  base : Tab Nat
  deriving DecidableEq, Repr

/-- A raw item that a feature or a metric reads at a latch or an entry (05 R170). -/
inductive Raw where
  /-- A 64-bit item. -/
  | num (x : Nat)
  /-- A sensor entry of 03 R112. -/
  | sensor (value : Word) (fmt : Nat) (valid : Bool) (age : Nat)
  /-- Invalid, with the reason of 05 R175. -/
  | absent (reason : Nat)
  /-- A ratio of two features. -/
  | ratio
  /-- Kept from the last main vector. -/
  | kept
  deriving DecidableEq, Repr

/-- A converted and encoded feature (05 R171-R178). -/
structure FeatVal where
  /-- Value, 32 bits; 0 when missing. -/
  value : Nat
  code : Nat
  miss : Bool
  fsat : Bool
  reason : Nat
  deriving DecidableEq, Repr

/-- What a vector's latch or entry gives its verdicts (05 R201, R202). -/
structure VecHead where
  epn : Nat
  fepn : Nat
  time : Nat
  tq : Nat
  clkstop : Bool
  step : Bool
  partialRun : Bool
  /-- Image of the main, of the fast epoch skipped. -/
  noMain : Bool
  noFast : Bool
  scopea : Nat
  deriving DecidableEq, Repr

/-- A feature vector (05 R170, R179). -/
structure Vec where
  id : Nat
  bank : Nat
  isMain : Bool
  isFast : Bool
  head : VecHead
  raws : List Raw
  /-- Empty until the features are ready. -/
  feats : List FeatVal
  ready : Bool
  deriving DecidableEq, Repr

/-- A tree or dense job (05 R193, 06 R228). -/
structure Job where
  vec : Nat
  slot : Nat
  /-- 0 main, 1 fast, 2 plan entry. -/
  kind : Nat
  /-- Bank whose ensemble or model it runs (05 R205). -/
  bank : Nat
  deriving DecidableEq, Repr

/-- Weir state (05 R198): ABOVE, rising and falling counts for i = 1 to 3. -/
structure Weir where
  above : List Bool
  rc : List Nat
  fc : List Nat
  deriving DecidableEq, Repr

/-- An ensemble slot, or an output of a dense slot, between verdicts. -/
structure SlotSt where
  weir : Weir
  /-- The next verdict carries RESTART, SWAPPED, PREVOVERRUN. -/
  restart : Bool
  swapped : Bool
  prevOver : Bool
  /-- WEIRCTL.RESET written (05 R200). -/
  wreset : Bool
  /-- A verdict since the Weir state last cleared (05 R216). -/
  valid : Bool
  /-- VFLAGS and raw level of the last verdict. -/
  vflags : Nat
  rawLevel : Nat
  score : Int
  epn : Nat
  /-- Level given to the health unit. -/
  level : Nat
  /-- Last y of a dense output. -/
  y : Int
  /-- The state is still that of the same slot of the other bank, which its last verdicts may yet change (05 R209). -/
  carry : Bool
  deriving DecidableEq, Repr

/-- A tree verdict kept for the dense outputs that join it (06 R226). -/
structure Partner where
  vec : Nat
  slot : Nat
  /-- VFLAGS. -/
  flags : Nat
  score : Int
  level : Nat
  /-- The job was dropped: no verdict (06 R227). -/
  dropped : Bool
  deriving DecidableEq, Repr

/-- Outputs of a dense job whose verdict waits for its partners (06 R227). -/
structure DenseWait where
  job : Job
  /-- y of each output with its SAT, and the flags common to all. -/
  ys : List (Int × Bool)
  qsat : Bool
  imputed : Bool
  fsat : Bool
  miss : Nat
  storeErr : Bool
  deriving DecidableEq, Repr

/-- Damage of a tree store entry: bits of VALUE, CARE and VALID, and parity bits, that differ from what the loader wrote
(05 R210). -/
structure StoreErr where
  value : BitVec 160
  care : BitVec 160
  valid : Bool
  par : BitVec 2
  deriving DecidableEq, Repr

/-- The scoring island (05, 06). -/
structure Score where
  bank0 : Bank
  bank1 : Bank
  /-- Active bank. -/
  active : Nat
  shadowValid : Bool
  /-- Pending swap: the armed epoch (05 R204). -/
  swap : Option Nat
  /-- Swaps since the pattern was loaded. -/
  swapn : Nat
  /-- A swap armed while the pending one's epoch has fired and its latch is still to come (05 R204, R206). -/
  swapNext : Option Nat
  /-- Banks damaged by a memory error, those of them with a lost word of the MODEL region, and leaf words lost (15 R506). -/
  damaged : List Nat
  lostModel : List Nat
  badLeaf : List Nat
  storeErr : Tab StoreErr
  /-- Next entry of the scrubber (05 R210). -/
  scrub : Nat
  nextVec : Nat
  vecs : List Vec
  /-- Last main vector's features, by bank (05 R170). -/
  mainFeats : Tab (List FeatVal)
  /-- Aggregator: results that features named and that had not completed by the trigger (05 R174, R212 LATEVAL). -/
  awaited : List RdxKey
  /-- Last vector's features and EPN (RDL registers). -/
  lastFeats : List FeatVal
  lastEpn : Nat
  trees : Tab SlotSt
  /-- Tree jobs begun whose verdicts are still to come, oldest first: each but the last has issued its last tree (05 R193). -/
  runTree : List Job
  treeQ : List Job
  partners : List Partner
  /-- Dense outputs: key 16 × slot + output. -/
  outs : Tab SlotSt
  runDense : Option Job
  denseQ : List Job
  waits : List DenseWait
  /-- EPN of the last verdict of each dense slot, by 256 × bank + slot. -/
  denseEpn : Tab Nat
  /-- Instants that fired before the SCO island was ready and whose latches are still to come (18 R575). -/
  skip : Nat
  deriving DecidableEq, Repr

/-- A drift metric (06 R237, R247). -/
structure Metric where
  /-- 0 EMPTY, 1 CAL, 2 SET. -/
  bstate : Nat
  e : Int
  bband : Nat
  calcnt : Nat
  sp : Int
  sn : Int
  drift : Bool
  up : Bool
  down : Bool
  ext : Bool
  msat : Bool
  lband : Nat
  last : Int
  /-- REBASE waits for the next update. -/
  rebase : Bool
  deriving DecidableEq, Repr

/-- A drift change entry (06 R241): 16 bytes, its EXTRAPOLATED flag, and whether it travels in the ALARM class. -/
structure DriftEnt where
  bytes : List Byte
  ext : Bool
  alarm : Bool
  deriving DecidableEq, Repr

/-- The updates of one latch or entry (06 R240, R241). -/
structure Batch where
  epn : Nat
  time : Nat
  tq : Nat
  clkstop : Bool
  /-- none: void. -/
  band : Option Nat
  /-- Aggregator: the entry, whose band is found at each update (06 R236). -/
  entry : Option RdxKey
  /-- The DRIFT section of the configuration that the latch belongs to, and the states of the metrics that content replaced
  since (03 R121; 06 R242). -/
  sec : List Byte
  gone : Tab Metric
  /-- Metrics still to update, ascending, with their raw items. -/
  due : List (Nat × Raw)
  entries : List DriftEnt
  deriving DecidableEq, Repr

/-- The drift unit (06). -/
structure Drift where
  metrics : Tab Metric
  batches : List Batch
  /-- The next change record carries RESTART. -/
  restart : Bool
  /-- Band of the last update's latch: outer none before the first, inner none void. -/
  lastBand : Option (Option Nat)
  lastEpn : Nat
  deriving DecidableEq, Repr

end Sys2Proof.Machine
end

