-- ==== Sys2Proof/Machine/Parts.lean ====
section
/-! DEFINITION. The state that the die unit and the aggregator have alike, block by block: what a register alone
does not hold. Plain data throughout. -/

namespace Sys2Proof.Machine

/-- PTP servo of an aggregator (02 R63, R64; 11 R406). -/
structure Ptp where
  /-- Port and rank of the selected master. -/
  master : Option (Nat × Nat)
  /-- Timebase reading at the last Sync (t2), and the port it came on. -/
  t2 : Option (Nat × Nat)
  /-- Timebase reading at the last Delay_Req sent (t3). -/
  t3 : Option Nat
  /-- Last t2 − t1, in FRAC units, awaiting the delay. -/
  d21 : Int
  /-- One-way delay, FRAC units. -/
  delay : Int
  /-- Offset from the master, FRAC units. -/
  ofs : Int
  /-- Consecutive Sync intervals with an offset of at most 50 ns. -/
  run : Nat
  /-- Change of the offset over the last Sync interval, by which the servo expects the next (R64). -/
  rate : Int
  /-- Oscillator count since which the host time port has shown LOCKED conditions. -/
  portSince : Option Nat
  /-- Port on which the servo asks for a Delay_Req (11 R406). -/
  req : Option Nat
  deriving DecidableEq, Repr

/-- The timebase (02, "Discipline of the timebase"). Times are Krazinil time as one integer, in units of 2^-32 s. -/
structure Timebase where
  /-- Timebase reading (80 bits, 02 R53). -/
  now : Nat
  /-- Fraction of a FRAC unit that the oscillator increments have accumulated. -/
  sub : Nat
  /-- TQ code of the state (02 R57). -/
  tq : Nat
  /-- Consecutive marks within 2 ns. -/
  good : Nat
  /-- Consecutive marks beyond 200 ns. -/
  bad : Nat
  /-- Oscillator count at the last valid mark. -/
  lastMark : Option Nat
  /-- The mark instant that the last edge was taken to mark. -/
  markAt : Nat
  /-- Oscillator count at which HOLDOVER was entered. -/
  holdSince : Nat
  /-- Phase error of the last mark, FRAC units. -/
  lastPe : Int
  /-- QUAL of the last valid frame. -/
  qual : Option Nat
  /-- In UNSET: NEXT of the first valid frame and the marks left to the major mark it names (02 R58). -/
  next : Option (Nat × Nat)
  /-- Difference of the previous valid frame, when it mismatched (02 R58). -/
  mism : Option Int
  /-- A refused step, waiting for RESYNC (02 R60, R74). -/
  refused : Option Int
  /-- PTP servo; the aggregator's only. -/
  ptp : Ptp
  deriving DecidableEq, Repr

/-- An epoch instant that fired and whose latch is still to come. -/
structure Fired where
  /-- Main epoch number, when the instant is a main one. -/
  main : Option Nat
  /-- Fast epoch number, when the instant is a fast one. -/
  fast : Option Nat
  /-- Value of 02 R65 for the instant. -/
  time : Nat
  /-- The instant was passed by a step (02 R73). -/
  step : Bool
  /-- Main and fast instants counted up to this one, void ones included (03 R113 SPAN). -/
  mcnt : Nat
  fcnt : Nat
  /-- EPU and EPFU in force at the instant (02 R70). -/
  epu : Nat
  epfu : Nat
  /-- The first main instant after main epochs were off (02 R90 GAP). -/
  resumed : Bool
  deriving DecidableEq, Repr

/-- Epoch arithmetic (02, "Epochs"). -/
structure Epochs where
  /-- Main instants up to this u (10 µs units) are fired or void. -/
  um : Nat
  /-- Fast instants up to this u are fired or void. -/
  uf : Nat
  /-- The timebase has reached LOCKED, or PTP, since power-on (02 R72). -/
  started : Bool
  /-- Last main epoch number fired. -/
  lastMain : Nat
  /-- Last fast epoch number fired. -/
  lastFast : Nat
  /-- A main epoch has fired since the AON island powered up. -/
  anyMain : Bool
  /-- Main and fast instants passed since power-up, void ones included (03 R113 SPAN). -/
  mcnt : Nat
  fcnt : Nat
  /-- After a forward step: instants up to this time are caught up one by one (02 R73). -/
  catchTo : Option Nat
  /-- Oscillator count at which the next passed instant may fire. -/
  catchClk : Nat
  /-- Pending change of period: switch u, EPU, EPFU (02 R70). -/
  pend : Option (Nat × Nat × Nat)
  /-- A main instant has passed with EPEN = 0 since the last main epoch fired (02 R90). -/
  voided : Bool
  /-- Instants fired and not yet latched, oldest first. -/
  fired : List Fired
  deriving DecidableEq, Repr

/-- Trigger channels (02, "Trigger channels"): what their registers do not hold. -/
structure Trig where
  /-- Per channel: instants up to this time are fired, or were past when the channel was armed. -/
  done : Tab Nat
  /-- TRIG_OUT pulses in course, by 8 × channel + line: the oscillator count of the end (02 R92). -/
  pulse : Tab Nat
  deriving DecidableEq, Repr

/-- What a record log entry holds (09 R341, R349). -/
inductive LogBody where
  /-- A record. -/
  | rcd (r : Rec)
  /-- A void: a SEQ whose record was lost. -/
  | void (seq : Seq)
  deriving DecidableEq, Repr

/-- An entry of a retention log (09 R341). -/
structure LogEnt where
  body : LogBody
  /-- Bytes it takes. -/
  size : Nat
  /-- It lies in the spill region. -/
  spill : Bool
  deriving DecidableEq, Repr

/-- One stream that the part commits (09 R339, R340, R360). -/
structure Stream where
  /-- Next SEQ. -/
  next : Seq
  /-- A record has been committed in this series. -/
  used : Bool
  /-- Chain value C of 09 R360. -/
  chain : Digest
  /-- Records retained, oldest first. -/
  log : List LogEnt
  deriving DecidableEq, Repr

/-- A record before it has a SEQ. -/
structure Draft where
  typ : Nat
  /-- FLAGS without COMPRESSED. -/
  flags : Nat
  cls : RecClass
  time : Nat
  tq : Nat
  payload : List Byte
  /-- For an AUDIT record of an audit entry: the entry's ASEQ. -/
  aseq : Option Nat
  deriving DecidableEq, Repr

/-- Streams and what waits for room in them (09 R339-R342, R615). -/
structure Records where
  /-- Streams by class number. -/
  streams : Tab Stream
  /-- Per TYPE: the latest held ALARM record and the count it displaced (09 R615). -/
  held : Tab (Draft × Nat)
  /-- DIGEST records committed since the source took its address (09 R360). -/
  dign : Nat
  /-- RECORD and BULK records refused since the last REFUSAL (09 R338). -/
  refRec : Nat
  refBulk : Nat
  /-- Refusals continue. -/
  refusing : Bool
  /-- Main epoch number at the last REFUSAL. -/
  refEpoch : Option Nat
  /-- The POWERFAIL command is in force (18 R591). -/
  powerFail : Bool
  /-- The unit has stopped committing, on the way to HOSTOFF or in it (18 R577). -/
  off : Bool
  /-- EVENT, LINK and HEALTH records that arose in HOSTOFF and wait for the LNK island (18 R573). -/
  waiting : List Draft
  /-- Main epoch number in force at the last ALARM-class commit (13 R459). -/
  alarmEpoch : Option Nat
  /-- Generations in force, newest first: a record later than the instant carries the generation (08 R292). -/
  gens : List (Nat × Word)
  deriving DecidableEq, Repr

/-- An event entry (14 R484). -/
structure EvEntry where
  code : Nat
  /-- EFLAGS. -/
  flags : Nat
  args : List Word
  time : Nat
  delay : Nat
  stamp : Word
  sepoch : Nat
  src : Node
  supp : Nat
  nseq : Nat
  /-- TQ when TIME was taken (09 R334; not a byte of the entry). -/
  tq : Nat
  deriving DecidableEq, Repr

/-- The event recorder (14, "Event codes" to "Persistent history"). -/
structure Recorder where
  /-- Units in the bucket per code; a code not listed has a full bucket. -/
  tokens : Tab Nat
  /-- Hall-time millisecond to which the buckets have been refilled. -/
  refillMs : Nat
  /-- Held ALARM occurrences: the latest entry per code (14 R486). -/
  held : Tab EvEntry
  /-- Volatile ring, oldest first (14 R487). -/
  ring : List EvEntry
  /-- Next NSEQ. -/
  nseq : Nat
  /-- History in flash, oldest first (14 R488); the aggregator's only. -/
  history : List EvEntry
  /-- History entries not yet written. -/
  unflushed : List EvEntry
  /-- Oscillator count of the last history write. -/
  flushClk : Nat
  deriving DecidableEq, Repr

/-- An audit entry (16 R543). -/
structure AudEntry where
  aseq : Nat
  act : Nat
  gap : Bool
  time : Nat
  tq : Nat
  stamp : Word
  onode : Node
  tofs : Nat
  tidx : Nat
  oldh : Digest
  newh : Digest
  /-- 0 not committed, 1 waiting in the compressor, 2 committed. -/
  mark : Nat
  deriving DecidableEq, Repr

/-- The audit trail (16, "The audit trail"). -/
structure Audit where
  /-- Ring of the last 1,024 entries, oldest first. -/
  ring : List AudEntry
  next : Nat
  /-- The next committed entry carries GAP. -/
  gap : Bool
  /-- Flash trail, oldest first: own entries and journaled AUDIT payloads, as bytes (16 R547); the aggregator's only. -/
  flash : List (List Byte)
  /-- Trail entries not yet written to flash. -/
  pendFlash : List (List Byte)
  /-- ASEQ of the oldest and the newest own entry in flash. -/
  flashOwn : Option (Nat × Nat)
  deriving DecidableEq, Repr

/-- A held payload that a delta frame can refer to: SEQ and original payload (13 R461, R463). -/
structure FlumeRef where
  seq : Nat
  payload : List Byte
  deriving DecidableEq, Repr

/-- A record in the compression engine (13 R459-R462). -/
structure Compressing where
  draft : Draft
  /-- Level at which the pass runs. -/
  level : Nat
  /-- The level in force was forced to 0. -/
  forced : Bool
  /-- FLM_CTRL.DELTA when it began. -/
  delta : Bool
  /-- Oscillator count at which the compression began. -/
  since : Nat
  deriving DecidableEq, Repr

/-- The compression engine (13). -/
structure Flume where
  /-- Records that wait for the engine, oldest first. -/
  queue : List Draft
  /-- The record being compressed. -/
  cur : Option Compressing
  /-- Level in force of the last record begun, and whether it was forced to 0 (13 R468). -/
  lastLevel : Nat
  lastForced : Bool
  /-- Per TYPE: SEQ and original payload of the last committed SNAPMAIN or SNAPFAST record (13 R461). -/
  refs : Tab FlumeRef
  /-- Per TYPE: records committed from the last key frame onward, that one included; 0 none (13 R462). -/
  keys : Tab Nat
  /-- Aggregator: frames that wait for verification (13 R466). -/
  vqueue : List Rec
  /-- Aggregator: references per (SRC, TYPE): key 256 × SRC + TYPE; SEQ and payload (13 R463). -/
  vrefs : Tab FlumeRef
  /-- Original bytes offered and bytes stored (FLM_IN, FLM_OUT). -/
  inBytes : Nat
  outBytes : Nat
  deriving DecidableEq, Repr

/-- An entry of a correctable-error table (15 R501). -/
structure CeEnt where
  addr : Nat
  synd : Nat
  count : Nat
  remapped : Bool
  ue : Bool
  deriving DecidableEq, Repr

/-- An entry of a merge buffer (15 R504): the word's address and the bytes that are valid. -/
structure MergeEnt where
  addr : Nat
  bytes : List (Option Byte)
  deriving DecidableEq, Repr

/-- Protection state of one memory (15 R500-R506). -/
structure MemSt where
  /-- The correctable-error table, 8 places. -/
  ce : List (Option CeEnt)
  /-- The 4 remap words: the address each stands for. -/
  remap : List (Option Nat)
  /-- Next address to scrub. -/
  scrub : Nat
  lastUe : Option (Nat × Nat)
  merge : List MergeEnt
  deriving DecidableEq, Repr

/-- Protection of internal memories (15). -/
structure Ras where
  /-- Stored words that differ from their codeword: the 39-bit difference, by 2^24 × memory + address. -/
  err : Tab (BitVec 39)
  mems : Tab MemSt
  /-- Armed flip: mask and memory (R512). -/
  flip : Option (BitVec 39 × Nat)
  /-- Oscillator counts of the partition resets of the last second (R511). -/
  resets : List Nat
  /-- Corrected words whose write-back waits: memory and address (R500). -/
  wb : List (Nat × Nat)
  /-- Oscillator count at which a DMA channel halted (R509). -/
  dmaAt : Tab Nat
  deriving DecidableEq, Repr

/-- A queued mailbox word (14 R470-R472): its stamp, and the sender epoch at its push. -/
structure MbxWord where
  word : Word
  stamp : Word
  epoch : Nat
  deriving DecidableEq, Repr

/-- One side of a channel (14 R470-R477, R492, R493). -/
structure MbxSide where
  cfg : Word
  timeout : Word
  mask : Word
  flags : Word
  dropcnt : Word
  fullcnt : Word
  dbcnt : Word
  tocnt : Word
  /-- Inbound queue, oldest first. -/
  queue : List MbxWord
  /-- Doorbell bits received, and the oscillator count at which each was set. -/
  db : Tab Nat
  /-- Bits set by this side and not cleared, with the oscillator count of each set. -/
  pend : Tab Nat
  /-- A timeout has fired in this period of nonzero PEND. -/
  fired : Bool
  /-- Sender epoch of the last word read. -/
  lastEpoch : Option Nat
  deriving DecidableEq, Repr

/-- A mailbox channel. -/
structure MbxChan where
  h : MbxSide
  k : MbxSide
  deriving DecidableEq, Repr

/-- The mailboxes (14). -/
structure Mbx where
  chans : Tab MbxChan
  epochH : Nat
  epochK : Nat
  /-- A side is in reset. -/
  resetH : Bool
  resetK : Bool
  /-- MB_WAKE of a die unit, MB_WAKE_N of an aggregator, is asserted. -/
  wake : Bool
  deriving DecidableEq, Repr

/-- A frame that waits at an output port (10 R373). -/
structure RaceWait where
  cls : Nat
  units : Nat
  out : Out
  /-- Port at which a frame in transit arrived; none for a frame that this port originates. -/
  src : Option Nat
  deriving DecidableEq, Repr

/-- A Race port (10 R369-R373, R382, R386, R389). -/
structure RacePort where
  /-- 0 DOWN, 1 TRAINING, 2 UP. -/
  state : Nat
  gen : Nat
  /-- Training step, and the oscillator count of its start or of the last retry. -/
  step : Nat
  since : Nat
  peerAgg : Bool
  peer : Node
  /-- Generations the peer supports. -/
  gens : Nat
  /-- Epoch of the open runner window; an own ALARM frame started in it. -/
  window : Option Nat
  started : Bool
  /-- Credits held by class, and the oscillator count of the last credit word, or of the frame from which credits are
  owed. -/
  cred : List Nat
  credAt : Nat
  /-- Frames that wait for credits or for the end of a window; own frames that a window holds (R382): class, bytes. -/
  wait : List RaceWait
  held : List (Nat × Nat × Out)
  /-- Consecutive frames received with a wrong HCHK or trailer (R386). -/
  bad : Nat
  deriving DecidableEq, Repr

/-- Race link of a part (10). -/
structure Race where
  ports : Tab RacePort
  /-- SETGEN received or issued: generation and switch instant, by port (a die unit's one chain at 0). -/
  setgen : Tab (Nat × Nat)
  /-- Chain generation in force, by port; kept in AON. -/
  gen : Tab Nat
  /-- Switch instant of the last SETGEN that a port has carried out (R367). -/
  switched : Tab Nat
  /-- Ports whose retrain of R367 failed: they train at Race-1 (R368). -/
  genFail : List Nat
  /-- Oscillator count at which a port last went DOWN by itself (R388). -/
  fell : Tab Nat
  /-- Die unit: LEN of its chain, from ENUM; 0 unknown. -/
  len : Nat
  /-- Die unit in MISWIRED: the address that the A pass gives it (01 R32). -/
  cand : Option Node
  /-- Die unit: an A pass has come by since the last B pass (01 R31, R34). -/
  apass : Bool
  deriving DecidableEq, Repr

/-- An operator command that waits: its bytes, and the stamp, node and port that it came with (16 R537, R539). -/
structure OpWait where
  bytes : List Byte
  stamp : Word
  onode : Node
  port : Bool
  deriving DecidableEq, Repr

/-- Attestation and operator commands of a part (16 R540, R542, R549). -/
structure Sec where
  /-- Accepted pairs (ISSUE, NONCE), with the oscillator count of their acceptance. -/
  seen : List (Nat × Nat × Nat)
  /-- Read buffer. -/
  buf : List Byte
  ready : Bool
  /-- Nonce of the report being produced. -/
  nonce : Option (List Byte)
  /-- RESULT of the last operator command. -/
  result : Nat
  /-- Commands that wait while the control cluster restarts (16 R537). -/
  waiting : List OpWait
  deriving DecidableEq, Repr

/-- What the die unit and the aggregator have alike. -/
structure Unit where
  /-- Which part this is. -/
  kind : Part
  /-- Own node address, and whether one is held (01 R36, R37). -/
  node : Node
  nodeOk : Bool
  /-- Oscillator edges of 4 ns since power-up (02, "Discipline of the timebase"). Log entry 4. -/
  clk : Nat
  /-- Free values drawn so far. Log entry 3. -/
  fresh : Nat
  /-- Outputs driven, oldest first. Log entry 2. -/
  out : List Out
  /-- Registers that differ from their reset value: key offset + 2^25 × instance (00_scope R19). -/
  regs : Tab Word
  /-- Selections per access port: key offset of the select register + 2^25 × port (01 R46). -/
  sel : Tab Nat
  /-- Latched halves and words, by the key of the register that reads them (00_scope R22, 02 R54). -/
  latch : Tab Word
  /-- Answer to the last read (19 R603). -/
  resp : BitVec 64
  tb : Timebase
  ep : Epochs
  trg : Trig
  recs : Records
  evr : Recorder
  aud : Audit
  flm : Flume
  pat : Pat
  sco : Score
  drf : Drift
  ras : Ras
  mbx : Mbx
  race : Race
  secu : Sec
  deriving DecidableEq, Repr

end Sys2Proof.Machine
end

