-- ==== Sys2Proof/Machine/Regs.lean ====
section
/-! DEFINITION. The registers of the part: a name for every offset, and the register table with each register's
access type, the bits a write reaches, its reset value and the parts that have it. Written from the register
tables of spec/ (R47, R89, R126, R129, R166, R212, R214, R243, R245, R277, R327, R330, R363, R364, R388, R413,
R415, R447, R448, R450, R451, R468, R492, R494, R514, R548-R550, R568, R594, R596). Offsets are byte offsets in
the die unit window and in BAR0 (01, "Register spaces"). -/

namespace Sys2Proof.Machine

/-- The access types of 00_scope R19. -/
inductive Access where
  | rw | ro | wo | w1c | w1s | rc | rwl
  deriving DecidableEq, Repr

/-- One line of the register tables: `cnt` registers at `ofs`, `ofs + 4`, ... of one access type. -/
structure RegRow where
  /-- Byte offset of the first register. -/
  ofs : Nat
  /-- How many registers of the same description follow one another. -/
  cnt : Nat
  /-- Access type (00_scope R19). -/
  acc : Access
  /-- The bits a write stores (or clears, for W1C); other bits are reserved, read-only or self-clearing. -/
  mask : Nat
  /-- Reset value. -/
  rst : Nat
  /-- The register acts on the instance that the block's select register names (01 R45). -/
  win : Bool
  /-- The die unit has it. -/
  die : Bool
  /-- The aggregator has it. -/
  agg : Bool
  /-- A read latches the other half or the further words of a value (00_scope R22, 02 R54). -/
  low : Bool
  /-- A write of it is a change of configuration (00_scope R23 and the register chapters). -/
  aud : Bool
  deriving DecidableEq, Repr

namespace Reg

/-- GLB_NODEADDR, RO, R47. -/
abbrev glbNodeaddr : Nat := 0x100
/-- GLB_ADDRDUP, RC, R47. -/
abbrev glbAddrdup : Nat := 0x104
/-- GLB_ADDRFMT, RC, R47. -/
abbrev glbAddrfmt : Nat := 0x108
/-- GLB_ACCERR, RC, R47. -/
abbrev glbAccerr : Nat := 0x10C
/-- GLB_STRAPS, RO, R47. -/
abbrev glbStraps : Nat := 0x110
/-- GLB_ROLECFG, RW, R47. -/
abbrev glbRolecfg : Nat := 0x114
/-- GLB_ROLESTAT, RO, R47. -/
abbrev glbRolestat : Nat := 0x118
/-- GLB_GTERM, RO, R47. -/
abbrev glbGterm : Nat := 0x11C
/-- GLB_STERM, RO, R47. -/
abbrev glbSterm : Nat := 0x120
/-- GLB_CHAINSTAT, RO, R47. -/
abbrev glbChainstat : Nat := 0x124
/-- GLB_CHAINLAST, RO, R47. -/
abbrev glbChainlast : Nat := 0x128
/-- GLB_PXSLOT0–15, RW, R47. -/
abbrev glbPxslot : Nat := 0x140
/-- GLB_PXSTAT, W1C, R47. -/
abbrev glbPxstat : Nat := 0x180
/-- TIM_SEL, RW, R89. -/
abbrev timSel : Nat := 0x1000
/-- TIM_CTRL, RW, R89. -/
abbrev timCtrl : Nat := 0x1004
/-- TIM_STAT, RO, R89. -/
abbrev timStat : Nat := 0x1008
/-- TIM_ERR, W1C, R89. -/
abbrev timErr : Nat := 0x100C
/-- TIM_NOWF, RO, R89. -/
abbrev timNowf : Nat := 0x1010
/-- TIM_NOWS0, RO, R89. -/
abbrev timNows0 : Nat := 0x1014
/-- TIM_NOWS1, RO, R89. -/
abbrev timNows1 : Nat := 0x1018
/-- TIM_PHERR, RO, R89. -/
abbrev timPherr : Nat := 0x101C
/-- TIM_FREQ, RO, R89. -/
abbrev timFreq : Nat := 0x1020
/-- TIM_STEPCNT, RC, R89. -/
abbrev timStepcnt : Nat := 0x1024
/-- TIM_OUTLIER, RC, R89. -/
abbrev timOutlier : Nat := 0x1028
/-- TIM_EP, RO, R89. -/
abbrev timEp : Nat := 0x1030
/-- TIM_EPF, RO, R89. -/
abbrev timEpf : Nat := 0x1034
/-- TIM_EPNEXT, RW, R89. -/
abbrev timEpnext : Nat := 0x1038
/-- TIM_EPFNEXT, RW, R89. -/
abbrev timEpfnext : Nat := 0x103C
/-- TIM_EPSWUL, RW, R89. -/
abbrev timEpswul : Nat := 0x1040
/-- TIM_EPSWUH, RW, R89. -/
abbrev timEpswuh : Nat := 0x1044
/-- TIM_EPSWCTL, RW, R89. -/
abbrev timEpswctl : Nat := 0x1048
/-- TIM_EPNL, RO, R89. -/
abbrev timEpnl : Nat := 0x1050
/-- TIM_EPNH, RO, R89. -/
abbrev timEpnh : Nat := 0x1054
/-- TIM_FEPNL, RO, R89. -/
abbrev timFepnl : Nat := 0x1058
/-- TIM_FEPNH, RO, R89. -/
abbrev timFepnh : Nat := 0x105C
/-- TIM_CAPNOM, RW, R89. -/
abbrev timCapnom : Nat := 0x1060
/-- TIM_CAPPER, RO, R89. -/
abbrev timCapper : Nat := 0x1064
/-- TIM_STRETCH, RO, R89. -/
abbrev timStretch : Nat := 0x1068
/-- TIM_CLKSTOPCNT, RC, R89. -/
abbrev timClkstopcnt : Nat := 0x106C
/-- TIM_PTPCFG, RW, R89. -/
abbrev timPtpcfg : Nat := 0x1070
/-- TIM_PTPOFS, RO, R89. -/
abbrev timPtpofs : Nat := 0x1074
/-- TIM[sel].CFG, RWL, R89 (windowed, 01 R45). -/
abbrev timAtCfg : Nat := 0x1100
/-- TIM[sel].ARM, RW, R89 (windowed, 01 R45). -/
abbrev timAtArm : Nat := 0x1104
/-- TIM[sel].ATF, RWL, R89 (windowed, 01 R45). -/
abbrev timAtAtf : Nat := 0x1108
/-- TIM[sel].ATS0, RWL, R89 (windowed, 01 R45). -/
abbrev timAtAts0 : Nat := 0x110C
/-- TIM[sel].ATS1, RWL, R89 (windowed, 01 R45). -/
abbrev timAtAts1 : Nat := 0x1110
/-- TIM[sel].PERU, RWL, R89 (windowed, 01 R45). -/
abbrev timAtPeru : Nat := 0x1114
/-- TIM[sel].OFS, RWL, R89 (windowed, 01 R45). -/
abbrev timAtOfs : Nat := 0x1118
/-- TIM[sel].FIRECNT, RO, R89 (windowed, 01 R45). -/
abbrev timAtFirecnt : Nat := 0x111C
/-- TIM[sel].STAT, W1C, R89 (windowed, 01 R45). -/
abbrev timAtStat : Nat := 0x1120
/-- CAP_SEL, RW, R126. -/
abbrev capSel : Nat := 0x3000
/-- CAP_STAT, RO, R126. -/
abbrev capStat : Nat := 0x3004
/-- CAP_ERR, W1C, R126. -/
abbrev capErr : Nat := 0x3008
/-- CAP_OVFCNT, RC, R126. -/
abbrev capOvfcnt : Nat := 0x300C
/-- CAP_CONVBUSY, RC, R126. -/
abbrev capConvbusy : Nat := 0x3010
/-- CAP_SENSERR, RC, R126. -/
abbrev capSenserr : Nat := 0x3014
/-- CAP_SAMPLOST, RC, R126. -/
abbrev capSamplost : Nat := 0x3018
/-- CAP[sel].CFG, RO, R126 (windowed, 01 R45). -/
abbrev capAtCfg : Nat := 0x3100
/-- CAP[sel].SRC0, RO, R126 (windowed, 01 R45). -/
abbrev capAtSrc0 : Nat := 0x3104
/-- CAP[sel].SRC1, RO, R126 (windowed, 01 R45). -/
abbrev capAtSrc1 : Nat := 0x3108
/-- CAP[sel].LIVEL, RO, R126 (windowed, 01 R45). -/
abbrev capAtLivel : Nat := 0x310C
/-- CAP[sel].LIVEH, RO, R126 (windowed, 01 R45). -/
abbrev capAtLiveh : Nat := 0x3110
/-- CAP[sel].CUML, RO, R126 (windowed, 01 R45). -/
abbrev capAtCuml : Nat := 0x3114
/-- CAP[sel].CUMH, RO, R126 (windowed, 01 R45). -/
abbrev capAtCumh : Nat := 0x3118
/-- CAP[sel].STAT, W1C, R126 (windowed, 01 R45). -/
abbrev capAtStat : Nat := 0x311C
/-- CAP[sel].PSICFG, RW, R126 (windowed, 01 R45). -/
abbrev capAtPsicfg : Nat := 0x3120
/-- CAP[sel].PSIPER, RW, R126 (windowed, 01 R45). -/
abbrev capAtPsiper : Nat := 0x3124
/-- SNP_SEL, RW, R129. -/
abbrev snpSel : Nat := 0x4000
/-- SNP_CFG, RO, R129. -/
abbrev snpCfg : Nat := 0x4004
/-- SNP_LATEST, RO, R129. -/
abbrev snpLatest : Nat := 0x4008
/-- SNP_HOLD, RW, R129. -/
abbrev snpHold : Nat := 0x400C
/-- SNP_HOLDTO, RW, R129. -/
abbrev snpHoldto : Nat := 0x4010
/-- SNP_ERR, W1C, R129. -/
abbrev snpErr : Nat := 0x4014
/-- SNP_SKIPCNT, RC, R129. -/
abbrev snpSkipcnt : Nat := 0x4018
/-- SNP_WRCNT, RO, R129. -/
abbrev snpWrcnt : Nat := 0x401C
/-- SNP[sel].STATE, RO, R129 (windowed, 01 R45). -/
abbrev snpAtState : Nat := 0x4100
/-- SNP[sel].EPNL, RO, R129 (windowed, 01 R45). -/
abbrev snpAtEpnl : Nat := 0x4104
/-- SNP[sel].EPNH, RO, R129 (windowed, 01 R45). -/
abbrev snpAtEpnh : Nat := 0x4108
/-- RDX_SEL, RW, R166. -/
abbrev rdxSel : Nat := 0x7000
/-- RDX_STAT, RO, R166. -/
abbrev rdxStat : Nat := 0x7004
/-- RDX_ERR, W1C, R166. -/
abbrev rdxErr : Nat := 0x7008
/-- RDX_FOLDCNT, RC, R166. -/
abbrev rdxFoldcnt : Nat := 0x700C
/-- RDX_FWDCNT, RC, R166. -/
abbrev rdxFwdcnt : Nat := 0x7010
/-- RDX_BADCNT, RC, R166. -/
abbrev rdxBadcnt : Nat := 0x7014
/-- RDX_PHSTEP, RO, R166. -/
abbrev rdxPhstep : Nat := 0x7020
/-- RDX_PHMASK, RO, R166. -/
abbrev rdxPhmask : Nat := 0x7024
/-- RDX_INFL, RO, R166. -/
abbrev rdxInfl : Nat := 0x7040
/-- RDX_FULLCNT, RC, R166. -/
abbrev rdxFullcnt : Nat := 0x7044
/-- RDX_LATECNT, RC, R166. -/
abbrev rdxLatecnt : Nat := 0x7048
/-- RDX_DUPCNT, RC, R166. -/
abbrev rdxDupcnt : Nat := 0x704C
/-- RDX_SKIPCNT, RC, R166. -/
abbrev rdxSkipcnt : Nat := 0x7050
/-- RDX_LOSTCNT, RC, R166. -/
abbrev rdxLostcnt : Nat := 0x7054
/-- RDX_PARTCNT, RC, R166. -/
abbrev rdxPartcnt : Nat := 0x7058
/-- RDX_STRAGCNT, RO, R166. -/
abbrev rdxStragcnt : Nat := 0x705C
/-- RDX[sel].CFG, RO, R166 (windowed, 01 R45). -/
abbrev rdxAtCfg : Nat := 0x7100
/-- RDX[sel].TIMES, RO, R166 (windowed, 01 R45). -/
abbrev rdxAtTimes : Nat := 0x7104
/-- RDX[sel].DLTG, RO, R166 (windowed, 01 R45). -/
abbrev rdxAtDltg : Nat := 0x7108
/-- RDX[sel].DLS, RO, R166 (windowed, 01 R45). -/
abbrev rdxAtDls : Nat := 0x710C
/-- RDX[sel].LASTL, RO, R166 (windowed, 01 R45). -/
abbrev rdxAtLastl : Nat := 0x7110
/-- RDX[sel].LASTH, RO, R166 (windowed, 01 R45). -/
abbrev rdxAtLasth : Nat := 0x7114
/-- RDX[sel].LASTST, RO, R166 (windowed, 01 R45). -/
abbrev rdxAtLastst : Nat := 0x7118
/-- RDX[sel].VOIDCNT, RC, R166 (windowed, 01 R45). -/
abbrev rdxAtVoidcnt : Nat := 0x711C
/-- RDX[sel].STHR, RO, R166 (windowed, 01 R45). -/
abbrev rdxAtSthr : Nat := 0x7120
/-- RDX[sel].SKN, RO, R166 (windowed, 01 R45). -/
abbrev rdxAtSkn : Nat := 0x7124
/-- RDX_STRAGMAP0–7, RO, R166. -/
abbrev rdxStragmap : Nat := 0x7200
/-- RDL_SEL, RW, R212. -/
abbrev rdlSel : Nat := 0x8000
/-- RDL_STAT, RO, R212. -/
abbrev rdlStat : Nat := 0x8004
/-- RDL_ERR, W1C, R212. -/
abbrev rdlErr : Nat := 0x8008
/-- RDL_EPNL, RO, R212. -/
abbrev rdlEpnl : Nat := 0x800C
/-- RDL_EPNH, RO, R212. -/
abbrev rdlEpnh : Nat := 0x8010
/-- RDL_VIEW, RW, R212. -/
abbrev rdlView : Nat := 0x8014
/-- RDL_CUTIDX, RW, R212. -/
abbrev rdlCutidx : Nat := 0x8018
/-- RDL[sel].CFG, RO, R212 (windowed, 01 R45). -/
abbrev rdlAtCfg : Nat := 0x8100
/-- RDL[sel].ARG, RO, R212 (windowed, 01 R45). -/
abbrev rdlAtArg : Nat := 0x8104
/-- RDL[sel].MAXAGE, RO, R212 (windowed, 01 R45). -/
abbrev rdlAtMaxage : Nat := 0x8108
/-- RDL[sel].CUT, RO, R212 (windowed, 01 R45). -/
abbrev rdlAtCut : Nat := 0x810C
/-- RDL[sel].VALUE, RO, R212 (windowed, 01 R45). -/
abbrev rdlAtValue : Nat := 0x8110
/-- RDL[sel].CODE, RO, R212 (windowed, 01 R45). -/
abbrev rdlAtCode : Nat := 0x8114
/-- RDL[sel].MISSCNT, RC, R212 (windowed, 01 R45). -/
abbrev rdlAtMisscnt : Nat := 0x8118
/-- TRE_SEL, RW, R214. -/
abbrev treSel : Nat := 0x9000
/-- TRE_CTRL, RW, R214. -/
abbrev treCtrl : Nat := 0x9004
/-- TRE_STAT, RO, R214. -/
abbrev treStat : Nat := 0x9008
/-- TRE_ERR, W1C, R214. -/
abbrev treErr : Nat := 0x900C
/-- TRE_SWAPL, RW, R214. -/
abbrev treSwapl : Nat := 0x9010
/-- TRE_SWAPH, RW, R214. -/
abbrev treSwaph : Nat := 0x9014
/-- TRE_SWAPCTL, RW, R214. -/
abbrev treSwapctl : Nat := 0x9018
/-- TRE_REPAIRCNT, RC, R214. -/
abbrev treRepaircnt : Nat := 0x901C
/-- TRE_SCRUBPER, RW, R214. -/
abbrev treScrubper : Nat := 0x9020
/-- TRE_SWAPCNT, RO, R214. -/
abbrev treSwapcnt : Nat := 0x9024
/-- TRE_VIEW, RW, R214. -/
abbrev treView : Nat := 0x9028
/-- TRE_ACTMASK, RO, R214. -/
abbrev treActmask : Nat := 0x9030
/-- TRE_SHDMASK, RO, R214. -/
abbrev treShdmask : Nat := 0x9034
/-- TRE_IMGPAGE, RW, R214. -/
abbrev treImgpage : Nat := 0x9040
/-- TRE[sel].CFG, RO, R214 (windowed, 01 R45). -/
abbrev treAtCfg : Nat := 0x9100
/-- TRE[sel].ENSID, RO, R214 (windowed, 01 R45). -/
abbrev treAtEnsid : Nat := 0x9104
/-- TRE[sel].RANGE, RO, R214 (windowed, 01 R45). -/
abbrev treAtRange : Nat := 0x9108
/-- TRE[sel].BIAS, RO, R214 (windowed, 01 R45). -/
abbrev treAtBias : Nat := 0x910C
/-- TRE[sel].T1L, RO, R214 (windowed, 01 R45). -/
abbrev treAtT1l : Nat := 0x9110
/-- TRE[sel].T1H, RO, R214 (windowed, 01 R45). -/
abbrev treAtT1h : Nat := 0x9114
/-- TRE[sel].T2L, RO, R214 (windowed, 01 R45). -/
abbrev treAtT2l : Nat := 0x9118
/-- TRE[sel].T2H, RO, R214 (windowed, 01 R45). -/
abbrev treAtT2h : Nat := 0x911C
/-- TRE[sel].T3L, RO, R214 (windowed, 01 R45). -/
abbrev treAtT3l : Nat := 0x9120
/-- TRE[sel].T3H, RO, R214 (windowed, 01 R45). -/
abbrev treAtT3h : Nat := 0x9124
/-- TRE[sel].RISE, RO, R214 (windowed, 01 R45). -/
abbrev treAtRise : Nat := 0x9128
/-- TRE[sel].FALL, RO, R214 (windowed, 01 R45). -/
abbrev treAtFall : Nat := 0x912C
/-- TRE[sel].VERD, RO, R214 (windowed, 01 R45). -/
abbrev treAtVerd : Nat := 0x9130
/-- TRE[sel].SCOREL, RO, R214 (windowed, 01 R45). -/
abbrev treAtScorel : Nat := 0x9134
/-- TRE[sel].SCOREH, RO, R214 (windowed, 01 R45). -/
abbrev treAtScoreh : Nat := 0x9138
/-- TRE[sel].EPNL, RO, R214 (windowed, 01 R45). -/
abbrev treAtEpnl : Nat := 0x913C
/-- TRE[sel].EPNH, RO, R214 (windowed, 01 R45). -/
abbrev treAtEpnh : Nat := 0x9140
/-- TRE[sel].OVERRUN, RC, R214 (windowed, 01 R45). -/
abbrev treAtOverrun : Nat := 0x9144
/-- TRE[sel].WEIRCTL, RW, R214 (windowed, 01 R45). -/
abbrev treAtWeirctl : Nat := 0x9148
/-- TRE[sel].HYST, RO, R214 (windowed, 01 R45). -/
abbrev treAtHyst : Nat := 0x914C
/-- TRE[sel].HYSTF, RO, R214 (windowed, 01 R45). -/
abbrev treAtHystf : Nat := 0x9150
/-- DNS_SEL, RW, R243. -/
abbrev dnsSel : Nat := 0xA000
/-- DNS_CTRL, RW, R243. -/
abbrev dnsCtrl : Nat := 0xA004
/-- DNS_STAT, RO, R243. -/
abbrev dnsStat : Nat := 0xA008
/-- DNS_ERR, W1C, R243. -/
abbrev dnsErr : Nat := 0xA00C
/-- DNS_VIEW, RW, R243. -/
abbrev dnsView : Nat := 0xA010
/-- DNS_OUTIDX, RW, R243. -/
abbrev dnsOutidx : Nat := 0xA014
/-- DNS[sel].CFG, RO, R243 (windowed, 01 R45). -/
abbrev dnsAtCfg : Nat := 0xA100
/-- DNS[sel].MODELID, RO, R243 (windowed, 01 R45). -/
abbrev dnsAtModelid : Nat := 0xA104
/-- DNS[sel].SHAPE, RO, R243 (windowed, 01 R45). -/
abbrev dnsAtShape : Nat := 0xA108
/-- DNS[sel].EPNL, RO, R243 (windowed, 01 R45). -/
abbrev dnsAtEpnl : Nat := 0xA10C
/-- DNS[sel].EPNH, RO, R243 (windowed, 01 R45). -/
abbrev dnsAtEpnh : Nat := 0xA110
/-- DNS[sel].OVERRUN, RC, R243 (windowed, 01 R45). -/
abbrev dnsAtOverrun : Nat := 0xA114
/-- DNS[sel].WEIRCTL, RW, R243 (windowed, 01 R45). -/
abbrev dnsAtWeirctl : Nat := 0xA118
/-- DNS[sel].OCFG, RO, R243 (windowed, 01 R45). -/
abbrev dnsAtOcfg : Nat := 0xA11C
/-- DNS[sel].OVAL, RO, R243 (windowed, 01 R45). -/
abbrev dnsAtOval : Nat := 0xA120
/-- DNS[sel].OVERD, RO, R243 (windowed, 01 R45). -/
abbrev dnsAtOverd : Nat := 0xA124
/-- DNS[sel].OJSL, RO, R243 (windowed, 01 R45). -/
abbrev dnsAtOjsl : Nat := 0xA128
/-- DNS[sel].OJSH, RO, R243 (windowed, 01 R45). -/
abbrev dnsAtOjsh : Nat := 0xA12C
/-- DRF_SEL, RW, R245. -/
abbrev drfSel : Nat := 0xB000
/-- DRF_CTRL, RW, R245. -/
abbrev drfCtrl : Nat := 0xB004
/-- DRF_STAT, RO, R245. -/
abbrev drfStat : Nat := 0xB008
/-- DRF_ERR, W1C, R245. -/
abbrev drfErr : Nat := 0xB00C
/-- DRF_EPNL, RO, R245. -/
abbrev drfEpnl : Nat := 0xB010
/-- DRF_EPNH, RO, R245. -/
abbrev drfEpnh : Nat := 0xB014
/-- DRF_MARGSUM, RO, R245. -/
abbrev drfMargsum : Nat := 0xB018
/-- DRF_BANDCFG, RO, R245. -/
abbrev drfBandcfg : Nat := 0xB01C
/-- DRF[sel].CFG, RO, R245 (windowed, 01 R45). -/
abbrev drfAtCfg : Nat := 0xB100
/-- DRF[sel].METID, RO, R245 (windowed, 01 R45). -/
abbrev drfAtMetid : Nat := 0xB104
/-- DRF[sel].SLACK, RO, R245 (windowed, 01 R45). -/
abbrev drfAtSlack : Nat := 0xB108
/-- DRF[sel].LIMIT, RO, R245 (windowed, 01 R45). -/
abbrev drfAtLimit : Nat := 0xB10C
/-- DRF[sel].STATE, RO, R245 (windowed, 01 R45). -/
abbrev drfAtState : Nat := 0xB110
/-- DRF[sel].BASE, RO, R245 (windowed, 01 R45). -/
abbrev drfAtBase : Nat := 0xB114
/-- DRF[sel].SP, RO, R245 (windowed, 01 R45). -/
abbrev drfAtSp : Nat := 0xB118
/-- DRF[sel].SN, RO, R245 (windowed, 01 R45). -/
abbrev drfAtSn : Nat := 0xB11C
/-- DRF[sel].LAST, RO, R245 (windowed, 01 R45). -/
abbrev drfAtLast : Nat := 0xB120
/-- DRF[sel].REBASE, RW, R245 (windowed, 01 R45). -/
abbrev drfAtRebase : Nat := 0xB124
/-- DRF[sel].SKIPCNT, RC, R245 (windowed, 01 R45). -/
abbrev drfAtSkipcnt : Nat := 0xB128
/-- WIT_SEL, RW, R277. -/
abbrev witSel : Nat := 0xC000
/-- WIT_CTRL, RW, R277. -/
abbrev witCtrl : Nat := 0xC004
/-- WIT_STAT, RO, R277. -/
abbrev witStat : Nat := 0xC008
/-- WIT_ERR, W1C, R277. -/
abbrev witErr : Nat := 0xC00C
/-- WIT_SEEDL, RW, R277. -/
abbrev witSeedl : Nat := 0xC010
/-- WIT_SEEDH, RW, R277. -/
abbrev witSeedh : Nat := 0xC014
/-- WIT_RATE, RW, R277. -/
abbrev witRate : Nat := 0xC018
/-- WIT_PENDTO, RW, R277. -/
abbrev witPendto : Nat := 0xC01C
/-- WIT_THIRDTO, RW, R277. -/
abbrev witThirdto : Nat := 0xC020
/-- WIT_WIN, RW, R277. -/
abbrev witWin : Nat := 0xC024
/-- WIT_JUDGEN, RW, R277. -/
abbrev witJudgen : Nat := 0xC028
/-- WIT_MACKTO, RW, R277. -/
abbrev witMackto : Nat := 0xC02C
/-- WIT_ANNCNT, RC, R277. -/
abbrev witAnncnt : Nat := 0xC030
/-- WIT_SAMPCNT, RC, R277. -/
abbrev witSampcnt : Nat := 0xC034
/-- WIT_MATCHCNT, RC, R277. -/
abbrev witMatchcnt : Nat := 0xC038
/-- WIT_MISCNT, RC, R277. -/
abbrev witMiscnt : Nat := 0xC03C
/-- WIT_NOVOTECNT, RC, R277. -/
abbrev witNovotecnt : Nat := 0xC040
/-- WIT_TOCNT, RC, R277. -/
abbrev witTocnt : Nat := 0xC044
/-- WIT_FULLCNT, RC, R277. -/
abbrev witFullcnt : Nat := 0xC048
/-- WIT_DISCCNT, RC, R277. -/
abbrev witDisccnt : Nat := 0xC04C
/-- WIT_EVICTCNT, RC, R277. -/
abbrev witEvictcnt : Nat := 0xC050
/-- WIT_ABNCNT, RC, R277. -/
abbrev witAbncnt : Nat := 0xC054
/-- WIT_MARGLVL, RO, R277. -/
abbrev witMarglvl : Nat := 0xC058
/-- WIT_LSNOW, RO, R277. -/
abbrev witLsnow : Nat := 0xC060
/-- WIT_LSCFG0–7, RW, R277. -/
abbrev witLscfg : Nat := 0xC080
/-- WIT[sel].KEY, RO, R277 (windowed, 01 R45). -/
abbrev witAtKey : Nat := 0xC100
/-- WIT[sel].STATE, RO, R277 (windowed, 01 R45). -/
abbrev witAtState : Nat := 0xC104
/-- WIT[sel].LAST, RO, R277 (windowed, 01 R45). -/
abbrev witAtLast : Nat := 0xC108
/-- WIT[sel].OLDEST, RO, R277 (windowed, 01 R45). -/
abbrev witAtOldest : Nat := 0xC10C
/-- WIT[sel].JUDGE, RO, R277 (windowed, 01 R45). -/
abbrev witAtJudge : Nat := 0xC110
/-- WIT[sel].CLEAR, RW, R277 (windowed, 01 R45). -/
abbrev witAtClear : Nat := 0xC114
/-- WIT_ENGMAP0–255, RW, R277. -/
abbrev witEngmap : Nat := 0xC400
/-- HLT_SEL, RW, R327. -/
abbrev hltSel : Nat := 0xD000
/-- HLT_CTRL, RW, R327. -/
abbrev hltCtrl : Nat := 0xD004
/-- HLT_STAT, RO, R327. -/
abbrev hltStat : Nat := 0xD008
/-- HLT_ERR, W1C, R327. -/
abbrev hltErr : Nat := 0xD00C
/-- HLT_COMP0, RO, R327. -/
abbrev hltComp0 : Nat := 0xD010
/-- HLT_COMP1, RO, R327. -/
abbrev hltComp1 : Nat := 0xD014
/-- HLT_HARD, RO, R327. -/
abbrev hltHard : Nat := 0xD018
/-- HLT_WENS, RW, R327. -/
abbrev hltWens : Nat := 0xD020
/-- HLT_WWIT0, RW, R327. -/
abbrev hltWwit0 : Nat := 0xD024
/-- HLT_WWIT1, RW, R327. -/
abbrev hltWwit1 : Nat := 0xD028
/-- HLT_WDRF, RW, R327. -/
abbrev hltWdrf : Nat := 0xD02C
/-- HLT_THR, RW, R327. -/
abbrev hltThr : Nat := 0xD030
/-- HLT_NVWIN, RW, R327. -/
abbrev hltNvwin : Nat := 0xD034
/-- HLT_MARG, RW, R327. -/
abbrev hltMarg : Nat := 0xD038
/-- HLT_LDTO, RW, R327. -/
abbrev hltLdto : Nat := 0xD03C
/-- HLT_DOWNHOLD, RW, R327. -/
abbrev hltDownhold : Nat := 0xD040
/-- HLT_WG, RO, R327. -/
abbrev hltWg : Nat := 0xD044
/-- HLT_GEN, RO, R327. -/
abbrev hltGen : Nat := 0xD048
/-- HLT_FSEQ, RO, R327. -/
abbrev hltFseq : Nat := 0xD04C
/-- HLT_FCH, RW, R327. -/
abbrev hltFch : Nat := 0xD050
/-- HLT_LINK, RO, R327. -/
abbrev hltLink : Nat := 0xD054
/-- HLT_WGDROPCNT, RC, R327. -/
abbrev hltWgdropcnt : Nat := 0xD058
/-- HLT_CMDCNT, RC, R327. -/
abbrev hltCmdcnt : Nat := 0xD05C
/-- HLT_CMDDUP, RC, R327. -/
abbrev hltCmddup : Nat := 0xD060
/-- HLT_AGGSTAT, RO, R327. -/
abbrev hltAggstat : Nat := 0xD080
/-- HLT_AGGERR, W1C, R327. -/
abbrev hltAggerr : Nat := 0xD084
/-- HLT[sel].FSTAT, RO, R327 (windowed, 01 R45). -/
abbrev hltAtFstat : Nat := 0xD100
/-- HLT[sel].DONE, RW, R327 (windowed, 01 R45). -/
abbrev hltAtDone : Nat := 0xD104
/-- HLT[sel].FSEQ, RO, R327 (windowed, 01 R45). -/
abbrev hltAtFseq : Nat := 0xD108
/-- HLT[sel].FD0–FD11, RO, R327 (windowed, 01 R45). -/
abbrev hltAtFd : Nat := 0xD110
/-- HLT[sel].FX0–FX32, RO, R327 (windowed, 01 R45). -/
abbrev hltAtFx : Nat := 0xD140
/-- VOT_SEL, RW, R330. -/
abbrev votSel : Nat := 0x100000
/-- VOT_CTRL, RW, R330. -/
abbrev votCtrl : Nat := 0x100004
/-- VOT_STAT, RO, R330. -/
abbrev votStat : Nat := 0x100008
/-- VOT_ERR, W1C, R330. -/
abbrev votErr : Nat := 0x10000C
/-- VOT_GCFG, RW, R330. -/
abbrev votGcfg : Nat := 0x100010
/-- VOT_GOVW, RW, R330. -/
abbrev votGovw : Nat := 0x100014
/-- VOT_GOVB, RW, R330. -/
abbrev votGovb : Nat := 0x100018
/-- VOT_SPARES, RO, R330. -/
abbrev votSpares : Nat := 0x10001C
/-- VOT_GOVCNT, RO, R330. -/
abbrev votGovcnt : Nat := 0x100020
/-- VOT_WSTRAG, RW, R330. -/
abbrev votWstrag : Nat := 0x100024
/-- VOT_GTO, RW, R330. -/
abbrev votGto : Nat := 0x100028
/-- VOT_STO, RW, R330. -/
abbrev votSto : Nat := 0x10002C
/-- VOT_FLEAD, RW, R330. -/
abbrev votFlead : Nat := 0x100030
/-- VOT_SILTO, RW, R330. -/
abbrev votSilto : Nat := 0x100034
/-- VOT_CMDTO, RW, R330. -/
abbrev votCmdto : Nat := 0x100038
/-- VOT_HANGPER, RW, R330. -/
abbrev votHangper : Nat := 0x10003C
/-- VOT_ADMCTL, RW, R330. -/
abbrev votAdmctl : Nat := 0x100040
/-- VOT_SWEEPT, RW, R330. -/
abbrev votSweept : Nat := 0x100044
/-- VOT_PROPCNT, RC, R330. -/
abbrev votPropcnt : Nat := 0x100048
/-- VOT_DECCNT, RC, R330. -/
abbrev votDeccnt : Nat := 0x10004C
/-- VOT_GOVDCNT, RC, R330. -/
abbrev votGovdcnt : Nat := 0x100050
/-- VOT_RESENDCNT, RC, R330. -/
abbrev votResendcnt : Nat := 0x100054
/-- VOT_WGCNT, RO, R330. -/
abbrev votWgcnt : Nat := 0x100058
/-- VOT[sel].SCORE, RO, R330 (windowed, 01 R45). -/
abbrev votAtScore : Nat := 0x100100
/-- VOT[sel].COMP, RO, R330 (windowed, 01 R45). -/
abbrev votAtComp : Nat := 0x100104
/-- VOT[sel].HARD, RO, R330 (windowed, 01 R45). -/
abbrev votAtHard : Nat := 0x100108
/-- VOT[sel].WG, RO, R330 (windowed, 01 R45). -/
abbrev votAtWg : Nat := 0x10010C
/-- VOT[sel].GEN, RO, R330 (windowed, 01 R45). -/
abbrev votAtGen : Nat := 0x100110
/-- VOT[sel].DECIDL, RO, R330 (windowed, 01 R45). -/
abbrev votAtDecidl : Nat := 0x100114
/-- VOT[sel].DECIDH, RO, R330 (windowed, 01 R45). -/
abbrev votAtDecidh : Nat := 0x100118
/-- VOT_GOVLOG0–15, RO, R330. -/
abbrev votGovlog : Nat := 0x100200
/-- REC_SEL, RW, R363. -/
abbrev recSel : Nat := 0x5000
/-- REC_CTRL, RW, R363. -/
abbrev recCtrl : Nat := 0x5004
/-- REC_STAT, RO, R363. -/
abbrev recStat : Nat := 0x5008
/-- REC_ERR, W1C, R363. -/
abbrev recErr : Nat := 0x500C
/-- REC_SPBASEL, RWL, R363. -/
abbrev recSpbasel : Nat := 0x5010
/-- REC_SPBASEH, RWL, R363. -/
abbrev recSpbaseh : Nat := 0x5014
/-- REC_SPSIZE, RWL, R363. -/
abbrev recSpsize : Nat := 0x5018
/-- REC_SPILLUSE, RO, R363. -/
abbrev recSpilluse : Nat := 0x501C
/-- REC_ACKTO, RW, R363. -/
abbrev recAckto : Nat := 0x5020
/-- REC_HEADTO, RW, R363. -/
abbrev recHeadto : Nat := 0x5024
/-- REC_DIGPER, RW, R363. -/
abbrev recDigper : Nat := 0x5028
/-- REC_RDPAGE, RW, R363. -/
abbrev recRdpage : Nat := 0x502C
/-- REC_REFCNT, RC, R363. -/
abbrev recRefcnt : Nat := 0x5030
/-- REC[sel].NEXTL, RO, R363 (windowed, 01 R45). -/
abbrev recAtNextl : Nat := 0x5100
/-- REC[sel].NEXTH, RO, R363 (windowed, 01 R45). -/
abbrev recAtNexth : Nat := 0x5104
/-- REC[sel].ACKAL, RO, R363 (windowed, 01 R45). -/
abbrev recAtAckal : Nat := 0x5108
/-- REC[sel].ACKAH, RO, R363 (windowed, 01 R45). -/
abbrev recAtAckah : Nat := 0x510C
/-- REC[sel].ACKBL, RO, R363 (windowed, 01 R45). -/
abbrev recAtAckbl : Nat := 0x5110
/-- REC[sel].ACKBH, RO, R363 (windowed, 01 R45). -/
abbrev recAtAckbh : Nat := 0x5114
/-- REC[sel].RETCNT, RO, R363 (windowed, 01 R45). -/
abbrev recAtRetcnt : Nat := 0x5118
/-- REC[sel].REPLAYCNT, RC, R363 (windowed, 01 R45). -/
abbrev recAtReplaycnt : Nat := 0x511C
/-- JRN_SEL, RW, R364. -/
abbrev jrnSel : Nat := 0x130000
/-- JRN_CTRL, RW, R364. -/
abbrev jrnCtrl : Nat := 0x130004
/-- JRN_STAT, RO, R364. -/
abbrev jrnStat : Nat := 0x130008
/-- JRN_ERR, W1C, R364. -/
abbrev jrnErr : Nat := 0x13000C
/-- JRN_LAGMAX, RW, R364. -/
abbrev jrnLagmax : Nat := 0x130010
/-- JRN_SYNCTO, RW, R364. -/
abbrev jrnSyncto : Nat := 0x130014
/-- JRN_SINKTO, RW, R364. -/
abbrev jrnSinkto : Nat := 0x130018
/-- JRN_ACKPER, RW, R364. -/
abbrev jrnAckper : Nat := 0x13001C
/-- JRN_SINK0–3, RW, R364. -/
abbrev jrnSink : Nat := 0x130020
/-- JRN_USED, RO, R364. -/
abbrev jrnUsed : Nat := 0x130030
/-- JRN_DUPCNT, RC, R364. -/
abbrev jrnDupcnt : Nat := 0x130034
/-- JRN_GAPCNT, RC, R364. -/
abbrev jrnGapcnt : Nat := 0x130038
/-- JRN_CHKCNT, RC, R364. -/
abbrev jrnChkcnt : Nat := 0x13003C
/-- JRN_SEALL, RO, R364. -/
abbrev jrnSeall : Nat := 0x130040
/-- JRN_SEALH, RO, R364. -/
abbrev jrnSealh : Nat := 0x130044
/-- JRN_TAKECNT, RC, R364. -/
abbrev jrnTakecnt : Nat := 0x130048
/-- JRN[sel].JSEQL, RO, R364 (windowed, 01 R45). -/
abbrev jrnAtJseql : Nat := 0x130100
/-- JRN[sel].JSEQH, RO, R364 (windowed, 01 R45). -/
abbrev jrnAtJseqh : Nat := 0x130104
/-- JRN[sel].SSEQL, RO, R364 (windowed, 01 R45). -/
abbrev jrnAtSseql : Nat := 0x130108
/-- JRN[sel].SSEQH, RO, R364 (windowed, 01 R45). -/
abbrev jrnAtSseqh : Nat := 0x13010C
/-- JRN[sel].SENTL, RO, R364 (windowed, 01 R45). -/
abbrev jrnAtSentl : Nat := 0x130110
/-- JRN[sel].SENTH, RO, R364 (windowed, 01 R45). -/
abbrev jrnAtSenth : Nat := 0x130114
/-- JRN[sel].SSTAT, RO, R364 (windowed, 01 R45). -/
abbrev jrnAtSstat : Nat := 0x130118
/-- RACE_SEL, RW, R388. -/
abbrev raceSel : Nat := 0x6000
/-- RACE_CTRL, RW, R388. -/
abbrev raceCtrl : Nat := 0x6004
/-- RACE_STAT, RO, R388. -/
abbrev raceStat : Nat := 0x6008
/-- RACE_ERR, W1C, R388. -/
abbrev raceErr : Nat := 0x600C
/-- RACE_GENCAP, RWL, R388. -/
abbrev raceGencap : Nat := 0x6010
/-- RACE_LOAD, RO, R388. -/
abbrev raceLoad : Nat := 0x6014
/-- RACE_BEATPER, RW, R388. -/
abbrev raceBeatper : Nat := 0x6018
/-- RACE_HOLDCNT, RC, R388. -/
abbrev raceHoldcnt : Nat := 0x601C
/-- RACE[sel].PSTAT, RO, R388 (windowed, 01 R45). -/
abbrev raceAtPstat : Nat := 0x6100
/-- RACE[sel].DOWNCNT, RC, R388 (windowed, 01 R45). -/
abbrev raceAtDowncnt : Nat := 0x6104
/-- RACE[sel].HDRERR, RC, R388 (windowed, 01 R45). -/
abbrev raceAtHdrerr : Nat := 0x6108
/-- RACE[sel].CRCERR, RC, R388 (windowed, 01 R45). -/
abbrev raceAtCrcerr : Nat := 0x610C
/-- RACE[sel].TRUNCCNT, RC, R388 (windowed, 01 R45). -/
abbrev raceAtTrunccnt : Nat := 0x6110
/-- RACE[sel].TXFRM, RC, R388 (windowed, 01 R45). -/
abbrev raceAtTxfrm : Nat := 0x6114
/-- RACE[sel].RXFRM, RC, R388 (windowed, 01 R45). -/
abbrev raceAtRxfrm : Nat := 0x6118
/-- RACE[sel].CRED0, RO, R388 (windowed, 01 R45). -/
abbrev raceAtCred0 : Nat := 0x611C
/-- RACE[sel].CRED1, RO, R388 (windowed, 01 R45). -/
abbrev raceAtCred1 : Nat := 0x6120
/-- RACE[sel].RETRAIN, RW, R388 (windowed, 01 R45). -/
abbrev raceAtRetrain : Nat := 0x6124
/-- RACE[sel].LASTDOWN, RO, R388 (windowed, 01 R45). -/
abbrev raceAtLastdown : Nat := 0x6128
/-- RACE[sel].GENMAX, RW, R388 (windowed, 01 R45). -/
abbrev raceAtGenmax : Nat := 0x612C
/-- FLT_SEL, RW, R413. -/
abbrev fltSel : Nat := 0x110000
/-- FLT_CTRL, RW, R413. -/
abbrev fltCtrl : Nat := 0x110004
/-- FLT_STAT, RO, R413. -/
abbrev fltStat : Nat := 0x110008
/-- FLT_ERR, W1C, R413. -/
abbrev fltErr : Nat := 0x11000C
/-- FLT_ETYPE, RW, R413. -/
abbrev fltEtype : Nat := 0x110010
/-- FLT_MACHI, RW, R413. -/
abbrev fltMachi : Nat := 0x110014
/-- FLT_MCHI, RW, R413. -/
abbrev fltMchi : Nat := 0x110018
/-- FLT_PCP, RW, R413. -/
abbrev fltPcp : Nat := 0x11001C
/-- FLT_COLIDX, RW, R413. -/
abbrev fltColidx : Nat := 0x110020
/-- FLT_COLMACL, RW, R413. -/
abbrev fltColmacl : Nat := 0x110024
/-- FLT_COLMACH, RW, R413. -/
abbrev fltColmach : Nat := 0x110028
/-- FLT_CTLMASK, RW, R413. -/
abbrev fltCtlmask : Nat := 0x11002C
/-- FLT_RXDROP, RC, R413. -/
abbrev fltRxdrop : Nat := 0x110030
/-- FLT[sel].CFG, RWL, R413 (windowed, 01 R45). -/
abbrev fltAtCfg : Nat := 0x110100
/-- FLT[sel].PSTAT, RO, R413 (windowed, 01 R45). -/
abbrev fltAtPstat : Nat := 0x110104
/-- FLT[sel].VID, RW, R413 (windowed, 01 R45). -/
abbrev fltAtVid : Nat := 0x110108
/-- FLT[sel].SEGMAX, RWL, R413 (windowed, 01 R45). -/
abbrev fltAtSegmax : Nat := 0x11010C
/-- FLT[sel].TSLAT, RW, R413 (windowed, 01 R45). -/
abbrev fltAtTslat : Nat := 0x110110
/-- FLT[sel].TXFRM, RC, R413 (windowed, 01 R45). -/
abbrev fltAtTxfrm : Nat := 0x110114
/-- FLT[sel].RXFRM, RC, R413 (windowed, 01 R45). -/
abbrev fltAtRxfrm : Nat := 0x110118
/-- FLT[sel].FCSERR, RC, R413 (windowed, 01 R45). -/
abbrev fltAtFcserr : Nat := 0x11011C
/-- FLT[sel].HDRERR, RC, R413 (windowed, 01 R45). -/
abbrev fltAtHdrerr : Nat := 0x110120
/-- FLT[sel].MSECERR, RC, R413 (windowed, 01 R45). -/
abbrev fltAtMsecerr : Nat := 0x110124
/-- FLT[sel].PAUSECNT, RC, R413 (windowed, 01 R45). -/
abbrev fltAtPausecnt : Nat := 0x110128
/-- FLT[sel].DOWNCNT, RC, R413 (windowed, 01 R45). -/
abbrev fltAtDowncnt : Nat := 0x11012C
/-- FLT[sel].MSECCTL, RW, R413 (windowed, 01 R45). -/
abbrev fltAtMsecctl : Nat := 0x110130
/-- FLT[sel].MSECSTAT, RO, R413 (windowed, 01 R45). -/
abbrev fltAtMsecstat : Nat := 0x110134
/-- FLT[sel].TXPNL, RO, R413 (windowed, 01 R45). -/
abbrev fltAtTxpnl : Nat := 0x110138
/-- FLT[sel].TXPNH, RO, R413 (windowed, 01 R45). -/
abbrev fltAtTxpnh : Nat := 0x11013C
/-- FLT[sel].PSEQGAP, RC, R413 (windowed, 01 R45). -/
abbrev fltAtPseqgap : Nat := 0x110140
/-- SLU_SEL, RW, R415. -/
abbrev sluSel : Nat := 0x120000
/-- SLU_CTRL, RW, R415. -/
abbrev sluCtrl : Nat := 0x120004
/-- SLU_STAT, RO, R415. -/
abbrev sluStat : Nat := 0x120008
/-- SLU_ERR, W1C, R415. -/
abbrev sluErr : Nat := 0x12000C
/-- SLU_GCLIDX, RW, R415. -/
abbrev sluGclidx : Nat := 0x120010
/-- SLU[sel].MODE, RW, R415 (windowed, 01 R45). -/
abbrev sluAtMode : Nat := 0x120100
/-- SLU[sel].ADMNUM, RWL, R415 (windowed, 01 R45). -/
abbrev sluAtAdmnum : Nat := 0x120104
/-- SLU[sel].ADMGATE, RWL, R415 (windowed, 01 R45). -/
abbrev sluAtAdmgate : Nat := 0x120108
/-- SLU[sel].ADMINT, RWL, R415 (windowed, 01 R45). -/
abbrev sluAtAdmint : Nat := 0x12010C
/-- SLU[sel].ADMBASEF, RWL, R415 (windowed, 01 R45). -/
abbrev sluAtAdmbasef : Nat := 0x120110
/-- SLU[sel].ADMBASES0, RWL, R415 (windowed, 01 R45). -/
abbrev sluAtAdmbases0 : Nat := 0x120114
/-- SLU[sel].ADMBASES1, RWL, R415 (windowed, 01 R45). -/
abbrev sluAtAdmbases1 : Nat := 0x120118
/-- SLU[sel].ARM, RW, R415 (windowed, 01 R45). -/
abbrev sluAtArm : Nat := 0x12011C
/-- SLU[sel].OPNUM, RO, R415 (windowed, 01 R45). -/
abbrev sluAtOpnum : Nat := 0x120120
/-- SLU[sel].OPGATE, RO, R415 (windowed, 01 R45). -/
abbrev sluAtOpgate : Nat := 0x120124
/-- SLU[sel].OPINT, RO, R415 (windowed, 01 R45). -/
abbrev sluAtOpint : Nat := 0x120128
/-- SLU[sel].OPCYCLE, RO, R415 (windowed, 01 R45). -/
abbrev sluAtOpcycle : Nat := 0x12012C
/-- SLU[sel].CUR, RO, R415 (windowed, 01 R45). -/
abbrev sluAtCur : Nat := 0x120130
/-- SLU[sel].OVERRUN, RC, R415 (windowed, 01 R45). -/
abbrev sluAtOverrun : Nat := 0x120134
/-- SLU[sel].QDEPTH, RO, R415 (windowed, 01 R45). -/
abbrev sluAtQdepth0 : Nat := 0x120140
/-- SLU[sel].QDEPTH, RO, R415 (windowed, 01 R45). -/
abbrev sluAtQdepth1 : Nat := 0x120160
/-- SLU[sel].QDEPTH, RO, R415 (windowed, 01 R45). -/
abbrev sluAtQdepth2 : Nat := 0x120180
/-- SLU[sel].QDEPTH, RO, R415 (windowed, 01 R45). -/
abbrev sluAtQdepth3 : Nat := 0x1201A0
/-- SLU[sel].QDEPTH, RO, R415 (windowed, 01 R45). -/
abbrev sluAtQdepth4 : Nat := 0x1201C0
/-- SLU[sel].QMAXD, RO, R415 (windowed, 01 R45). -/
abbrev sluAtQmaxd0 : Nat := 0x120144
/-- SLU[sel].QMAXD, RO, R415 (windowed, 01 R45). -/
abbrev sluAtQmaxd1 : Nat := 0x120164
/-- SLU[sel].QMAXD, RO, R415 (windowed, 01 R45). -/
abbrev sluAtQmaxd2 : Nat := 0x120184
/-- SLU[sel].QMAXD, RO, R415 (windowed, 01 R45). -/
abbrev sluAtQmaxd3 : Nat := 0x1201A4
/-- SLU[sel].QMAXD, RO, R415 (windowed, 01 R45). -/
abbrev sluAtQmaxd4 : Nat := 0x1201C4
/-- SLU[sel].QSUML, RO, R415 (windowed, 01 R45). -/
abbrev sluAtQsuml0 : Nat := 0x120148
/-- SLU[sel].QSUML, RO, R415 (windowed, 01 R45). -/
abbrev sluAtQsuml1 : Nat := 0x120168
/-- SLU[sel].QSUML, RO, R415 (windowed, 01 R45). -/
abbrev sluAtQsuml2 : Nat := 0x120188
/-- SLU[sel].QSUML, RO, R415 (windowed, 01 R45). -/
abbrev sluAtQsuml3 : Nat := 0x1201A8
/-- SLU[sel].QSUML, RO, R415 (windowed, 01 R45). -/
abbrev sluAtQsuml4 : Nat := 0x1201C8
/-- SLU[sel].QSUMH, RO, R415 (windowed, 01 R45). -/
abbrev sluAtQsumh0 : Nat := 0x12014C
/-- SLU[sel].QSUMH, RO, R415 (windowed, 01 R45). -/
abbrev sluAtQsumh1 : Nat := 0x12016C
/-- SLU[sel].QSUMH, RO, R415 (windowed, 01 R45). -/
abbrev sluAtQsumh2 : Nat := 0x12018C
/-- SLU[sel].QSUMH, RO, R415 (windowed, 01 R45). -/
abbrev sluAtQsumh3 : Nat := 0x1201AC
/-- SLU[sel].QSUMH, RO, R415 (windowed, 01 R45). -/
abbrev sluAtQsumh4 : Nat := 0x1201CC
/-- SLU[sel].QMAXH, RO, R415 (windowed, 01 R45). -/
abbrev sluAtQmaxh0 : Nat := 0x120150
/-- SLU[sel].QMAXH, RO, R415 (windowed, 01 R45). -/
abbrev sluAtQmaxh1 : Nat := 0x120170
/-- SLU[sel].QMAXH, RO, R415 (windowed, 01 R45). -/
abbrev sluAtQmaxh2 : Nat := 0x120190
/-- SLU[sel].QMAXH, RO, R415 (windowed, 01 R45). -/
abbrev sluAtQmaxh3 : Nat := 0x1201B0
/-- SLU[sel].QMAXH, RO, R415 (windowed, 01 R45). -/
abbrev sluAtQmaxh4 : Nat := 0x1201D0
/-- SLU[sel].QNSAMP, RO, R415 (windowed, 01 R45). -/
abbrev sluAtQnsamp0 : Nat := 0x120154
/-- SLU[sel].QNSAMP, RO, R415 (windowed, 01 R45). -/
abbrev sluAtQnsamp1 : Nat := 0x120174
/-- SLU[sel].QNSAMP, RO, R415 (windowed, 01 R45). -/
abbrev sluAtQnsamp2 : Nat := 0x120194
/-- SLU[sel].QNSAMP, RO, R415 (windowed, 01 R45). -/
abbrev sluAtQnsamp3 : Nat := 0x1201B4
/-- SLU[sel].QNSAMP, RO, R415 (windowed, 01 R45). -/
abbrev sluAtQnsamp4 : Nat := 0x1201D4
/-- SLU[sel].QDISC, RC, R415 (windowed, 01 R45). -/
abbrev sluAtQdisc0 : Nat := 0x120158
/-- SLU[sel].QDISC, RC, R415 (windowed, 01 R45). -/
abbrev sluAtQdisc1 : Nat := 0x120178
/-- SLU[sel].QDISC, RC, R415 (windowed, 01 R45). -/
abbrev sluAtQdisc2 : Nat := 0x120198
/-- SLU[sel].QDISC, RC, R415 (windowed, 01 R45). -/
abbrev sluAtQdisc3 : Nat := 0x1201B8
/-- SLU[sel].QDISC, RC, R415 (windowed, 01 R45). -/
abbrev sluAtQdisc4 : Nat := 0x1201D8
/-- TRC_SEL, RW, R447. -/
abbrev trcSel : Nat := 0xE000
/-- TRC_CTRL, RW, R447. -/
abbrev trcCtrl : Nat := 0xE004
/-- TRC_STAT, RO, R447. -/
abbrev trcStat : Nat := 0xE008
/-- TRC_ERR, W1C, R447. -/
abbrev trcErr : Nat := 0xE00C
/-- TRC_BASEL, RWL, R447. -/
abbrev trcBasel : Nat := 0xE010
/-- TRC_BASEH, RWL, R447. -/
abbrev trcBaseh : Nat := 0xE014
/-- TRC_SIZE, RWL, R447. -/
abbrev trcSize : Nat := 0xE018
/-- TRC_SESSION, RW, R447. -/
abbrev trcSession : Nat := 0xE01C
/-- TRC_SESSGEN, RW, R447. -/
abbrev trcSessgen : Nat := 0xE020
/-- TRC_SYNCPER, RW, R447. -/
abbrev trcSyncper : Nat := 0xE024
/-- TRC_TRES, RW, R447. -/
abbrev trcTres : Nat := 0xE028
/-- TRC_RECMAX, RW, R447. -/
abbrev trcRecmax : Nat := 0xE02C
/-- TRC_TOKIDX, RW, R447. -/
abbrev trcTokidx : Nat := 0xE030
/-- TRC_TOKDATA, RW, R447. -/
abbrev trcTokdata : Nat := 0xE034
/-- TRC_TOKCTL, RW, R447. -/
abbrev trcTokctl : Nat := 0xE038
/-- TRC_LOSTCNT, RC, R447. -/
abbrev trcLostcnt : Nat := 0xE03C
/-- TRC[sel].CFG, RWL, R447 (windowed, 01 R45). -/
abbrev trcAtCfg : Nat := 0xE100
/-- TRC[sel].STAT, RO, R447 (windowed, 01 R45). -/
abbrev trcAtStat : Nat := 0xE104
/-- TRC[sel].WRPTRL, RO, R447 (windowed, 01 R45). -/
abbrev trcAtWrptrl : Nat := 0xE108
/-- TRC[sel].WRPTRH, RO, R447 (windowed, 01 R45). -/
abbrev trcAtWrptrh : Nat := 0xE10C
/-- TRC[sel].OFSL, RO, R447 (windowed, 01 R45). -/
abbrev trcAtOfsl : Nat := 0xE110
/-- TRC[sel].OFSH, RO, R447 (windowed, 01 R45). -/
abbrev trcAtOfsh : Nat := 0xE114
/-- TRC[sel].LOST, RC, R447 (windowed, 01 R45). -/
abbrev trcAtLost : Nat := 0xE118
/-- WCH_SEL, RW, R448. -/
abbrev wchSel : Nat := 0xF000
/-- WCH_CTRL, RW, R448. -/
abbrev wchCtrl : Nat := 0xF004
/-- WCH_STAT, RO, R448. -/
abbrev wchStat : Nat := 0xF008
/-- WCH_ERR, W1C, R448. -/
abbrev wchErr : Nat := 0xF00C
/-- WCH[sel].CFG, RWL, R448 (windowed, 01 R45). -/
abbrev wchAtCfg : Nat := 0xF100
/-- WCH[sel].EN, RW, R448 (windowed, 01 R45). -/
abbrev wchAtEn : Nat := 0xF104
/-- WCH[sel].LOL, RWL, R448 (windowed, 01 R45). -/
abbrev wchAtLol : Nat := 0xF108
/-- WCH[sel].LOH, RWL, R448 (windowed, 01 R45). -/
abbrev wchAtLoh : Nat := 0xF10C
/-- WCH[sel].HIL, RWL, R448 (windowed, 01 R45). -/
abbrev wchAtHil : Nat := 0xF110
/-- WCH[sel].HIH, RWL, R448 (windowed, 01 R45). -/
abbrev wchAtHih : Nat := 0xF114
/-- WCH[sel].HITCNT, RC, R448 (windowed, 01 R45). -/
abbrev wchAtHitcnt : Nat := 0xF118
/-- WCH[sel].LASTL, RO, R448 (windowed, 01 R45). -/
abbrev wchAtLastl : Nat := 0xF11C
/-- WCH[sel].LASTH, RO, R448 (windowed, 01 R45). -/
abbrev wchAtLasth : Nat := 0xF120
/-- WCH[sel].LASTINFO, RO, R448 (windowed, 01 R45). -/
abbrev wchAtLastinfo : Nat := 0xF124
/-- WCH[sel].HALT, RW, R448 (windowed, 01 R45). -/
abbrev wchAtHalt : Nat := 0xF128
/-- WFG_SEL, RW, R450. -/
abbrev wfgSel : Nat := 0x10000
/-- WFG_CTRL, RW, R450. -/
abbrev wfgCtrl : Nat := 0x10004
/-- WFG_STAT, RO, R450. -/
abbrev wfgStat : Nat := 0x10008
/-- WFG_ERR, W1C, R450. -/
abbrev wfgErr : Nat := 0x1000C
/-- WFG_PER, RW, R450. -/
abbrev wfgPer : Nat := 0x10010
/-- WFG_STABLE, RW, R450. -/
abbrev wfgStable : Nat := 0x10014
/-- WFG_RPTPER, RW, R450. -/
abbrev wfgRptper : Nat := 0x10018
/-- WFG_RPTCNT, RC, R450. -/
abbrev wfgRptcnt : Nat := 0x1001C
/-- WFG[sel].WORD, RO, R450 (windowed, 01 R45). -/
abbrev wfgAtWord : Nat := 0x10100
/-- WFG[sel].EDGE, RO, R450 (windowed, 01 R45). -/
abbrev wfgAtEdge : Nat := 0x10104
/-- WFG[sel].AGE, RO, R450 (windowed, 01 R45). -/
abbrev wfgAtAge : Nat := 0x10108
/-- WFA_SEL, RW, R451. -/
abbrev wfaSel : Nat := 0x140000
/-- WFA_CTRL, RW, R451. -/
abbrev wfaCtrl : Nat := 0x140004
/-- WFA_STAT, RO, R451. -/
abbrev wfaStat : Nat := 0x140008
/-- WFA_ERR, W1C, R451. -/
abbrev wfaErr : Nat := 0x14000C
/-- WFA_STALE, RW, R451. -/
abbrev wfaStale : Nat := 0x140010
/-- WFA_STALECNT, RC, R451. -/
abbrev wfaStalecnt : Nat := 0x140014
/-- WFA_SKIPCNT, RC, R451. -/
abbrev wfaSkipcnt : Nat := 0x140018
/-- WFA_ASML, RO, R451. -/
abbrev wfaAsml : Nat := 0x14001C
/-- WFA_ASMH, RO, R451. -/
abbrev wfaAsmh : Nat := 0x140020
/-- WFA[sel].RECAGE, RO, R451 (windowed, 01 R45). -/
abbrev wfaAtRecage : Nat := 0x140100
/-- WFA[sel].NEDGE, RO, R451 (windowed, 01 R45). -/
abbrev wfaAtNedge : Nat := 0x140104
/-- FLM_CTRL, RW, R468. -/
abbrev flmCtrl : Nat := 0x11000
/-- FLM_STAT, RO, R468. -/
abbrev flmStat : Nat := 0x11004
/-- FLM_ERR, W1C, R468. -/
abbrev flmErr : Nat := 0x11008
/-- FLM_TYPEMASK, RW, R468. -/
abbrev flmTypemask : Nat := 0x1100C
/-- FLM_MINLEN, RW, R468. -/
abbrev flmMinlen : Nat := 0x11010
/-- FLM_KEYPER, RW, R468. -/
abbrev flmKeyper : Nat := 0x11014
/-- FLM_CBUDGET, RW, R468. -/
abbrev flmCbudget : Nat := 0x11018
/-- FLM_INL, RO, R468. -/
abbrev flmInl : Nat := 0x11020
/-- FLM_INH, RO, R468. -/
abbrev flmInh : Nat := 0x11024
/-- FLM_OUTL, RO, R468. -/
abbrev flmOutl : Nat := 0x11028
/-- FLM_OUTH, RO, R468. -/
abbrev flmOuth : Nat := 0x1102C
/-- FLM_CFRMCNT, RC, R468. -/
abbrev flmCfrmcnt : Nat := 0x11030
/-- FLM_RAWCNT, RC, R468. -/
abbrev flmRawcnt : Nat := 0x11034
/-- FLM_ABANDCNT, RC, R468. -/
abbrev flmAbandcnt : Nat := 0x11038
/-- FLM_KEYCNT, RC, R468. -/
abbrev flmKeycnt : Nat := 0x1103C
/-- FLM_L0CNT, RC, R468. -/
abbrev flmL0cnt : Nat := 0x11040
/-- FLM_DECCNT, RC, R468. -/
abbrev flmDeccnt : Nat := 0x11080
/-- FLM_DERRCNT, RC, R468. -/
abbrev flmDerrcnt : Nat := 0x11084
/-- FLM_NOREFCNT, RC, R468. -/
abbrev flmNorefcnt : Nat := 0x11088
/-- FLM_VSKIPCNT, RC, R468. -/
abbrev flmVskipcnt : Nat := 0x1108C
/-- FLM_DLAST, RO, R468. -/
abbrev flmDlast : Nat := 0x11090
/-- FLM_DLASTSEQL, RO, R468. -/
abbrev flmDlastseql : Nat := 0x11094
/-- FLM_DLASTSEQH, RO, R468. -/
abbrev flmDlastseqh : Nat := 0x11098
/-- FLM_DLASTPOS, RO, R468. -/
abbrev flmDlastpos : Nat := 0x1109C
/-- MBX_SEL, RW, R492. -/
abbrev mbxSel : Nat := 0x12000
/-- MBX_STAT, RO, R492. -/
abbrev mbxStat : Nat := 0x12004
/-- MBX_EPOCH, RO, R492. -/
abbrev mbxEpoch : Nat := 0x12008
/-- MBX[sel].CFG, RW, R492 (windowed, 01 R45). -/
abbrev mbxAtCfg : Nat := 0x12100
/-- MBX[sel].TXDATA, WO, R492 (windowed, 01 R45). -/
abbrev mbxAtTxdata : Nat := 0x12104
/-- MBX[sel].TXSTAT, RO, R492 (windowed, 01 R45). -/
abbrev mbxAtTxstat : Nat := 0x12108
/-- MBX[sel].DBSET, WO, R492 (windowed, 01 R45). -/
abbrev mbxAtDbset : Nat := 0x1210C
/-- MBX[sel].PEND, RO, R492 (windowed, 01 R45). -/
abbrev mbxAtPend : Nat := 0x12110
/-- MBX[sel].TO, RW, R492 (windowed, 01 R45). -/
abbrev mbxAtTo : Nat := 0x12114
/-- MBX[sel].FLAGS, W1C, R492 (windowed, 01 R45). -/
abbrev mbxAtFlags : Nat := 0x12118
/-- MBX[sel].DROPCNT, RC, R492 (windowed, 01 R45). -/
abbrev mbxAtDropcnt : Nat := 0x1211C
/-- MBX[sel].FULLCNT, RC, R492 (windowed, 01 R45). -/
abbrev mbxAtFullcnt : Nat := 0x12120
/-- MBX[sel].RXDATA, RO, R492 (windowed, 01 R45). -/
abbrev mbxAtRxdata : Nat := 0x12124
/-- MBX[sel].RXSTAMP, RO, R492 (windowed, 01 R45). -/
abbrev mbxAtRxstamp : Nat := 0x12128
/-- MBX[sel].RXSTAT, RO, R492 (windowed, 01 R45). -/
abbrev mbxAtRxstat : Nat := 0x1212C
/-- MBX[sel].DB, W1C, R492 (windowed, 01 R45). -/
abbrev mbxAtDb : Nat := 0x12130
/-- MBX[sel].DBMASK, RW, R492 (windowed, 01 R45). -/
abbrev mbxAtDbmask : Nat := 0x12134
/-- MBX[sel].DBAGE, RO, R492 (windowed, 01 R45). -/
abbrev mbxAtDbage : Nat := 0x12138
/-- MBX[sel].DBCNT, RC, R492 (windowed, 01 R45). -/
abbrev mbxAtDbcnt : Nat := 0x1213C
/-- MBX[sel].TOCNT, RC, R492 (windowed, 01 R45). -/
abbrev mbxAtTocnt : Nat := 0x12140
/-- EVR_SEL, RW, R494. -/
abbrev evrSel : Nat := 0x13000
/-- EVR_CTRL, RW, R494. -/
abbrev evrCtrl : Nat := 0x13004
/-- EVR_STAT, RO, R494. -/
abbrev evrStat : Nat := 0x13008
/-- EVR_ERR, W1C, R494. -/
abbrev evrErr : Nat := 0x1300C
/-- EVR_NSEQ, RO, R494. -/
abbrev evrNseq : Nat := 0x13010
/-- EVR_RINGIDX, RW, R494. -/
abbrev evrRingidx : Nat := 0x13014
/-- EVR_SUPPCNT, RC, R494. -/
abbrev evrSuppcnt : Nat := 0x13018
/-- EVR_HLOSTCNT, RC, R494. -/
abbrev evrHlostcnt : Nat := 0x1301C
/-- EVR_FLUSHPER, RW, R494. -/
abbrev evrFlushper : Nat := 0x13020
/-- EVR_HFIRST, RO, R494. -/
abbrev evrHfirst : Nat := 0x13024
/-- EVR_HLAST, RO, R494. -/
abbrev evrHlast : Nat := 0x13028
/-- EVR_RD0–15, RO, R494. -/
abbrev evrRd : Nat := 0x13040
/-- EVR[sel].CFG, RW, R494 (windowed, 01 R45). -/
abbrev evrAtCfg : Nat := 0x13100
/-- EVR[sel].CNT, RC, R494 (windowed, 01 R45). -/
abbrev evrAtCnt : Nat := 0x13104
/-- EVR[sel].SUPP, RO, R494 (windowed, 01 R45). -/
abbrev evrAtSupp : Nat := 0x13108
/-- EVR[sel].TOKENS, RO, R494 (windowed, 01 R45). -/
abbrev evrAtTokens : Nat := 0x1310C
/-- RAS_SEL, RW, R514. -/
abbrev rasSel : Nat := 0x14000
/-- RAS_CTRL, RW, R514. -/
abbrev rasCtrl : Nat := 0x14004
/-- RAS_STAT, RO, R514. -/
abbrev rasStat : Nat := 0x14008
/-- RAS_ERR, W1C, R514. -/
abbrev rasErr : Nat := 0x1400C
/-- RAS_CECNT, RC, R514. -/
abbrev rasCecnt : Nat := 0x14010
/-- RAS_UECNT, RC, R514. -/
abbrev rasUecnt : Nat := 0x14014
/-- RAS_PRSTCNT, RC, R514. -/
abbrev rasPrstcnt : Nat := 0x14018
/-- RAS_PRST, RW, R514. -/
abbrev rasPrst : Nat := 0x1401C
/-- RAS_FLIPL, RW, R514. -/
abbrev rasFlipl : Nat := 0x14020
/-- RAS_FLIPH, RW, R514. -/
abbrev rasFliph : Nat := 0x14024
/-- RAS_FLIPCTL, RW, R514. -/
abbrev rasFlipctl : Nat := 0x14028
/-- RAS_DMASTAT, RO, R514. -/
abbrev rasDmastat : Nat := 0x1402C
/-- RAS[sel].WORDS, RO, R514 (windowed, 01 R45). -/
abbrev rasAtWords : Nat := 0x14100
/-- RAS[sel].SCRUBPER, RW, R514 (windowed, 01 R45). -/
abbrev rasAtScrubper : Nat := 0x14104
/-- RAS[sel].SCRUBPOS, RO, R514 (windowed, 01 R45). -/
abbrev rasAtScrubpos : Nat := 0x14108
/-- RAS[sel].PASSCNT, RC, R514 (windowed, 01 R45). -/
abbrev rasAtPasscnt : Nat := 0x1410C
/-- RAS[sel].CECNT, RC, R514 (windowed, 01 R45). -/
abbrev rasAtCecnt : Nat := 0x14110
/-- RAS[sel].UECNT, RC, R514 (windowed, 01 R45). -/
abbrev rasAtUecnt : Nat := 0x14114
/-- RAS[sel].CEOVF, RC, R514 (windowed, 01 R45). -/
abbrev rasAtCeovf : Nat := 0x14118
/-- RAS[sel].CEIDX, RW, R514 (windowed, 01 R45). -/
abbrev rasAtCeidx : Nat := 0x1411C
/-- RAS[sel].CEADDR, RO, R514 (windowed, 01 R45). -/
abbrev rasAtCeaddr : Nat := 0x14120
/-- RAS[sel].CEINFO, RO, R514 (windowed, 01 R45). -/
abbrev rasAtCeinfo : Nat := 0x14124
/-- RAS[sel].CECLR, RW, R514 (windowed, 01 R45). -/
abbrev rasAtCeclr : Nat := 0x14128
/-- RAS[sel].REMAP0–3, RO, R514 (windowed, 01 R45). -/
abbrev rasAtRemap : Nat := 0x14130
/-- RAS[sel].LASTUE, RO, R514 (windowed, 01 R45). -/
abbrev rasAtLastue : Nat := 0x14140
/-- PAT_SEL, RW, R548. -/
abbrev patSel : Nat := 0x15000
/-- PAT_CTRL, RW, R548. -/
abbrev patCtrl : Nat := 0x15004
/-- PAT_STAT, RO, R548. -/
abbrev patStat : Nat := 0x15008
/-- PAT_ERR, W1C, R548. -/
abbrev patErr : Nat := 0x1500C
/-- PAT_LOADCTL, RW, R548. -/
abbrev patLoadctl : Nat := 0x15010
/-- PAT_LOADLEN, RW, R548. -/
abbrev patLoadlen : Nat := 0x15014
/-- PAT_DATA, WO, R548. -/
abbrev patData : Nat := 0x15018
/-- PAT_LOADPOS, RO, R548. -/
abbrev patLoadpos : Nat := 0x1501C
/-- PAT_MEAS0–11, RO, R548. -/
abbrev patMeas : Nat := 0x15020
/-- PAT_INSGEN, RO, R548. -/
abbrev patInsgen : Nat := 0x15050
/-- PAT_ARB, RO, R548. -/
abbrev patArb : Nat := 0x15054
/-- PAT_ARBMIN, RO, R548. -/
abbrev patArbmin : Nat := 0x15058
/-- PAT_ARBMIND, RO, R548. -/
abbrev patArbmind : Nat := 0x1505C
/-- PAT_EFFL, RO, R548. -/
abbrev patEffl : Nat := 0x15060
/-- PAT_EFFH, RO, R548. -/
abbrev patEffh : Nat := 0x15064
/-- PAT_OWNERL, RO, R548. -/
abbrev patOwnerl : Nat := 0x15068
/-- PAT_OWNERH, RO, R548. -/
abbrev patOwnerh : Nat := 0x1506C
/-- PAT_FWSTAT, RO, R548. -/
abbrev patFwstat : Nat := 0x15070
/-- PAT_FWCTL, RW, R548. -/
abbrev patFwctl : Nat := 0x15074
/-- PAT_LOADCNT, RC, R548. -/
abbrev patLoadcnt : Nat := 0x15078
/-- PAT_REJCNT, RC, R548. -/
abbrev patRejcnt : Nat := 0x1507C
/-- PAT[sel].SECSTAT, RO, R548 (windowed, 01 R45). -/
abbrev patAtSecstat : Nat := 0x15100
/-- PAT[sel].SECLEN, RO, R548 (windowed, 01 R45). -/
abbrev patAtSeclen : Nat := 0x15104
/-- PAT[sel].SECOFS, RW, R548 (windowed, 01 R45). -/
abbrev patAtSecofs : Nat := 0x15108
/-- PAT[sel].SECDATA, RO, R548 (windowed, 01 R45). -/
abbrev patAtSecdata : Nat := 0x1510C
/-- SEC_STAT, RO, R549. -/
abbrev secStat : Nat := 0x16000
/-- SEC_ERR, W1C, R549. -/
abbrev secErr : Nat := 0x16004
/-- SEC_DEVID0–3, RO, R549. -/
abbrev secDevid : Nat := 0x16008
/-- SEC_NONCE0–7, RW, R549. -/
abbrev secNonce : Nat := 0x16018
/-- SEC_ATTCTL, RW, R549. -/
abbrev secAttctl : Nat := 0x16038
/-- SEC_BUFIDX, RW, R549. -/
abbrev secBufidx : Nat := 0x1603C
/-- SEC_BUFDATA, RO, R549. -/
abbrev secBufdata : Nat := 0x16040
/-- SEC_BUFLEN, RO, R549. -/
abbrev secBuflen : Nat := 0x16044
/-- SEC_CMDIDX, RW, R549. -/
abbrev secCmdidx : Nat := 0x16048
/-- SEC_CMDDATA, RW, R549. -/
abbrev secCmddata : Nat := 0x1604C
/-- SEC_CMDSTAT, RW, R549. -/
abbrev secCmdstat : Nat := 0x16050
/-- SEC_ATTCNT, RC, R549. -/
abbrev secAttcnt : Nat := 0x16054
/-- SEC_CMDCNT, RC, R549. -/
abbrev secCmdcnt : Nat := 0x16058
/-- AUD_STAT, RO, R550. -/
abbrev audStat : Nat := 0x17000
/-- AUD_ERR, W1C, R550. -/
abbrev audErr : Nat := 0x17004
/-- AUD_ASEQ, RO, R550. -/
abbrev audAseq : Nat := 0x17008
/-- AUD_LOSTCNT, RC, R550. -/
abbrev audLostcnt : Nat := 0x1700C
/-- AUD_RINGIDX, RW, R550. -/
abbrev audRingidx : Nat := 0x17010
/-- AUD_RD0–33, RO, R550. -/
abbrev audRd : Nat := 0x17040
/-- AUD_FFIRST, RO, R550. -/
abbrev audFfirst : Nat := 0x170D0
/-- AUD_FLAST, RO, R550. -/
abbrev audFlast : Nat := 0x170D4
/-- CRU_STAT, RO, R568. -/
abbrev cruStat : Nat := 0x150000
/-- CRU_EMJL, RO, R568. -/
abbrev cruEmjl : Nat := 0x150004
/-- CRU_EMJH, RO, R568. -/
abbrev cruEmjh : Nat := 0x150008
/-- CRU_EFRAC, RO, R568. -/
abbrev cruEfrac : Nat := 0x15000C
/-- CRU_TIMEF, RO, R568. -/
abbrev cruTimef : Nat := 0x150010
/-- CRU_TIMES0, RO, R568. -/
abbrev cruTimes0 : Nat := 0x150014
/-- CRU_TIMES1, RO, R568. -/
abbrev cruTimes1 : Nat := 0x150018
/-- CRU_VLAST, RO, R568. -/
abbrev cruVlast : Nat := 0x15001C
/-- CRU_ILAST, RO, R568. -/
abbrev cruIlast : Nat := 0x150020
/-- CRU_RSEQ, RO, R568. -/
abbrev cruRseq : Nat := 0x150024
/-- CRU_LOGN, RO, R568. -/
abbrev cruLogn : Nat := 0x150028
/-- CRU_SWID, RO, R568. -/
abbrev cruSwid : Nat := 0x15002C
/-- CRU_SWCRC, RO, R568. -/
abbrev cruSwcrc : Nat := 0x150030
/-- CRU_PARCRC, RO, R568. -/
abbrev cruParcrc : Nat := 0x150034
/-- CRU_MID0–3, RO, R568. -/
abbrev cruMid : Nat := 0x150038
/-- CRU_REVCNT, RO, R568. -/
abbrev cruRevcnt : Nat := 0x150048
/-- CRU_OVRCNT, RO, R568. -/
abbrev cruOvrcnt : Nat := 0x15004C
/-- CRU_LINKERR, RO, R568. -/
abbrev cruLinkerr : Nat := 0x150050
/-- CRU_PAR0–7, RO, R568. -/
abbrev cruPar : Nat := 0x150080
/-- CRU_LOGIDX, RW, R568. -/
abbrev cruLogidx : Nat := 0x150100
/-- CRU_LOG0–7, RO, R568. -/
abbrev cruLog : Nat := 0x150104
/-- CRU_ALLOCCFG, RW, R568. -/
abbrev cruAlloccfg : Nat := 0x150140
/-- PWR_SEL, RW, R594. -/
abbrev pwrSel : Nat := 0x2000
/-- PWR_REQ, RW, R594. -/
abbrev pwrReq : Nat := 0x2004
/-- PWR_STAT, RO, R594. -/
abbrev pwrStat : Nat := 0x2008
/-- PWR_ERR, W1C, R594. -/
abbrev pwrErr : Nat := 0x200C
/-- PWR_CTRL, RW, R594. -/
abbrev pwrCtrl : Nat := 0x2010
/-- PWR_DRAINTO, RW, R594. -/
abbrev pwrDrainto : Nat := 0x2014
/-- PWR_LADIDLE, RW, R594. -/
abbrev pwrLadidle : Nat := 0x2018
/-- PWR_TRANCNT, RC, R594. -/
abbrev pwrTrancnt : Nat := 0x201C
/-- PWR_WAKESRC, RC, R594. -/
abbrev pwrWakesrc : Nat := 0x2020
/-- PWR_ARBMAX0–5, RC, R594. -/
abbrev pwrArbmax : Nat := 0x2040
/-- PWR[sel].CMPCFG, RWL, R594 (windowed, 01 R45). -/
abbrev pwrAtCmpcfg : Nat := 0x2100
/-- PWR[sel].CMPEN, RW, R594 (windowed, 01 R45). -/
abbrev pwrAtCmpen : Nat := 0x2104
/-- PWR[sel].CMPTHR, RWL, R594 (windowed, 01 R45). -/
abbrev pwrAtCmpthr : Nat := 0x2108
/-- PWR[sel].CMPHYST, RWL, R594 (windowed, 01 R45). -/
abbrev pwrAtCmphyst : Nat := 0x210C
/-- PWR[sel].CMPSTAT, RO, R594 (windowed, 01 R45). -/
abbrev pwrAtCmpstat : Nat := 0x2110
/-- PWR[sel].CMPVAL, RO, R594 (windowed, 01 R45). -/
abbrev pwrAtCmpval : Nat := 0x2114
/-- PWR[sel].CMPCNT, RC, R594 (windowed, 01 R45). -/
abbrev pwrAtCmpcnt : Nat := 0x2118
/-- GLB_SEL, RW, R596. -/
abbrev glbSel : Nat := 0x0
/-- GLB_ID, RO, R596. -/
abbrev glbId : Nat := 0x4
/-- GLB_STATE, RO, R596. -/
abbrev glbState : Nat := 0x8
/-- GLB_RSTCAUSE, RO, R596. -/
abbrev glbRstcause : Nat := 0xC
/-- GLB_PAIRSTAT, RO, R596. -/
abbrev glbPairstat : Nat := 0x10
/-- GLB_PAIRTO, RW, R596. -/
abbrev glbPairto : Nat := 0x14
/-- GLB_LOCKERR, RC, R596. -/
abbrev glbLockerr : Nat := 0x18
/-- GLB_IRQSTAT, W1C, R596. -/
abbrev glbIrqstat : Nat := 0x20
/-- GLB_IRQEN, RW, R596. -/
abbrev glbIrqen : Nat := 0x24
/-- GLB_IRQMAP0–2, RW, R596. -/
abbrev glbIrqmap : Nat := 0x28
/-- GLB_OFFMAP0–7, RO, R596. -/
abbrev glbOffmap : Nat := 0x190

end Reg

/-- Register table, piece 0. -/
def regTable0 : List RegRow := [
  ⟨Reg.glbNodeaddr, 1, .ro, 0x0, 0x0, false, true, true, false, false⟩,
  ⟨Reg.glbAddrdup, 1, .rc, 0x0, 0x0, false, true, true, false, false⟩,
  ⟨Reg.glbAddrfmt, 1, .rc, 0x0, 0x0, false, true, true, false, false⟩,
  ⟨Reg.glbAccerr, 1, .rc, 0x0, 0x0, false, true, true, false, false⟩,
  ⟨Reg.glbStraps, 1, .ro, 0x0, 0x0, false, false, true, false, false⟩,
  ⟨Reg.glbRolecfg, 1, .rw, 0x3, 0x0, false, false, true, false, true⟩,
  ⟨Reg.glbRolestat, 1, .ro, 0x0, 0x0, false, false, true, false, false⟩,
  ⟨Reg.glbGterm, 1, .ro, 0x0, 0x0, false, false, true, false, false⟩,
  ⟨Reg.glbSterm, 1, .ro, 0x0, 0x0, false, false, true, false, false⟩,
  ⟨Reg.glbChainstat, 1, .ro, 0x0, 0x0, false, false, true, false, false⟩,
  ⟨Reg.glbChainlast, 1, .ro, 0x0, 0x0, false, false, true, false, false⟩,
  ⟨Reg.glbPxslot, 16, .rw, 0x800000FF, 0x0, false, false, true, false, true⟩,
  ⟨Reg.glbPxstat, 1, .w1c, 0xFFFFFFFF, 0x0, false, false, true, false, false⟩,
  ⟨Reg.timSel, 1, .rw, 0xFFFF, 0x0, false, true, true, false, false⟩,
  ⟨Reg.timCtrl, 1, .rw, 0x7, 0x1, false, true, true, false, true⟩,
  ⟨Reg.timStat, 1, .ro, 0x0, 0x5, false, true, true, false, false⟩,
  ⟨Reg.timErr, 1, .w1c, 0xFF, 0x0, false, true, true, false, false⟩,
  ⟨Reg.timNowf, 1, .ro, 0x0, 0x0, false, true, true, true, false⟩,
  ⟨Reg.timNows0, 1, .ro, 0x0, 0x0, false, true, true, false, false⟩,
  ⟨Reg.timNows1, 1, .ro, 0x0, 0x0, false, true, true, false, false⟩,
  ⟨Reg.timPherr, 1, .ro, 0x0, 0x0, false, true, true, false, false⟩,
  ⟨Reg.timFreq, 1, .ro, 0x0, 0x0, false, true, true, false, false⟩,
  ⟨Reg.timStepcnt, 1, .rc, 0x0, 0x0, false, true, true, false, false⟩,
  ⟨Reg.timOutlier, 1, .rc, 0x0, 0x0, false, true, true, false, false⟩,
  ⟨Reg.timEp, 1, .ro, 0x0, 0x64, false, true, true, false, false⟩,
  ⟨Reg.timEpf, 1, .ro, 0x0, 0x64, false, true, true, false, false⟩,
  ⟨Reg.timEpnext, 1, .rw, 0x1FFFF, 0x64, false, true, true, false, true⟩,
  ⟨Reg.timEpfnext, 1, .rw, 0x1FFFF, 0x64, false, true, true, false, true⟩,
  ⟨Reg.timEpswul, 1, .rw, 0xFFFFFFFF, 0x0, false, true, true, true, true⟩,
  ⟨Reg.timEpswuh, 1, .rw, 0xFFFFFFFF, 0x0, false, true, true, false, true⟩,
  ⟨Reg.timEpswctl, 1, .rw, 0x0, 0x0, false, true, true, false, true⟩,
  ⟨Reg.timEpnl, 1, .ro, 0x0, 0x0, false, true, true, true, false⟩,
  ⟨Reg.timEpnh, 1, .ro, 0x0, 0x0, false, true, true, false, false⟩,
  ⟨Reg.timFepnl, 1, .ro, 0x0, 0x0, false, true, true, true, false⟩,
  ⟨Reg.timFepnh, 1, .ro, 0x0, 0x0, false, true, true, false, false⟩,
  ⟨Reg.timCapnom, 1, .rw, 0xFFF, 0x7D0, false, true, true, false, true⟩,
  ⟨Reg.timCapper, 1, .ro, 0x0, 0x0, false, true, true, false, false⟩,
  ⟨Reg.timStretch, 1, .ro, 0x0, 0x0, false, true, true, false, false⟩,
  ⟨Reg.timClkstopcnt, 1, .rc, 0x0, 0x0, false, true, true, false, false⟩,
  ⟨Reg.timPtpcfg, 1, .rw, 0xFFFF, 0x0, false, false, true, false, true⟩,
  ⟨Reg.timPtpofs, 1, .ro, 0x0, 0x0, false, false, true, false, false⟩,
  ⟨Reg.timAtCfg, 1, .rwl, 0x301FFF7, 0x0, true, true, true, false, true⟩,
  ⟨Reg.timAtArm, 1, .rw, 0x1, 0x0, true, true, true, false, true⟩,
  ⟨Reg.timAtAtf, 1, .rwl, 0xFFFFFFFF, 0x0, true, true, true, true, true⟩,
  ⟨Reg.timAtAts0, 1, .rwl, 0xFFFFFFFF, 0x0, true, true, true, false, true⟩,
  ⟨Reg.timAtAts1, 1, .rwl, 0xFFFF, 0x0, true, true, true, false, true⟩,
  ⟨Reg.timAtPeru, 1, .rwl, 0x1FFFF, 0x64, true, true, true, false, true⟩,
  ⟨Reg.timAtOfs, 1, .rwl, 0x3FFFFFFF, 0x0, true, true, true, false, true⟩,
  ⟨Reg.timAtFirecnt, 1, .ro, 0x0, 0x0, true, true, true, false, false⟩,
  ⟨Reg.timAtStat, 1, .w1c, 0x3, 0x0, true, true, true, false, false⟩]

/-- Register table, piece 1. -/
def regTable1 : List RegRow := [
  ⟨Reg.capSel, 1, .rw, 0xFFFF, 0x0, false, true, true, false, false⟩,
  ⟨Reg.capStat, 1, .ro, 0x0, 0x0, false, true, true, false, false⟩,
  ⟨Reg.capErr, 1, .w1c, 0x3F, 0x0, false, true, true, false, false⟩,
  ⟨Reg.capOvfcnt, 1, .rc, 0x0, 0x0, false, true, true, false, false⟩,
  ⟨Reg.capConvbusy, 1, .rc, 0x0, 0x0, false, true, true, false, false⟩,
  ⟨Reg.capSenserr, 1, .rc, 0x0, 0x0, false, true, true, false, false⟩,
  ⟨Reg.capSamplost, 1, .rc, 0x0, 0x0, false, true, true, false, false⟩,
  ⟨Reg.capAtCfg, 1, .ro, 0x0, 0x0, true, true, true, false, false⟩,
  ⟨Reg.capAtSrc0, 1, .ro, 0x0, 0x0, true, true, true, false, false⟩,
  ⟨Reg.capAtSrc1, 1, .ro, 0x0, 0x0, true, true, true, false, false⟩,
  ⟨Reg.capAtLivel, 1, .ro, 0x0, 0x0, true, true, true, true, false⟩,
  ⟨Reg.capAtLiveh, 1, .ro, 0x0, 0x0, true, true, true, false, false⟩,
  ⟨Reg.capAtCuml, 1, .ro, 0x0, 0x0, true, true, true, true, false⟩,
  ⟨Reg.capAtCumh, 1, .ro, 0x0, 0x0, true, true, true, false, false⟩,
  ⟨Reg.capAtStat, 1, .w1c, 0x3, 0x0, true, true, true, false, false⟩,
  ⟨Reg.capAtPsicfg, 1, .rw, 0x3F, 0x0, true, true, true, false, true⟩,
  ⟨Reg.capAtPsiper, 1, .rw, 0xFFFFFFFF, 0x0, true, true, true, false, true⟩,
  ⟨Reg.snpSel, 1, .rw, 0xFFFF, 0x0, false, true, true, false, false⟩,
  ⟨Reg.snpCfg, 1, .ro, 0x0, 0x10, false, true, true, false, false⟩,
  ⟨Reg.snpLatest, 1, .ro, 0x0, 0x0, false, true, true, false, false⟩,
  ⟨Reg.snpHold, 1, .rw, 0xFFFF, 0x0, false, true, true, false, true⟩,
  ⟨Reg.snpHoldto, 1, .rw, 0xFFFF, 0x64, false, true, true, false, true⟩,
  ⟨Reg.snpErr, 1, .w1c, 0x7, 0x0, false, true, true, false, false⟩,
  ⟨Reg.snpSkipcnt, 1, .rc, 0x0, 0x0, false, true, true, false, false⟩,
  ⟨Reg.snpWrcnt, 1, .ro, 0x0, 0x0, false, true, true, false, false⟩,
  ⟨Reg.snpAtState, 1, .ro, 0x0, 0x0, true, true, true, false, false⟩,
  ⟨Reg.snpAtEpnl, 1, .ro, 0x0, 0x0, true, true, true, true, false⟩,
  ⟨Reg.snpAtEpnh, 1, .ro, 0x0, 0x0, true, true, true, false, false⟩,
  ⟨Reg.rdxSel, 1, .rw, 0xFFFF, 0x0, false, true, true, false, false⟩,
  ⟨Reg.rdxStat, 1, .ro, 0x0, 0x0, false, true, true, false, false⟩,
  ⟨Reg.rdxErr, 1, .w1c, 0x1F, 0x0, false, true, true, false, false⟩,
  ⟨Reg.rdxFoldcnt, 1, .rc, 0x0, 0x0, false, true, true, false, false⟩,
  ⟨Reg.rdxFwdcnt, 1, .rc, 0x0, 0x0, false, true, true, false, false⟩,
  ⟨Reg.rdxBadcnt, 1, .rc, 0x0, 0x0, false, true, true, false, false⟩,
  ⟨Reg.rdxPhstep, 1, .ro, 0x0, 0xFFFFFF, false, true, true, false, false⟩,
  ⟨Reg.rdxPhmask, 1, .ro, 0x0, 0x0, false, true, true, false, false⟩,
  ⟨Reg.rdxInfl, 1, .ro, 0x0, 0x0, false, false, true, false, false⟩,
  ⟨Reg.rdxFullcnt, 1, .rc, 0x0, 0x0, false, false, true, false, false⟩,
  ⟨Reg.rdxLatecnt, 1, .rc, 0x0, 0x0, false, false, true, false, false⟩,
  ⟨Reg.rdxDupcnt, 1, .rc, 0x0, 0x0, false, false, true, false, false⟩,
  ⟨Reg.rdxSkipcnt, 1, .rc, 0x0, 0x0, false, false, true, false, false⟩,
  ⟨Reg.rdxLostcnt, 1, .rc, 0x0, 0x0, false, false, true, false, false⟩,
  ⟨Reg.rdxPartcnt, 1, .rc, 0x0, 0x0, false, false, true, false, false⟩,
  ⟨Reg.rdxStragcnt, 1, .ro, 0x0, 0x0, false, false, true, false, false⟩,
  ⟨Reg.rdxAtCfg, 1, .ro, 0x0, 0x0, true, true, true, false, false⟩,
  ⟨Reg.rdxAtTimes, 1, .ro, 0x0, 0x0, true, true, true, false, false⟩,
  ⟨Reg.rdxAtDltg, 1, .ro, 0x0, 0x0, true, true, true, false, false⟩,
  ⟨Reg.rdxAtDls, 1, .ro, 0x0, 0x0, true, true, true, false, false⟩,
  ⟨Reg.rdxAtLastl, 1, .ro, 0x0, 0x0, true, true, true, true, false⟩,
  ⟨Reg.rdxAtLasth, 1, .ro, 0x0, 0x0, true, true, true, false, false⟩]

/-- Register table, piece 2. -/
def regTable2 : List RegRow := [
  ⟨Reg.rdxAtLastst, 1, .ro, 0x0, 0x0, true, false, true, false, false⟩,
  ⟨Reg.rdxAtVoidcnt, 1, .rc, 0x0, 0x0, true, true, true, false, false⟩,
  ⟨Reg.rdxAtSthr, 1, .ro, 0x0, 0x0, true, true, true, false, false⟩,
  ⟨Reg.rdxAtSkn, 1, .ro, 0x0, 0x0, true, true, true, false, false⟩,
  ⟨Reg.rdxStragmap, 8, .ro, 0x0, 0x0, false, false, true, false, false⟩,
  ⟨Reg.rdlSel, 1, .rw, 0xFFFF, 0x0, false, true, true, false, false⟩,
  ⟨Reg.rdlStat, 1, .ro, 0x0, 0x0, false, true, true, false, false⟩,
  ⟨Reg.rdlErr, 1, .w1c, 0x7, 0x0, false, true, true, false, false⟩,
  ⟨Reg.rdlEpnl, 1, .ro, 0x0, 0x0, false, true, true, true, false⟩,
  ⟨Reg.rdlEpnh, 1, .ro, 0x0, 0x0, false, true, true, false, false⟩,
  ⟨Reg.rdlView, 1, .rw, 0x1, 0x0, false, true, true, false, false⟩,
  ⟨Reg.rdlCutidx, 1, .rw, 0xFF, 0x1, false, true, true, false, false⟩,
  ⟨Reg.rdlAtCfg, 1, .ro, 0x0, 0x0, true, true, true, false, false⟩,
  ⟨Reg.rdlAtArg, 1, .ro, 0x0, 0x0, true, true, true, false, false⟩,
  ⟨Reg.rdlAtMaxage, 1, .ro, 0x0, 0x0, true, true, true, false, false⟩,
  ⟨Reg.rdlAtCut, 1, .ro, 0x0, 0x0, true, true, true, false, false⟩,
  ⟨Reg.rdlAtValue, 1, .ro, 0x0, 0x0, true, true, true, false, false⟩,
  ⟨Reg.rdlAtCode, 1, .ro, 0x0, 0x0, true, true, true, false, false⟩,
  ⟨Reg.rdlAtMisscnt, 1, .rc, 0x0, 0x0, true, true, true, false, false⟩,
  ⟨Reg.treSel, 1, .rw, 0xFFFF, 0x0, false, true, true, false, false⟩,
  ⟨Reg.treCtrl, 1, .rw, 0x1, 0x1, false, true, true, false, true⟩,
  ⟨Reg.treStat, 1, .ro, 0x0, 0x0, false, true, true, false, false⟩,
  ⟨Reg.treErr, 1, .w1c, 0x7F, 0x0, false, true, true, false, false⟩,
  ⟨Reg.treSwapl, 1, .rw, 0xFFFFFFFF, 0x0, false, true, true, true, true⟩,
  ⟨Reg.treSwaph, 1, .rw, 0xFFFFFFFF, 0x0, false, true, true, false, true⟩,
  ⟨Reg.treSwapctl, 1, .rw, 0x0, 0x0, false, true, true, false, true⟩,
  ⟨Reg.treRepaircnt, 1, .rc, 0x0, 0x0, false, true, true, false, false⟩,
  ⟨Reg.treScrubper, 1, .rw, 0xFFFF, 0x40, false, true, true, false, true⟩,
  ⟨Reg.treSwapcnt, 1, .ro, 0x0, 0x0, false, true, true, false, false⟩,
  ⟨Reg.treView, 1, .rw, 0x1, 0x0, false, true, true, false, false⟩,
  ⟨Reg.treActmask, 1, .ro, 0x0, 0x0, false, true, true, false, false⟩,
  ⟨Reg.treShdmask, 1, .ro, 0x0, 0x0, false, true, true, false, false⟩,
  ⟨Reg.treImgpage, 1, .rw, 0x3, 0x0, false, false, true, false, false⟩,
  ⟨Reg.treAtCfg, 1, .ro, 0x0, 0x0, true, true, true, false, false⟩,
  ⟨Reg.treAtEnsid, 1, .ro, 0x0, 0x0, true, true, true, false, false⟩,
  ⟨Reg.treAtRange, 1, .ro, 0x0, 0x0, true, true, true, false, false⟩,
  ⟨Reg.treAtBias, 1, .ro, 0x0, 0x0, true, true, true, false, false⟩,
  ⟨Reg.treAtT1l, 1, .ro, 0x0, 0x0, true, true, true, true, false⟩,
  ⟨Reg.treAtT1h, 1, .ro, 0x0, 0x0, true, true, true, false, false⟩,
  ⟨Reg.treAtT2l, 1, .ro, 0x0, 0x0, true, true, true, true, false⟩,
  ⟨Reg.treAtT2h, 1, .ro, 0x0, 0x0, true, true, true, false, false⟩,
  ⟨Reg.treAtT3l, 1, .ro, 0x0, 0x0, true, true, true, true, false⟩,
  ⟨Reg.treAtT3h, 1, .ro, 0x0, 0x0, true, true, true, false, false⟩,
  ⟨Reg.treAtRise, 1, .ro, 0x0, 0x0, true, true, true, false, false⟩,
  ⟨Reg.treAtFall, 1, .ro, 0x0, 0x0, true, true, true, false, false⟩,
  ⟨Reg.treAtVerd, 1, .ro, 0x0, 0x0, true, true, true, false, false⟩,
  ⟨Reg.treAtScorel, 1, .ro, 0x0, 0x0, true, true, true, true, false⟩,
  ⟨Reg.treAtScoreh, 1, .ro, 0x0, 0x0, true, true, true, false, false⟩,
  ⟨Reg.treAtEpnl, 1, .ro, 0x0, 0x0, true, true, true, true, false⟩,
  ⟨Reg.treAtEpnh, 1, .ro, 0x0, 0x0, true, true, true, false, false⟩]

/-- Register table, piece 3. -/
def regTable3 : List RegRow := [
  ⟨Reg.treAtOverrun, 1, .rc, 0x0, 0x0, true, true, true, false, false⟩,
  ⟨Reg.treAtWeirctl, 1, .rw, 0x0, 0x0, true, true, true, false, true⟩,
  ⟨Reg.treAtHyst, 1, .ro, 0x0, 0x0, true, true, true, false, false⟩,
  ⟨Reg.treAtHystf, 1, .ro, 0x0, 0x0, true, true, true, false, false⟩,
  ⟨Reg.dnsSel, 1, .rw, 0xFFFF, 0x0, false, true, true, false, false⟩,
  ⟨Reg.dnsCtrl, 1, .rw, 0x1, 0x1, false, true, true, false, true⟩,
  ⟨Reg.dnsStat, 1, .ro, 0x0, 0x0, false, true, true, false, false⟩,
  ⟨Reg.dnsErr, 1, .w1c, 0x1F, 0x0, false, true, true, false, false⟩,
  ⟨Reg.dnsView, 1, .rw, 0x1, 0x0, false, true, true, false, false⟩,
  ⟨Reg.dnsOutidx, 1, .rw, 0xF, 0x0, false, true, true, false, false⟩,
  ⟨Reg.dnsAtCfg, 1, .ro, 0x0, 0x0, true, true, true, false, false⟩,
  ⟨Reg.dnsAtModelid, 1, .ro, 0x0, 0x0, true, true, true, false, false⟩,
  ⟨Reg.dnsAtShape, 1, .ro, 0x0, 0x0, true, true, true, false, false⟩,
  ⟨Reg.dnsAtEpnl, 1, .ro, 0x0, 0x0, true, true, true, true, false⟩,
  ⟨Reg.dnsAtEpnh, 1, .ro, 0x0, 0x0, true, true, true, false, false⟩,
  ⟨Reg.dnsAtOverrun, 1, .rc, 0x0, 0x0, true, true, true, false, false⟩,
  ⟨Reg.dnsAtWeirctl, 1, .rw, 0x0, 0x0, true, true, true, false, true⟩,
  ⟨Reg.dnsAtOcfg, 1, .ro, 0x0, 0x0, true, true, true, false, false⟩,
  ⟨Reg.dnsAtOval, 1, .ro, 0x0, 0x0, true, true, true, false, false⟩,
  ⟨Reg.dnsAtOverd, 1, .ro, 0x0, 0x0, true, true, true, false, false⟩,
  ⟨Reg.dnsAtOjsl, 1, .ro, 0x0, 0x0, true, true, true, true, false⟩,
  ⟨Reg.dnsAtOjsh, 1, .ro, 0x0, 0x0, true, true, true, false, false⟩,
  ⟨Reg.drfSel, 1, .rw, 0xFFFF, 0x0, false, true, true, false, false⟩,
  ⟨Reg.drfCtrl, 1, .rw, 0x1, 0x1, false, true, true, false, true⟩,
  ⟨Reg.drfStat, 1, .ro, 0x0, 0x0, false, true, true, false, false⟩,
  ⟨Reg.drfErr, 1, .w1c, 0xF, 0x0, false, true, true, false, false⟩,
  ⟨Reg.drfEpnl, 1, .ro, 0x0, 0x0, false, true, true, true, false⟩,
  ⟨Reg.drfEpnh, 1, .ro, 0x0, 0x0, false, true, true, false, false⟩,
  ⟨Reg.drfMargsum, 1, .ro, 0x0, 0x0, false, true, true, false, false⟩,
  ⟨Reg.drfBandcfg, 1, .ro, 0x0, 0x40, false, true, true, false, false⟩,
  ⟨Reg.drfAtCfg, 1, .ro, 0x0, 0x0, true, true, true, false, false⟩,
  ⟨Reg.drfAtMetid, 1, .ro, 0x0, 0x0, true, true, true, false, false⟩,
  ⟨Reg.drfAtSlack, 1, .ro, 0x0, 0x0, true, true, true, false, false⟩,
  ⟨Reg.drfAtLimit, 1, .ro, 0x0, 0x0, true, true, true, false, false⟩,
  ⟨Reg.drfAtState, 1, .ro, 0x0, 0x0, true, true, true, false, false⟩,
  ⟨Reg.drfAtBase, 1, .ro, 0x0, 0x0, true, true, true, false, false⟩,
  ⟨Reg.drfAtSp, 1, .ro, 0x0, 0x0, true, true, true, false, false⟩,
  ⟨Reg.drfAtSn, 1, .ro, 0x0, 0x0, true, true, true, false, false⟩,
  ⟨Reg.drfAtLast, 1, .ro, 0x0, 0x0, true, true, true, false, false⟩,
  ⟨Reg.drfAtRebase, 1, .rw, 0x0, 0x0, true, true, true, false, true⟩,
  ⟨Reg.drfAtSkipcnt, 1, .rc, 0x0, 0x0, true, true, true, false, false⟩,
  ⟨Reg.witSel, 1, .rw, 0xFFFF, 0x0, false, true, true, false, false⟩,
  ⟨Reg.witCtrl, 1, .rw, 0x33, 0x1, false, true, true, false, true⟩,
  ⟨Reg.witStat, 1, .ro, 0x0, 0x0, false, true, true, false, false⟩,
  ⟨Reg.witErr, 1, .w1c, 0x7FF, 0x0, false, true, true, false, false⟩,
  ⟨Reg.witSeedl, 1, .rw, 0xFFFFFFFF, 0x0, false, true, true, true, true⟩,
  ⟨Reg.witSeedh, 1, .rw, 0xFFFFFFFF, 0x0, false, true, true, false, true⟩,
  ⟨Reg.witRate, 1, .rw, 0x1F1F, 0x40A, false, true, true, false, true⟩,
  ⟨Reg.witPendto, 1, .rw, 0xFFFF, 0x7D0, false, true, true, false, true⟩,
  ⟨Reg.witThirdto, 1, .rw, 0xFFFF, 0x7D0, false, true, true, false, true⟩]

/-- Register table, piece 4. -/
def regTable4 : List RegRow := [
  ⟨Reg.witWin, 1, .rw, 0xFFFF, 0x258, false, true, true, false, true⟩,
  ⟨Reg.witJudgen, 1, .rw, 0xFFFF, 0x100, false, true, true, false, true⟩,
  ⟨Reg.witMackto, 1, .rw, 0xFFFF, 0x3E8, false, true, true, false, true⟩,
  ⟨Reg.witAnncnt, 1, .rc, 0x0, 0x0, false, true, true, false, false⟩,
  ⟨Reg.witSampcnt, 1, .rc, 0x0, 0x0, false, true, true, false, false⟩,
  ⟨Reg.witMatchcnt, 1, .rc, 0x0, 0x0, false, true, true, false, false⟩,
  ⟨Reg.witMiscnt, 1, .rc, 0x0, 0x0, false, true, true, false, false⟩,
  ⟨Reg.witNovotecnt, 1, .rc, 0x0, 0x0, false, true, true, false, false⟩,
  ⟨Reg.witTocnt, 1, .rc, 0x0, 0x0, false, true, true, false, false⟩,
  ⟨Reg.witFullcnt, 1, .rc, 0x0, 0x0, false, true, true, false, false⟩,
  ⟨Reg.witDisccnt, 1, .rc, 0x0, 0x0, false, true, true, false, false⟩,
  ⟨Reg.witEvictcnt, 1, .rc, 0x0, 0x0, false, true, true, false, false⟩,
  ⟨Reg.witAbncnt, 1, .rc, 0x0, 0x0, false, true, true, false, false⟩,
  ⟨Reg.witMarglvl, 1, .ro, 0x0, 0x0, false, true, true, false, false⟩,
  ⟨Reg.witLsnow, 1, .ro, 0x0, 0x0, false, true, true, false, false⟩,
  ⟨Reg.witLscfg, 8, .rw, 0xC003F7FF, 0x0, false, true, true, false, true⟩,
  ⟨Reg.witAtKey, 1, .ro, 0x0, 0x0, true, true, true, false, false⟩,
  ⟨Reg.witAtState, 1, .ro, 0x0, 0x0, true, true, true, false, false⟩,
  ⟨Reg.witAtLast, 1, .ro, 0x0, 0x0, true, true, true, false, false⟩,
  ⟨Reg.witAtOldest, 1, .ro, 0x0, 0x0, true, true, true, false, false⟩,
  ⟨Reg.witAtJudge, 1, .ro, 0x0, 0x0, true, true, true, false, false⟩,
  ⟨Reg.witAtClear, 1, .rw, 0x0, 0x0, true, true, true, false, true⟩,
  ⟨Reg.witEngmap, 256, .rw, 0x1FF, 0x0, false, true, true, false, true⟩,
  ⟨Reg.hltSel, 1, .rw, 0xFFFF, 0x0, false, true, true, false, false⟩,
  ⟨Reg.hltCtrl, 1, .rw, 0x3, 0x3, false, true, false, false, true⟩,
  ⟨Reg.hltStat, 1, .ro, 0x0, 0x0, false, true, false, false, false⟩,
  ⟨Reg.hltErr, 1, .w1c, 0x3F, 0x0, false, true, false, false, false⟩,
  ⟨Reg.hltComp0, 1, .ro, 0x0, 0x0, false, true, false, false, false⟩,
  ⟨Reg.hltComp1, 1, .ro, 0x0, 0x0, false, true, false, false, false⟩,
  ⟨Reg.hltHard, 1, .ro, 0x0, 0x0, false, true, false, false, false⟩,
  ⟨Reg.hltWens, 1, .rw, 0x3FFFFFFF, 0x18020020, false, true, true, false, true⟩,
  ⟨Reg.hltWwit0, 1, .rw, 0x3FFFFFFF, 0x4030020, false, true, true, false, true⟩,
  ⟨Reg.hltWwit1, 1, .rw, 0xFFFFF, 0x20280, false, true, true, false, true⟩,
  ⟨Reg.hltWdrf, 1, .rw, 0x3FFFFFFF, 0x4030010, false, true, true, false, true⟩,
  ⟨Reg.hltThr, 1, .rw, 0x3FF03FF, 0x28000C0, false, true, true, false, true⟩,
  ⟨Reg.hltNvwin, 1, .rw, 0xFFFF, 0x258, false, true, true, false, true⟩,
  ⟨Reg.hltMarg, 1, .rw, 0xF0F0F0F, 0x1010402, false, true, true, false, true⟩,
  ⟨Reg.hltLdto, 1, .rw, 0xFFFF, 0x64, false, true, true, false, true⟩,
  ⟨Reg.hltDownhold, 1, .rw, 0xFFFF, 0x3E8, false, true, true, false, true⟩,
  ⟨Reg.hltWg, 1, .ro, 0x0, 0x0, false, true, false, false, false⟩,
  ⟨Reg.hltGen, 1, .ro, 0x0, 0x0, false, true, false, false, false⟩,
  ⟨Reg.hltFseq, 1, .ro, 0x0, 0x0, false, true, false, false, false⟩,
  ⟨Reg.hltFch, 1, .rw, 0xFFFC, 0xF000, false, true, false, false, true⟩,
  ⟨Reg.hltLink, 1, .ro, 0x0, 0x0, false, true, false, false, false⟩,
  ⟨Reg.hltWgdropcnt, 1, .rc, 0x0, 0x0, false, true, false, false, false⟩,
  ⟨Reg.hltCmdcnt, 1, .rc, 0x0, 0x0, false, true, false, false, false⟩,
  ⟨Reg.hltCmddup, 1, .rc, 0x0, 0x0, false, true, false, false, false⟩,
  ⟨Reg.hltAggstat, 1, .ro, 0x0, 0x0, false, false, true, false, false⟩,
  ⟨Reg.hltAggerr, 1, .w1c, 0xF, 0x0, false, false, true, false, false⟩,
  ⟨Reg.hltAtFstat, 1, .ro, 0x0, 0xFF00, true, true, false, false, false⟩]

/-- Register table, piece 5. -/
def regTable5 : List RegRow := [
  ⟨Reg.hltAtDone, 1, .rw, 0x0, 0x0, true, true, false, false, false⟩,
  ⟨Reg.hltAtFseq, 1, .ro, 0x0, 0x0, true, true, false, false, false⟩,
  ⟨Reg.hltAtFd, 12, .ro, 0x0, 0x0, true, true, false, false, false⟩,
  ⟨Reg.hltAtFx, 33, .ro, 0x0, 0x0, true, true, false, false, false⟩,
  ⟨Reg.votSel, 1, .rw, 0xFFFF, 0x0, false, false, true, false, false⟩,
  ⟨Reg.votCtrl, 1, .rw, 0x3, 0x3, false, false, true, false, true⟩,
  ⟨Reg.votStat, 1, .ro, 0x0, 0x0, false, false, true, false, false⟩,
  ⟨Reg.votErr, 1, .w1c, 0xFF, 0x0, false, false, true, false, true⟩,
  ⟨Reg.votGcfg, 1, .rw, 0x7F7F, 0x4040, false, false, true, false, true⟩,
  ⟨Reg.votGovw, 1, .rw, 0xFFFF, 0x258, false, false, true, false, true⟩,
  ⟨Reg.votGovb, 1, .rw, 0xFF, 0x2, false, false, true, false, true⟩,
  ⟨Reg.votSpares, 1, .ro, 0x0, 0x0, false, false, true, false, false⟩,
  ⟨Reg.votGovcnt, 1, .ro, 0x0, 0x0, false, false, true, false, false⟩,
  ⟨Reg.votWstrag, 1, .rw, 0x3FF, 0xA0, false, false, true, false, true⟩,
  ⟨Reg.votGto, 1, .rw, 0xFFFF, 0xDC, false, false, true, false, true⟩,
  ⟨Reg.votSto, 1, .rw, 0xFFFF, 0x190, false, false, true, false, true⟩,
  ⟨Reg.votFlead, 1, .rw, 0xFFFFFFFF, 0xC80064, false, false, true, false, true⟩,
  ⟨Reg.votSilto, 1, .rw, 0xFFFF, 0xC8, false, false, true, false, true⟩,
  ⟨Reg.votCmdto, 1, .rw, 0xFFFF, 0x1F4, false, false, true, false, true⟩,
  ⟨Reg.votHangper, 1, .rw, 0xFFFF, 0x64, false, false, true, false, true⟩,
  ⟨Reg.votAdmctl, 1, .rw, 0xFFF0000, 0x0, false, false, true, false, true⟩,
  ⟨Reg.votSweept, 1, .rw, 0xFFFF, 0x44, false, false, true, false, true⟩,
  ⟨Reg.votPropcnt, 1, .rc, 0x0, 0x0, false, false, true, false, false⟩,
  ⟨Reg.votDeccnt, 1, .rc, 0x0, 0x0, false, false, true, false, false⟩,
  ⟨Reg.votGovdcnt, 1, .rc, 0x0, 0x0, false, false, true, false, false⟩,
  ⟨Reg.votResendcnt, 1, .rc, 0x0, 0x0, false, false, true, false, false⟩,
  ⟨Reg.votWgcnt, 1, .ro, 0x0, 0x0, false, false, true, false, false⟩,
  ⟨Reg.votAtScore, 1, .ro, 0x0, 0x0, true, false, true, false, false⟩,
  ⟨Reg.votAtComp, 1, .ro, 0x0, 0x0, true, false, true, false, false⟩,
  ⟨Reg.votAtHard, 1, .ro, 0x0, 0x0, true, false, true, false, false⟩,
  ⟨Reg.votAtWg, 1, .ro, 0x0, 0x0, true, false, true, false, false⟩,
  ⟨Reg.votAtGen, 1, .ro, 0x0, 0x0, true, false, true, false, false⟩,
  ⟨Reg.votAtDecidl, 1, .ro, 0x0, 0x0, true, false, true, true, false⟩,
  ⟨Reg.votAtDecidh, 1, .ro, 0x0, 0x0, true, false, true, false, false⟩,
  ⟨Reg.votGovlog, 32, .ro, 0x0, 0x0, false, false, true, false, false⟩,
  ⟨Reg.recSel, 1, .rw, 0xFFFF, 0x0, false, true, true, false, false⟩,
  ⟨Reg.recCtrl, 1, .rw, 0x3, 0x3, false, true, true, false, true⟩,
  ⟨Reg.recStat, 1, .ro, 0x0, 0x0, false, true, true, false, false⟩,
  ⟨Reg.recErr, 1, .w1c, 0x3F, 0x0, false, true, true, false, false⟩,
  ⟨Reg.recSpbasel, 1, .rwl, 0xFFFFFFFF, 0x0, false, true, false, true, true⟩,
  ⟨Reg.recSpbaseh, 1, .rwl, 0xFFFFFFFF, 0x0, false, true, false, false, true⟩,
  ⟨Reg.recSpsize, 1, .rwl, 0xFFFF, 0x10, false, true, false, false, true⟩,
  ⟨Reg.recSpilluse, 1, .ro, 0x0, 0x0, false, true, false, false, false⟩,
  ⟨Reg.recAckto, 1, .rw, 0xFFFF, 0x64, false, true, false, false, true⟩,
  ⟨Reg.recHeadto, 1, .rw, 0xFFFF, 0xC8, false, true, false, false, true⟩,
  ⟨Reg.recDigper, 1, .rw, 0xFFFF, 0x64, false, true, true, false, true⟩,
  ⟨Reg.recRdpage, 1, .rw, 0x3, 0x0, false, true, false, false, false⟩,
  ⟨Reg.recRefcnt, 1, .rc, 0x0, 0x0, false, true, true, false, false⟩,
  ⟨Reg.recAtNextl, 1, .ro, 0x0, 0x0, true, true, true, true, false⟩,
  ⟨Reg.recAtNexth, 1, .ro, 0x0, 0x0, true, true, true, false, false⟩]

/-- Register table, piece 6. -/
def regTable6 : List RegRow := [
  ⟨Reg.recAtAckal, 1, .ro, 0x0, 0x0, true, true, false, true, false⟩,
  ⟨Reg.recAtAckah, 1, .ro, 0x0, 0x0, true, true, false, false, false⟩,
  ⟨Reg.recAtAckbl, 1, .ro, 0x0, 0x0, true, true, false, true, false⟩,
  ⟨Reg.recAtAckbh, 1, .ro, 0x0, 0x0, true, true, false, false, false⟩,
  ⟨Reg.recAtRetcnt, 1, .ro, 0x0, 0x0, true, true, false, false, false⟩,
  ⟨Reg.recAtReplaycnt, 1, .rc, 0x0, 0x0, true, true, false, false, false⟩,
  ⟨Reg.jrnSel, 1, .rw, 0xFFFF, 0x0, false, false, true, false, false⟩,
  ⟨Reg.jrnCtrl, 1, .rw, 0xFF01, 0xF001, false, false, true, false, true⟩,
  ⟨Reg.jrnStat, 1, .ro, 0x0, 0x0, false, false, true, false, false⟩,
  ⟨Reg.jrnErr, 1, .w1c, 0x1FF, 0x0, false, false, true, false, false⟩,
  ⟨Reg.jrnLagmax, 1, .rw, 0xFFFF, 0x40, false, false, true, false, true⟩,
  ⟨Reg.jrnSyncto, 1, .rw, 0xFFFF, 0x1F4, false, false, true, false, true⟩,
  ⟨Reg.jrnSinkto, 1, .rw, 0xFFFF, 0x3E8, false, false, true, false, true⟩,
  ⟨Reg.jrnAckper, 1, .rw, 0xFFFF, 0xA, false, false, true, false, true⟩,
  ⟨Reg.jrnSink, 4, .rw, 0x800000FF, 0x0, false, false, true, false, true⟩,
  ⟨Reg.jrnUsed, 1, .ro, 0x0, 0x0, false, false, true, false, false⟩,
  ⟨Reg.jrnDupcnt, 1, .rc, 0x0, 0x0, false, false, true, false, false⟩,
  ⟨Reg.jrnGapcnt, 1, .rc, 0x0, 0x0, false, false, true, false, false⟩,
  ⟨Reg.jrnChkcnt, 1, .rc, 0x0, 0x0, false, false, true, false, false⟩,
  ⟨Reg.jrnSeall, 1, .ro, 0x0, 0x0, false, false, true, true, false⟩,
  ⟨Reg.jrnSealh, 1, .ro, 0x0, 0x0, false, false, true, false, false⟩,
  ⟨Reg.jrnTakecnt, 1, .rc, 0x0, 0x0, false, false, true, false, false⟩,
  ⟨Reg.jrnAtJseql, 1, .ro, 0x0, 0x0, true, false, true, true, false⟩,
  ⟨Reg.jrnAtJseqh, 1, .ro, 0x0, 0x0, true, false, true, false, false⟩,
  ⟨Reg.jrnAtSseql, 1, .ro, 0x0, 0x0, true, false, true, true, false⟩,
  ⟨Reg.jrnAtSseqh, 1, .ro, 0x0, 0x0, true, false, true, false, false⟩,
  ⟨Reg.jrnAtSentl, 1, .ro, 0x0, 0x0, true, false, true, true, false⟩,
  ⟨Reg.jrnAtSenth, 1, .ro, 0x0, 0x0, true, false, true, false, false⟩,
  ⟨Reg.jrnAtSstat, 1, .ro, 0x0, 0x0, true, false, true, false, false⟩,
  ⟨Reg.raceSel, 1, .rw, 0xFFFF, 0x0, false, true, true, false, false⟩,
  ⟨Reg.raceCtrl, 1, .rw, 0x3, 0x3, false, true, true, false, true⟩,
  ⟨Reg.raceStat, 1, .ro, 0x0, 0x0, false, true, true, false, false⟩,
  ⟨Reg.raceErr, 1, .w1c, 0x7F, 0x0, false, true, true, false, false⟩,
  ⟨Reg.raceGencap, 1, .rwl, 0x7, 0x7, false, true, true, false, true⟩,
  ⟨Reg.raceLoad, 1, .ro, 0x0, 0x0, false, true, true, false, false⟩,
  ⟨Reg.raceBeatper, 1, .rw, 0xFF, 0x14, false, true, true, false, true⟩,
  ⟨Reg.raceHoldcnt, 1, .rc, 0x0, 0x0, false, true, true, false, false⟩,
  ⟨Reg.raceAtPstat, 1, .ro, 0x0, 0x0, true, true, true, false, false⟩,
  ⟨Reg.raceAtDowncnt, 1, .rc, 0x0, 0x0, true, true, true, false, false⟩,
  ⟨Reg.raceAtHdrerr, 1, .rc, 0x0, 0x0, true, true, true, false, false⟩,
  ⟨Reg.raceAtCrcerr, 1, .rc, 0x0, 0x0, true, true, true, false, false⟩,
  ⟨Reg.raceAtTrunccnt, 1, .rc, 0x0, 0x0, true, true, true, false, false⟩,
  ⟨Reg.raceAtTxfrm, 1, .rc, 0x0, 0x0, true, true, true, false, false⟩,
  ⟨Reg.raceAtRxfrm, 1, .rc, 0x0, 0x0, true, true, true, false, false⟩,
  ⟨Reg.raceAtCred0, 1, .ro, 0x0, 0x0, true, true, true, false, false⟩,
  ⟨Reg.raceAtCred1, 1, .ro, 0x0, 0x0, true, true, true, false, false⟩,
  ⟨Reg.raceAtRetrain, 1, .rw, 0x0, 0x0, true, true, true, false, true⟩,
  ⟨Reg.raceAtLastdown, 1, .ro, 0x0, 0x0, true, true, true, false, false⟩,
  ⟨Reg.raceAtGenmax, 1, .rw, 0x3, 0x3, true, false, true, false, true⟩,
  ⟨Reg.fltSel, 1, .rw, 0xFFFF, 0x0, false, false, true, false, false⟩]

/-- Register table, piece 7. -/
def regTable7 : List RegRow := [
  ⟨Reg.fltCtrl, 1, .rw, 0x1, 0x1, false, false, true, false, true⟩,
  ⟨Reg.fltStat, 1, .ro, 0x0, 0x0, false, false, true, false, false⟩,
  ⟨Reg.fltErr, 1, .w1c, 0xFF, 0x0, false, false, true, false, false⟩,
  ⟨Reg.fltEtype, 1, .rw, 0xFFFF, 0x88B5, false, false, true, false, true⟩,
  ⟨Reg.fltMachi, 1, .rw, 0xFFFFFF, 0x24B5A, false, false, true, false, true⟩,
  ⟨Reg.fltMchi, 1, .rw, 0xFFFFFF, 0x34B5A, false, false, true, false, true⟩,
  ⟨Reg.fltPcp, 1, .rw, 0x7FFF, 0x1777, false, false, true, false, true⟩,
  ⟨Reg.fltColidx, 1, .rw, 0xFF, 0x0, false, false, true, false, true⟩,
  ⟨Reg.fltColmacl, 1, .rw, 0xFFFFFFFF, 0x0, false, false, true, false, true⟩,
  ⟨Reg.fltColmach, 1, .rw, 0x80FFFFFF, 0x0, false, false, true, false, true⟩,
  ⟨Reg.fltCtlmask, 1, .rw, 0xFF, 0xFF, false, false, true, false, true⟩,
  ⟨Reg.fltRxdrop, 1, .rc, 0x0, 0x0, false, false, true, false, false⟩,
  ⟨Reg.fltAtCfg, 1, .rwl, 0xB7800000, 0x80000000, true, false, true, false, true⟩,
  ⟨Reg.fltAtPstat, 1, .ro, 0x0, 0x0, true, false, true, false, false⟩,
  ⟨Reg.fltAtVid, 1, .rw, 0xFFF, 0x1, true, false, true, false, true⟩,
  ⟨Reg.fltAtSegmax, 1, .rwl, 0x3FFF, 0x2000, true, false, true, false, true⟩,
  ⟨Reg.fltAtTslat, 1, .rw, 0xFFFFFFFF, 0x0, true, false, true, false, true⟩,
  ⟨Reg.fltAtTxfrm, 1, .rc, 0x0, 0x0, true, false, true, false, false⟩,
  ⟨Reg.fltAtRxfrm, 1, .rc, 0x0, 0x0, true, false, true, false, false⟩,
  ⟨Reg.fltAtFcserr, 1, .rc, 0x0, 0x0, true, false, true, false, false⟩,
  ⟨Reg.fltAtHdrerr, 1, .rc, 0x0, 0x0, true, false, true, false, false⟩,
  ⟨Reg.fltAtMsecerr, 1, .rc, 0x0, 0x0, true, false, true, false, false⟩,
  ⟨Reg.fltAtPausecnt, 1, .rc, 0x0, 0x0, true, false, true, false, false⟩,
  ⟨Reg.fltAtDowncnt, 1, .rc, 0x0, 0x0, true, false, true, false, false⟩,
  ⟨Reg.fltAtMsecctl, 1, .rw, 0xFFFF0007, 0x6, true, false, true, false, true⟩,
  ⟨Reg.fltAtMsecstat, 1, .ro, 0x0, 0x0, true, false, true, false, false⟩,
  ⟨Reg.fltAtTxpnl, 1, .ro, 0x0, 0x0, true, false, true, true, false⟩,
  ⟨Reg.fltAtTxpnh, 1, .ro, 0x0, 0x0, true, false, true, false, false⟩,
  ⟨Reg.fltAtPseqgap, 1, .rc, 0x0, 0x0, true, false, true, false, false⟩,
  ⟨Reg.sluSel, 1, .rw, 0xFFFF, 0x0, false, false, true, false, false⟩,
  ⟨Reg.sluCtrl, 1, .rw, 0x1, 0x0, false, false, true, false, true⟩,
  ⟨Reg.sluStat, 1, .ro, 0x0, 0x0, false, false, true, false, false⟩,
  ⟨Reg.sluErr, 1, .w1c, 0xF, 0x0, false, false, true, false, false⟩,
  ⟨Reg.sluGclidx, 1, .rw, 0xFF, 0x0, false, false, true, false, true⟩,
  ⟨Reg.sluAtMode, 1, .rw, 0xFF03, 0x1400, true, false, true, false, true⟩,
  ⟨Reg.sluAtAdmnum, 1, .rwl, 0x1FF, 0x1, true, false, true, false, true⟩,
  ⟨Reg.sluAtAdmgate, 1, .rwl, 0x1F, 0x1F, true, false, true, false, true⟩,
  ⟨Reg.sluAtAdmint, 1, .rwl, 0xFFFFFFFF, 0x186A0, true, false, true, false, true⟩,
  ⟨Reg.sluAtAdmbasef, 1, .rwl, 0xFFFFFFFF, 0x0, true, false, true, false, true⟩,
  ⟨Reg.sluAtAdmbases0, 1, .rwl, 0xFFFFFFFF, 0x0, true, false, true, false, true⟩,
  ⟨Reg.sluAtAdmbases1, 1, .rwl, 0xFFFF, 0x0, true, false, true, false, true⟩,
  ⟨Reg.sluAtArm, 1, .rw, 0x0, 0x0, true, false, true, false, true⟩,
  ⟨Reg.sluAtOpnum, 1, .ro, 0x0, 0x0, true, false, true, false, false⟩,
  ⟨Reg.sluAtOpgate, 1, .ro, 0x0, 0x0, true, false, true, false, false⟩,
  ⟨Reg.sluAtOpint, 1, .ro, 0x0, 0x0, true, false, true, false, false⟩,
  ⟨Reg.sluAtOpcycle, 1, .ro, 0x0, 0x0, true, false, true, false, false⟩,
  ⟨Reg.sluAtCur, 1, .ro, 0x0, 0x0, true, false, true, false, false⟩,
  ⟨Reg.sluAtOverrun, 1, .rc, 0x0, 0x0, true, false, true, false, false⟩,
  ⟨Reg.sluAtQdepth0, 1, .ro, 0x0, 0x0, true, false, true, false, false⟩,
  ⟨Reg.sluAtQdepth1, 1, .ro, 0x0, 0x0, true, false, true, false, false⟩]

/-- Register table, piece 8. -/
def regTable8 : List RegRow := [
  ⟨Reg.sluAtQdepth2, 1, .ro, 0x0, 0x0, true, false, true, false, false⟩,
  ⟨Reg.sluAtQdepth3, 1, .ro, 0x0, 0x0, true, false, true, false, false⟩,
  ⟨Reg.sluAtQdepth4, 1, .ro, 0x0, 0x0, true, false, true, false, false⟩,
  ⟨Reg.sluAtQmaxd0, 1, .ro, 0x0, 0x0, true, false, true, false, false⟩,
  ⟨Reg.sluAtQmaxd1, 1, .ro, 0x0, 0x0, true, false, true, false, false⟩,
  ⟨Reg.sluAtQmaxd2, 1, .ro, 0x0, 0x0, true, false, true, false, false⟩,
  ⟨Reg.sluAtQmaxd3, 1, .ro, 0x0, 0x0, true, false, true, false, false⟩,
  ⟨Reg.sluAtQmaxd4, 1, .ro, 0x0, 0x0, true, false, true, false, false⟩,
  ⟨Reg.sluAtQsuml0, 1, .ro, 0x0, 0x0, true, false, true, true, false⟩,
  ⟨Reg.sluAtQsuml1, 1, .ro, 0x0, 0x0, true, false, true, true, false⟩,
  ⟨Reg.sluAtQsuml2, 1, .ro, 0x0, 0x0, true, false, true, true, false⟩,
  ⟨Reg.sluAtQsuml3, 1, .ro, 0x0, 0x0, true, false, true, true, false⟩,
  ⟨Reg.sluAtQsuml4, 1, .ro, 0x0, 0x0, true, false, true, true, false⟩,
  ⟨Reg.sluAtQsumh0, 1, .ro, 0x0, 0x0, true, false, true, false, false⟩,
  ⟨Reg.sluAtQsumh1, 1, .ro, 0x0, 0x0, true, false, true, false, false⟩,
  ⟨Reg.sluAtQsumh2, 1, .ro, 0x0, 0x0, true, false, true, false, false⟩,
  ⟨Reg.sluAtQsumh3, 1, .ro, 0x0, 0x0, true, false, true, false, false⟩,
  ⟨Reg.sluAtQsumh4, 1, .ro, 0x0, 0x0, true, false, true, false, false⟩,
  ⟨Reg.sluAtQmaxh0, 1, .ro, 0x0, 0x0, true, false, true, false, false⟩,
  ⟨Reg.sluAtQmaxh1, 1, .ro, 0x0, 0x0, true, false, true, false, false⟩,
  ⟨Reg.sluAtQmaxh2, 1, .ro, 0x0, 0x0, true, false, true, false, false⟩,
  ⟨Reg.sluAtQmaxh3, 1, .ro, 0x0, 0x0, true, false, true, false, false⟩,
  ⟨Reg.sluAtQmaxh4, 1, .ro, 0x0, 0x0, true, false, true, false, false⟩,
  ⟨Reg.sluAtQnsamp0, 1, .ro, 0x0, 0x0, true, false, true, false, false⟩,
  ⟨Reg.sluAtQnsamp1, 1, .ro, 0x0, 0x0, true, false, true, false, false⟩,
  ⟨Reg.sluAtQnsamp2, 1, .ro, 0x0, 0x0, true, false, true, false, false⟩,
  ⟨Reg.sluAtQnsamp3, 1, .ro, 0x0, 0x0, true, false, true, false, false⟩,
  ⟨Reg.sluAtQnsamp4, 1, .ro, 0x0, 0x0, true, false, true, false, false⟩,
  ⟨Reg.sluAtQdisc0, 1, .rc, 0x0, 0x0, true, false, true, false, false⟩,
  ⟨Reg.sluAtQdisc1, 1, .rc, 0x0, 0x0, true, false, true, false, false⟩,
  ⟨Reg.sluAtQdisc2, 1, .rc, 0x0, 0x0, true, false, true, false, false⟩,
  ⟨Reg.sluAtQdisc3, 1, .rc, 0x0, 0x0, true, false, true, false, false⟩,
  ⟨Reg.sluAtQdisc4, 1, .rc, 0x0, 0x0, true, false, true, false, false⟩,
  ⟨Reg.trcSel, 1, .rw, 0xFFFF, 0x0, false, true, true, false, false⟩,
  ⟨Reg.trcCtrl, 1, .rw, 0x7, 0x0, false, true, true, false, true⟩,
  ⟨Reg.trcStat, 1, .ro, 0x0, 0x0, false, true, true, false, false⟩,
  ⟨Reg.trcErr, 1, .w1c, 0x3F, 0x0, false, true, true, false, false⟩,
  ⟨Reg.trcBasel, 1, .rwl, 0xFFFFFFFF, 0x0, false, true, true, true, true⟩,
  ⟨Reg.trcBaseh, 1, .rwl, 0xFFFFFFFF, 0x0, false, true, true, false, true⟩,
  ⟨Reg.trcSize, 1, .rwl, 0xFFFF, 0x100, false, true, true, false, true⟩,
  ⟨Reg.trcSession, 1, .rw, 0x4, 0x0, false, true, true, false, true⟩,
  ⟨Reg.trcSessgen, 1, .rw, 0xFFFFFFFF, 0x0, false, true, true, false, true⟩,
  ⟨Reg.trcSyncper, 1, .rw, 0xFFFF, 0x1000, false, true, true, false, true⟩,
  ⟨Reg.trcTres, 1, .rw, 0xFFFF, 0x64, false, true, true, false, true⟩,
  ⟨Reg.trcRecmax, 1, .rw, 0x3FFF, 0x1000, false, true, true, false, true⟩,
  ⟨Reg.trcTokidx, 1, .rw, 0x3F, 0x0, false, true, true, false, true⟩,
  ⟨Reg.trcTokdata, 1, .rw, 0xFFFFFFFF, 0x0, false, true, true, false, true⟩,
  ⟨Reg.trcTokctl, 1, .rw, 0x0, 0x0, false, true, true, false, true⟩,
  ⟨Reg.trcLostcnt, 1, .rc, 0x0, 0x0, false, true, true, false, false⟩,
  ⟨Reg.trcAtCfg, 1, .rwl, 0x1F, 0x0, true, true, true, false, true⟩]

/-- Register table, piece 9. -/
def regTable9 : List RegRow := [
  ⟨Reg.trcAtStat, 1, .ro, 0x0, 0x0, true, true, true, false, false⟩,
  ⟨Reg.trcAtWrptrl, 1, .ro, 0x0, 0x0, true, true, true, true, false⟩,
  ⟨Reg.trcAtWrptrh, 1, .ro, 0x0, 0x0, true, true, true, false, false⟩,
  ⟨Reg.trcAtOfsl, 1, .ro, 0x0, 0x0, true, true, true, true, false⟩,
  ⟨Reg.trcAtOfsh, 1, .ro, 0x0, 0x0, true, true, true, false, false⟩,
  ⟨Reg.trcAtLost, 1, .rc, 0x0, 0x0, true, true, true, false, false⟩,
  ⟨Reg.wchSel, 1, .rw, 0xFFFF, 0x0, false, true, true, false, false⟩,
  ⟨Reg.wchCtrl, 1, .rw, 0x1, 0x1, false, true, true, false, true⟩,
  ⟨Reg.wchStat, 1, .ro, 0x0, 0x0, false, true, true, false, false⟩,
  ⟨Reg.wchErr, 1, .w1c, 0x3, 0x0, false, true, true, false, false⟩,
  ⟨Reg.wchAtCfg, 1, .rwl, 0xF000001F, 0x0, true, true, true, false, true⟩,
  ⟨Reg.wchAtEn, 1, .rw, 0x1, 0x0, true, true, true, false, true⟩,
  ⟨Reg.wchAtLol, 1, .rwl, 0xFFFFFFFF, 0x0, true, true, true, true, true⟩,
  ⟨Reg.wchAtLoh, 1, .rwl, 0xFFFFFFFF, 0x0, true, true, true, false, true⟩,
  ⟨Reg.wchAtHil, 1, .rwl, 0xFFFFFFFF, 0x0, true, true, true, true, true⟩,
  ⟨Reg.wchAtHih, 1, .rwl, 0xFFFFFFFF, 0x0, true, true, true, false, true⟩,
  ⟨Reg.wchAtHitcnt, 1, .rc, 0x0, 0x0, true, true, true, false, false⟩,
  ⟨Reg.wchAtLastl, 1, .ro, 0x0, 0x0, true, true, true, true, false⟩,
  ⟨Reg.wchAtLasth, 1, .ro, 0x0, 0x0, true, true, true, false, false⟩,
  ⟨Reg.wchAtLastinfo, 1, .ro, 0x0, 0x0, true, true, true, false, false⟩,
  ⟨Reg.wchAtHalt, 1, .rw, 0x0, 0x0, true, true, true, false, true⟩,
  ⟨Reg.wfgSel, 1, .rw, 0xFFFF, 0x0, false, true, false, false, false⟩,
  ⟨Reg.wfgCtrl, 1, .rw, 0x1, 0x1, false, true, false, false, true⟩,
  ⟨Reg.wfgStat, 1, .ro, 0x0, 0x0, false, true, false, false, false⟩,
  ⟨Reg.wfgErr, 1, .w1c, 0x1, 0x0, false, true, false, false, false⟩,
  ⟨Reg.wfgPer, 1, .rw, 0xFFFF, 0x3E8, false, true, false, false, true⟩,
  ⟨Reg.wfgStable, 1, .rw, 0xF, 0x4, false, true, false, false, true⟩,
  ⟨Reg.wfgRptper, 1, .rw, 0xFFFF, 0x32, false, true, false, false, true⟩,
  ⟨Reg.wfgRptcnt, 1, .rc, 0x0, 0x0, false, true, false, false, false⟩,
  ⟨Reg.wfgAtWord, 1, .ro, 0x0, 0x0, true, true, false, false, false⟩,
  ⟨Reg.wfgAtEdge, 1, .ro, 0x0, 0x0, true, true, false, false, false⟩,
  ⟨Reg.wfgAtAge, 1, .ro, 0x0, 0x0, true, true, false, false, false⟩,
  ⟨Reg.wfaSel, 1, .rw, 0xFFFF, 0x0, false, false, true, false, false⟩,
  ⟨Reg.wfaCtrl, 1, .rw, 0x1, 0x1, false, false, true, false, true⟩,
  ⟨Reg.wfaStat, 1, .ro, 0x0, 0x0, false, false, true, false, false⟩,
  ⟨Reg.wfaErr, 1, .w1c, 0xF, 0x0, false, false, true, false, false⟩,
  ⟨Reg.wfaStale, 1, .rw, 0xFFFF, 0x96, false, false, true, false, true⟩,
  ⟨Reg.wfaStalecnt, 1, .rc, 0x0, 0x0, false, false, true, false, false⟩,
  ⟨Reg.wfaSkipcnt, 1, .rc, 0x0, 0x0, false, false, true, false, false⟩,
  ⟨Reg.wfaAsml, 1, .ro, 0x0, 0x0, false, false, true, true, false⟩,
  ⟨Reg.wfaAsmh, 1, .ro, 0x0, 0x0, false, false, true, false, false⟩,
  ⟨Reg.wfaAtRecage, 1, .ro, 0x0, 0x0, true, false, true, false, false⟩,
  ⟨Reg.wfaAtNedge, 1, .ro, 0x0, 0x0, true, false, true, false, false⟩,
  ⟨Reg.flmCtrl, 1, .rw, 0xF0F, 0x301, false, true, true, false, true⟩,
  ⟨Reg.flmStat, 1, .ro, 0x0, 0x0, false, true, true, false, false⟩,
  ⟨Reg.flmErr, 1, .w1c, 0x3F, 0x0, false, true, true, false, false⟩,
  ⟨Reg.flmTypemask, 1, .rw, 0x13F, 0xF, false, true, true, false, true⟩,
  ⟨Reg.flmMinlen, 1, .rw, 0xFFFF, 0x100, false, true, true, false, true⟩,
  ⟨Reg.flmKeyper, 1, .rw, 0xFFFF, 0x40, false, true, true, false, true⟩,
  ⟨Reg.flmCbudget, 1, .rw, 0xFFFF, 0x64, false, true, true, false, true⟩]

/-- Register table, piece 10. -/
def regTable10 : List RegRow := [
  ⟨Reg.flmInl, 1, .ro, 0x0, 0x0, false, true, true, true, false⟩,
  ⟨Reg.flmInh, 1, .ro, 0x0, 0x0, false, true, true, false, false⟩,
  ⟨Reg.flmOutl, 1, .ro, 0x0, 0x0, false, true, true, true, false⟩,
  ⟨Reg.flmOuth, 1, .ro, 0x0, 0x0, false, true, true, false, false⟩,
  ⟨Reg.flmCfrmcnt, 1, .rc, 0x0, 0x0, false, true, true, false, false⟩,
  ⟨Reg.flmRawcnt, 1, .rc, 0x0, 0x0, false, true, true, false, false⟩,
  ⟨Reg.flmAbandcnt, 1, .rc, 0x0, 0x0, false, true, true, false, false⟩,
  ⟨Reg.flmKeycnt, 1, .rc, 0x0, 0x0, false, true, true, false, false⟩,
  ⟨Reg.flmL0cnt, 1, .rc, 0x0, 0x0, false, true, true, false, false⟩,
  ⟨Reg.flmDeccnt, 1, .rc, 0x0, 0x0, false, false, true, false, false⟩,
  ⟨Reg.flmDerrcnt, 1, .rc, 0x0, 0x0, false, false, true, false, false⟩,
  ⟨Reg.flmNorefcnt, 1, .rc, 0x0, 0x0, false, false, true, false, false⟩,
  ⟨Reg.flmVskipcnt, 1, .rc, 0x0, 0x0, false, false, true, false, false⟩,
  ⟨Reg.flmDlast, 1, .ro, 0x0, 0x0, false, false, true, false, false⟩,
  ⟨Reg.flmDlastseql, 1, .ro, 0x0, 0x0, false, false, true, true, false⟩,
  ⟨Reg.flmDlastseqh, 1, .ro, 0x0, 0x0, false, false, true, false, false⟩,
  ⟨Reg.flmDlastpos, 1, .ro, 0x0, 0x0, false, false, true, false, false⟩,
  ⟨Reg.mbxSel, 1, .rw, 0xFFFF, 0x0, false, true, true, false, false⟩,
  ⟨Reg.mbxStat, 1, .ro, 0x0, 0x0, false, true, true, false, false⟩,
  ⟨Reg.mbxEpoch, 1, .ro, 0x0, 0x0, false, true, true, false, false⟩,
  ⟨Reg.mbxAtCfg, 1, .rw, 0x13FF1, 0x10001, true, true, true, false, true⟩,
  ⟨Reg.mbxAtTxdata, 1, .wo, 0xFFFFFFFF, 0x0, true, true, true, false, false⟩,
  ⟨Reg.mbxAtTxstat, 1, .ro, 0x0, 0x0, true, true, true, false, false⟩,
  ⟨Reg.mbxAtDbset, 1, .wo, 0xFFFFFFFF, 0x0, true, true, true, false, false⟩,
  ⟨Reg.mbxAtPend, 1, .ro, 0x0, 0x0, true, true, true, false, false⟩,
  ⟨Reg.mbxAtTo, 1, .rw, 0xFFFF, 0x3E8, true, true, true, false, true⟩,
  ⟨Reg.mbxAtFlags, 1, .w1c, 0x3F, 0x0, true, true, true, false, false⟩,
  ⟨Reg.mbxAtDropcnt, 1, .rc, 0x0, 0x0, true, true, true, false, false⟩,
  ⟨Reg.mbxAtFullcnt, 1, .rc, 0x0, 0x0, true, true, true, false, false⟩,
  ⟨Reg.mbxAtRxdata, 1, .ro, 0x0, 0x0, true, true, true, false, false⟩,
  ⟨Reg.mbxAtRxstamp, 1, .ro, 0x0, 0x0, true, true, true, false, false⟩,
  ⟨Reg.mbxAtRxstat, 1, .ro, 0x0, 0x0, true, true, true, false, false⟩,
  ⟨Reg.mbxAtDb, 1, .w1c, 0xFFFFFFFF, 0x0, true, true, true, false, false⟩,
  ⟨Reg.mbxAtDbmask, 1, .rw, 0xFFFFFFFF, 0x0, true, true, true, false, true⟩,
  ⟨Reg.mbxAtDbage, 1, .ro, 0x0, 0x0, true, true, true, false, false⟩,
  ⟨Reg.mbxAtDbcnt, 1, .rc, 0x0, 0x0, true, true, true, false, false⟩,
  ⟨Reg.mbxAtTocnt, 1, .rc, 0x0, 0x0, true, true, true, false, false⟩,
  ⟨Reg.evrSel, 1, .rw, 0xFFFF, 0x0, false, true, true, false, false⟩,
  ⟨Reg.evrCtrl, 1, .rw, 0x7, 0x7, false, true, true, false, true⟩,
  ⟨Reg.evrStat, 1, .ro, 0x0, 0x0, false, true, true, false, false⟩,
  ⟨Reg.evrErr, 1, .w1c, 0x1F, 0x0, false, true, true, false, false⟩,
  ⟨Reg.evrNseq, 1, .ro, 0x0, 0x0, false, true, true, false, false⟩,
  ⟨Reg.evrRingidx, 1, .rw, 0xFFF, 0x0, false, true, true, false, false⟩,
  ⟨Reg.evrSuppcnt, 1, .rc, 0x0, 0x0, false, true, true, false, false⟩,
  ⟨Reg.evrHlostcnt, 1, .rc, 0x0, 0x0, false, false, true, false, false⟩,
  ⟨Reg.evrFlushper, 1, .rw, 0xFFFF, 0xA, false, false, true, false, true⟩,
  ⟨Reg.evrHfirst, 1, .ro, 0x0, 0x0, false, false, true, false, false⟩,
  ⟨Reg.evrHlast, 1, .ro, 0x0, 0x0, false, false, true, false, false⟩,
  ⟨Reg.evrRd, 16, .ro, 0x0, 0x0, false, true, true, false, false⟩,
  ⟨Reg.evrAtCfg, 1, .rw, 0xFFFFFF07, 0x0, true, true, true, false, true⟩]

/-- Register table, piece 11. -/
def regTable11 : List RegRow := [
  ⟨Reg.evrAtCnt, 1, .rc, 0x0, 0x0, true, true, true, false, false⟩,
  ⟨Reg.evrAtSupp, 1, .ro, 0x0, 0x0, true, true, true, false, false⟩,
  ⟨Reg.evrAtTokens, 1, .ro, 0x0, 0x0, true, true, true, false, false⟩,
  ⟨Reg.rasSel, 1, .rw, 0xFFFF, 0x0, false, true, true, false, false⟩,
  ⟨Reg.rasCtrl, 1, .rw, 0x3, 0x3, false, true, true, false, true⟩,
  ⟨Reg.rasStat, 1, .ro, 0x0, 0x0, false, true, true, false, false⟩,
  ⟨Reg.rasErr, 1, .w1c, 0xFF, 0x0, false, true, true, false, false⟩,
  ⟨Reg.rasCecnt, 1, .rc, 0x0, 0x0, false, true, true, false, false⟩,
  ⟨Reg.rasUecnt, 1, .rc, 0x0, 0x0, false, true, true, false, false⟩,
  ⟨Reg.rasPrstcnt, 1, .rc, 0x0, 0x0, false, true, true, false, false⟩,
  ⟨Reg.rasPrst, 1, .rw, 0x0, 0x0, false, true, true, false, true⟩,
  ⟨Reg.rasFlipl, 1, .rw, 0xFFFFFFFF, 0x0, false, true, true, true, true⟩,
  ⟨Reg.rasFliph, 1, .rw, 0x7F, 0x0, false, true, true, false, true⟩,
  ⟨Reg.rasFlipctl, 1, .rw, 0x1F00, 0x0, false, true, true, false, true⟩,
  ⟨Reg.rasDmastat, 1, .ro, 0x0, 0x0, false, true, true, false, false⟩,
  ⟨Reg.rasAtWords, 1, .ro, 0x0, 0x0, true, true, true, false, false⟩,
  ⟨Reg.rasAtScrubper, 1, .rw, 0xFFFFFF, 0x1000, true, true, true, false, true⟩,
  ⟨Reg.rasAtScrubpos, 1, .ro, 0x0, 0x0, true, true, true, false, false⟩,
  ⟨Reg.rasAtPasscnt, 1, .rc, 0x0, 0x0, true, true, true, false, false⟩,
  ⟨Reg.rasAtCecnt, 1, .rc, 0x0, 0x0, true, true, true, false, false⟩,
  ⟨Reg.rasAtUecnt, 1, .rc, 0x0, 0x0, true, true, true, false, false⟩,
  ⟨Reg.rasAtCeovf, 1, .rc, 0x0, 0x0, true, true, true, false, false⟩,
  ⟨Reg.rasAtCeidx, 1, .rw, 0x7, 0x0, true, true, true, false, false⟩,
  ⟨Reg.rasAtCeaddr, 1, .ro, 0x0, 0x0, true, true, true, false, false⟩,
  ⟨Reg.rasAtCeinfo, 1, .ro, 0x0, 0x0, true, true, true, false, false⟩,
  ⟨Reg.rasAtCeclr, 1, .rw, 0x0, 0x0, true, true, true, false, true⟩,
  ⟨Reg.rasAtRemap, 4, .ro, 0x0, 0x0, true, true, true, false, false⟩,
  ⟨Reg.rasAtLastue, 1, .ro, 0x0, 0x0, true, true, true, false, false⟩,
  ⟨Reg.patSel, 1, .rw, 0xFFFF, 0x0, false, true, true, false, false⟩,
  ⟨Reg.patCtrl, 1, .rw, 0x3, 0x3, false, true, true, false, true⟩,
  ⟨Reg.patStat, 1, .ro, 0x0, 0x0, false, true, true, false, false⟩,
  ⟨Reg.patErr, 1, .w1c, 0x1FFE, 0x0, false, true, true, false, false⟩,
  ⟨Reg.patLoadctl, 1, .rw, 0x0, 0x0, false, true, true, false, true⟩,
  ⟨Reg.patLoadlen, 1, .rw, 0xFFFFFFFF, 0x0, false, true, true, false, false⟩,
  ⟨Reg.patData, 1, .wo, 0xFFFFFFFF, 0x0, false, true, true, false, false⟩,
  ⟨Reg.patLoadpos, 1, .ro, 0x0, 0x0, false, true, true, false, false⟩,
  ⟨Reg.patMeas, 12, .ro, 0x0, 0x0, false, true, true, false, false⟩,
  ⟨Reg.patInsgen, 1, .ro, 0x0, 0x0, false, true, true, false, false⟩,
  ⟨Reg.patArb, 1, .ro, 0x0, 0x0, false, true, true, false, false⟩,
  ⟨Reg.patArbmin, 1, .ro, 0x0, 0x0, false, true, true, false, false⟩,
  ⟨Reg.patArbmind, 1, .ro, 0x0, 0x0, false, false, true, false, false⟩,
  ⟨Reg.patEffl, 1, .ro, 0x0, 0x0, false, true, true, true, false⟩,
  ⟨Reg.patEffh, 1, .ro, 0x0, 0x0, false, true, true, false, false⟩,
  ⟨Reg.patOwnerl, 1, .ro, 0x0, 0x0, false, true, true, true, false⟩,
  ⟨Reg.patOwnerh, 1, .ro, 0x0, 0x0, false, true, true, false, false⟩,
  ⟨Reg.patFwstat, 1, .ro, 0x0, 0x0, false, true, true, false, false⟩,
  ⟨Reg.patFwctl, 1, .rw, 0x0, 0x0, false, true, true, false, true⟩,
  ⟨Reg.patLoadcnt, 1, .rc, 0x0, 0x0, false, true, true, false, false⟩,
  ⟨Reg.patRejcnt, 1, .rc, 0x0, 0x0, false, true, true, false, false⟩,
  ⟨Reg.patAtSecstat, 1, .ro, 0x0, 0x0, true, true, true, false, false⟩]

/-- Register table, piece 12. -/
def regTable12 : List RegRow := [
  ⟨Reg.patAtSeclen, 1, .ro, 0x0, 0x0, true, true, true, false, false⟩,
  ⟨Reg.patAtSecofs, 1, .rw, 0xFFFFFFFF, 0x0, true, true, true, false, false⟩,
  ⟨Reg.patAtSecdata, 1, .ro, 0x0, 0x0, true, true, true, false, false⟩,
  ⟨Reg.secStat, 1, .ro, 0x0, 0x0, false, true, true, false, false⟩,
  ⟨Reg.secErr, 1, .w1c, 0x7, 0x0, false, true, true, false, false⟩,
  ⟨Reg.secDevid, 4, .ro, 0x0, 0x0, false, true, true, false, false⟩,
  ⟨Reg.secNonce, 8, .rw, 0xFFFFFFFF, 0x0, false, true, true, false, false⟩,
  ⟨Reg.secAttctl, 1, .rw, 0x4, 0x0, false, true, true, false, true⟩,
  ⟨Reg.secBufidx, 1, .rw, 0xFF, 0x0, false, true, true, false, false⟩,
  ⟨Reg.secBufdata, 1, .ro, 0x0, 0x0, false, true, true, false, false⟩,
  ⟨Reg.secBuflen, 1, .ro, 0x0, 0x0, false, true, true, false, false⟩,
  ⟨Reg.secCmdidx, 1, .rw, 0xFFF, 0x0, false, true, true, false, false⟩,
  ⟨Reg.secCmddata, 1, .rw, 0xFFFFFFFF, 0x0, false, true, true, false, false⟩,
  ⟨Reg.secCmdstat, 1, .rw, 0x0, 0x0, false, true, true, false, true⟩,
  ⟨Reg.secAttcnt, 1, .rc, 0x0, 0x0, false, true, true, false, false⟩,
  ⟨Reg.secCmdcnt, 1, .rc, 0x0, 0x0, false, true, true, false, false⟩,
  ⟨Reg.audStat, 1, .ro, 0x0, 0x0, false, true, true, false, false⟩,
  ⟨Reg.audErr, 1, .w1c, 0x3, 0x0, false, true, true, false, false⟩,
  ⟨Reg.audAseq, 1, .ro, 0x0, 0x0, false, true, true, false, false⟩,
  ⟨Reg.audLostcnt, 1, .rc, 0x0, 0x0, false, true, true, false, false⟩,
  ⟨Reg.audRingidx, 1, .rw, 0x3FF, 0x0, false, true, true, false, false⟩,
  ⟨Reg.audRd, 34, .ro, 0x0, 0x0, false, true, true, false, false⟩,
  ⟨Reg.audFfirst, 1, .ro, 0x0, 0x0, false, false, true, false, false⟩,
  ⟨Reg.audFlast, 1, .ro, 0x0, 0x0, false, false, true, false, false⟩,
  ⟨Reg.cruStat, 1, .ro, 0x0, 0x0, false, false, true, false, false⟩,
  ⟨Reg.cruEmjl, 1, .ro, 0x0, 0x0, false, false, true, true, false⟩,
  ⟨Reg.cruEmjh, 1, .ro, 0x0, 0x0, false, false, true, false, false⟩,
  ⟨Reg.cruEfrac, 1, .ro, 0x0, 0x0, false, false, true, false, false⟩,
  ⟨Reg.cruTimef, 1, .ro, 0x0, 0x0, false, false, true, true, false⟩,
  ⟨Reg.cruTimes0, 1, .ro, 0x0, 0x0, false, false, true, false, false⟩,
  ⟨Reg.cruTimes1, 1, .ro, 0x0, 0x0, false, false, true, false, false⟩,
  ⟨Reg.cruVlast, 1, .ro, 0x0, 0x0, false, false, true, false, false⟩,
  ⟨Reg.cruIlast, 1, .ro, 0x0, 0x0, false, false, true, false, false⟩,
  ⟨Reg.cruRseq, 1, .ro, 0x0, 0x0, false, false, true, false, false⟩,
  ⟨Reg.cruLogn, 1, .ro, 0x0, 0x0, false, false, true, false, false⟩,
  ⟨Reg.cruSwid, 1, .ro, 0x0, 0x0, false, false, true, false, false⟩,
  ⟨Reg.cruSwcrc, 1, .ro, 0x0, 0x0, false, false, true, false, false⟩,
  ⟨Reg.cruParcrc, 1, .ro, 0x0, 0x0, false, false, true, false, false⟩,
  ⟨Reg.cruMid, 4, .ro, 0x0, 0x0, false, false, true, false, false⟩,
  ⟨Reg.cruRevcnt, 1, .ro, 0x0, 0x0, false, false, true, false, false⟩,
  ⟨Reg.cruOvrcnt, 1, .ro, 0x0, 0x0, false, false, true, false, false⟩,
  ⟨Reg.cruLinkerr, 1, .ro, 0x0, 0x0, false, false, true, false, false⟩,
  ⟨Reg.cruPar, 8, .ro, 0x0, 0x0, false, false, true, false, false⟩,
  ⟨Reg.cruLogidx, 1, .rw, 0x3FF, 0x0, false, false, true, false, false⟩,
  ⟨Reg.cruLog, 8, .ro, 0x0, 0x0, false, false, true, false, false⟩,
  ⟨Reg.cruAlloccfg, 1, .rw, 0x1F3F01, 0x0, false, false, true, false, true⟩,
  ⟨Reg.pwrSel, 1, .rw, 0xFFFF, 0x0, false, true, false, false, false⟩,
  ⟨Reg.pwrReq, 1, .rw, 0x3, 0x0, false, true, false, false, true⟩,
  ⟨Reg.pwrStat, 1, .ro, 0x0, 0x0, false, true, false, false, false⟩,
  ⟨Reg.pwrErr, 1, .w1c, 0x7, 0x0, false, true, false, false, false⟩]

/-- Register table, piece 13. -/
def regTable13 : List RegRow := [
  ⟨Reg.pwrCtrl, 1, .rw, 0x31, 0x11, false, true, false, false, true⟩,
  ⟨Reg.pwrDrainto, 1, .rw, 0xFFFF, 0xA, false, true, false, false, true⟩,
  ⟨Reg.pwrLadidle, 1, .rw, 0xFFFF, 0x64, false, true, false, false, true⟩,
  ⟨Reg.pwrTrancnt, 1, .rc, 0x0, 0x0, false, true, false, false, false⟩,
  ⟨Reg.pwrWakesrc, 1, .rc, 0x0, 0x0, false, true, false, false, false⟩,
  ⟨Reg.pwrArbmax, 6, .rc, 0x0, 0x0, false, true, false, false, false⟩,
  ⟨Reg.pwrAtCmpcfg, 1, .rwl, 0xE0FF007F, 0x100000, true, true, false, false, true⟩,
  ⟨Reg.pwrAtCmpen, 1, .rw, 0x1, 0x0, true, true, false, false, true⟩,
  ⟨Reg.pwrAtCmpthr, 1, .rwl, 0xFFFFFFFF, 0x0, true, true, false, false, true⟩,
  ⟨Reg.pwrAtCmphyst, 1, .rwl, 0xFFFFFFFF, 0x0, true, true, false, false, true⟩,
  ⟨Reg.pwrAtCmpstat, 1, .ro, 0x0, 0x0, true, true, false, false, false⟩,
  ⟨Reg.pwrAtCmpval, 1, .ro, 0x0, 0x0, true, true, false, false, false⟩,
  ⟨Reg.pwrAtCmpcnt, 1, .rc, 0x0, 0x0, true, true, false, false, false⟩,
  ⟨Reg.glbSel, 1, .rw, 0xFFFF, 0x0, false, true, true, false, false⟩,
  ⟨Reg.glbId, 1, .ro, 0x0, 0x0, false, true, true, false, false⟩,
  ⟨Reg.glbState, 1, .ro, 0x0, 0x0, false, true, true, false, false⟩,
  ⟨Reg.glbRstcause, 1, .ro, 0x0, 0x1, false, true, true, false, false⟩,
  ⟨Reg.glbPairstat, 1, .ro, 0x0, 0x0, false, false, true, false, false⟩,
  ⟨Reg.glbPairto, 1, .rw, 0xFFFF, 0x64, false, false, true, false, true⟩,
  ⟨Reg.glbLockerr, 1, .rc, 0x0, 0x0, false, true, true, false, false⟩,
  ⟨Reg.glbIrqstat, 1, .w1c, 0xFFF, 0x0, false, true, true, false, false⟩,
  ⟨Reg.glbIrqen, 1, .rw, 0xFFF, 0x0, false, true, true, false, true⟩,
  ⟨Reg.glbIrqmap, 3, .rw, 0x3F3F3F3F, 0x0, false, true, true, false, true⟩,
  ⟨Reg.glbOffmap, 8, .ro, 0x0, 0x0, false, false, true, false, false⟩]

/-- The whole register table. -/
def regTable : List RegRow :=
  regTable0 ++ regTable1 ++ regTable2 ++ regTable3 ++ regTable4 ++ regTable5 ++ regTable6 ++ regTable7 ++ regTable8 ++ regTable9 ++ regTable10 ++ regTable11 ++ regTable12 ++ regTable13

/-- The line of the register table that holds a byte offset. -/
def regRow? (ofs : Nat) : Option RegRow :=
  regTable.find? fun r => decide (r.ofs ≤ ofs) && decide (ofs < r.ofs + 4 * r.cnt)

end Sys2Proof.Machine
end

