-- ==== Sys2Proof/Machine/Ops.lean ====
section
/-! DEFINITION. The named operations over the common state: reading and writing registers by name, counters, outputs,
free values, the selections of the access ports, spans of time. -/

namespace Sys2Proof.Machine

/-- Key of a register in the register file: its offset and the instance it belongs to. -/
def regKey (ofs inst : Nat) : Nat := ofs + inst * 2 ^ 25

/-- Reset value of EVR[sel].CFG (14 R495): host codes 0x000A_0405; device codes EN, REC, BURST 16, RATE 100, with
ALARM where the defining rule gives it. -/
def evrCfgReset (alarmCodes : List Nat) (code : Nat) : Nat :=
  if code ≥ 0xC00 then 0x000A0405
  else if alarmCodes.contains code then 0x00641007 else 0x00641005

/-- Device codes whose records travel in the ALARM class (09 R615; 15 R513; 18 R580). -/
def alarmCodes : List Nat := [0x030, 0x041, 0x043, 0x044, 0x045, 0x046, 0x050, 0x051]

/-- Reset values of WIT_LSCFG0-7 (07 R279). -/
def lscfgReset (i : Nat) : Nat :=
  nth [0xC0010001, 0xC000C007, 0xC0014014, 0xC0014015, 0xC0000004, 0xC0000005, 0xC0000006, 0xC001001A] i 0

/-- Reset value of a register of a part: the register table's, but for the registers whose reset value differs by
part or by instance (13 R468, 14 R495, 07 R279, 02 R91). -/
def regReset (p : Part) (ofs inst : Nat) : Word :=
  BitVec.ofNat 32 <|
    if ofs = Reg.evrAtCfg then evrCfgReset alarmCodes inst
    else if Reg.witLscfg ≤ ofs ∧ ofs < Reg.witLscfg + 32 then lscfgReset ((ofs - Reg.witLscfg) / 4)
    else if ofs = Reg.flmTypemask then (match p with | .die => 0xF | .agg => 0x100)
    else match regRow? ofs with
      | some r => r.rst
      | none => 0

/-- The part is an aggregator. -/
def Unit.isAgg (u : Unit) : Bool := decide (u.kind = Part.agg)

/-- The part is a die unit. -/
def Unit.isDie (u : Unit) : Bool := decide (u.kind = Part.die)

/-- Number of the part's device key among the keys of `Config.romKey` (16 R516). -/
def Unit.deviceKey (u : Unit) : Nat := match u.kind with | .die => 3 | .agg => 4

/-- The value a register holds: instance `inst` of the register at `ofs`. -/
def Unit.rd (u : Unit) (ofs : Nat) (inst : Nat := 0) : Word :=
  (Tab.find (regKey ofs inst) u.regs).getD (regReset u.kind ofs inst)

/-- Give a register a value. -/
def Unit.wr (u : Unit) (ofs : Nat) (v : Word) (inst : Nat := 0) : Unit :=
  { u with regs := Tab.put (regKey ofs inst) v u.regs }

/-- A register as a natural number. -/
def Unit.rdN (u : Unit) (ofs : Nat) (inst : Nat := 0) : Nat := (u.rd ofs inst).toNat

/-- Bits `[hi:lo]` of a register. -/
def Unit.fld (u : Unit) (ofs hi lo : Nat) (inst : Nat := 0) : Nat := fieldOf (u.rd ofs inst) hi lo

/-- Bit `k` of a register. -/
def Unit.bit (u : Unit) (ofs k : Nat) (inst : Nat := 0) : Bool := bitAt (u.rd ofs inst) k

/-- Set bit `k` of a register to `b`. -/
def Unit.wrBit (u : Unit) (ofs k : Nat) (b : Bool) (inst : Nat := 0) : Unit :=
  u.wr ofs (setBit (u.rd ofs inst) k b) inst

/-- Set bits `[hi:lo]` of a register. -/
def Unit.wrFld (u : Unit) (ofs hi lo v : Nat) (inst : Nat := 0) : Unit :=
  u.wr ofs (setFld (u.rd ofs inst) hi lo v) inst

/-- Write a number into a register, modulo 2^32. -/
def Unit.wrN (u : Unit) (ofs v : Nat) (inst : Nat := 0) : Unit := u.wr ofs (BitVec.ofNat 32 v) inst

/-- A counter register one further, saturating. -/
def Unit.count (u : Unit) (ofs : Nat) (inst : Nat := 0) : Unit := u.wr ofs (satInc (u.rd ofs inst)) inst

/-- A counter register `n` further, saturating. -/
def Unit.countBy (u : Unit) (ofs n : Nat) (inst : Nat := 0) : Unit := u.wr ofs (satAdd (u.rd ofs inst) n) inst

/-- Addresses of a packet with a nonzero ignored field are counted, each once (01 R26). Mark: DEDUCED (log entry 52,
unsafe). -/
def Unit.addrs (u : Unit) (l : List Node) : Unit :=
  l.foldl (fun (u : Unit) n => if addrOdd n then u.count Reg.glbAddrfmt else u) u

/-- Drive an output. Mark: DESIGN CHOICE (log entry 2, safe). -/
def Unit.emit (u : Unit) (o : Out) : Unit := { u with out := u.out ++ [o] }

/-- Raise an ALARM that no rule gives a record.
Mark: DESIGN CHOICE (log entry 2, safe), DEDUCED (log entry 49, unsafe). -/
def Unit.alarm (u : Unit) (w : AlarmWhy) : Unit := u.emit (.alarm w)

/-- A partition is in reset (15 R510, R514: RAS_STAT). -/
def Unit.inReset (u : Unit) (part : Nat) : Bool := u.bit Reg.rasStat part

/-- The last reset's cause (18 R587, R596): bit `k` of GLB_RSTCAUSE alone. Mark: DEDUCED (log entry 39, unsafe). -/
def Unit.rstCause (u : Unit) (k : Nat) : Unit := u.wrN Reg.glbRstcause (2 ^ k)

/-- Power state of a die unit (18 R572); an aggregator has one state. -/
def Unit.power (u : Unit) : Nat := if u.isAgg then 0 else u.fld Reg.pwrStat 1 0

/-- The CAP island runs (18 R569, 15 R510). -/
def Unit.capRuns (u : Unit) : Bool := decide (u.power < 2) && !u.inReset 0

/-- The SCO island runs (18 R569, 15 R510). -/
def Unit.scoRuns (u : Unit) : Bool := decide (u.power = 0) && !u.inReset 1

/-- The SCO island takes what a latch gives it: it runs, and was ready before the latch's instant (18 R575). -/
def Unit.scores (u : Unit) : Bool := u.scoRuns && u.sco.skip == 0

/-- A free value, and the unit with the draw counted. The die unit, the aggregator and the Crucible count in steps of 3
from 0, 1 and 2, so that no two of their draws are tied together (log entry 3).
Mark: DESIGN CHOICE (log entry 3, safe). -/
def Unit.draw (u : Unit) : Nat × Unit := (Config.free u.fresh, { u with fresh := u.fresh + 3 })

/-- Instance selected by an access port in the block at `base` (01 R45, R46). -/
def Unit.selOf (u : Unit) (base : Nat) (o : Origin) : Nat :=
  Tab.getD u.sel (base + o.bank * 2 ^ 25) 0

/-- Microseconds in oscillator ticks of 4 ns. -/
def usT (n : Nat) : Nat := n * 250

/-- Milliseconds in oscillator ticks. -/
def msT (n : Nat) : Nat := n * 250000

/-- Ticks since an earlier count. Mark: DESIGN CHOICE (log entry 4, unsafe). -/
def Unit.since (u : Unit) (c : Nat) : Nat := u.clk - c

/-- Krazinil time in whole microseconds of hall time. -/
def timeUs (t : Nat) : Nat := t * 1000000 / 2 ^ 32

/-- Krazinil time in whole milliseconds of hall time. -/
def timeMs (t : Nat) : Nat := t * 1000 / 2 ^ 32

/-- Nanoseconds as FRAC units, rounded up. -/
def nsUp (ns : Nat) : Nat := (ns * 2 ^ 32 + 999999999) / 1000000000

/-- An integer of nanoseconds in FRAC units compares with FRAC units exactly: `x` FRAC units lie within `ns`. -/
def withinNs (x : Int) (ns : Nat) : Bool := decide (x.natAbs * 1000000000 ≤ ns * 2 ^ 32)

end Sys2Proof.Machine
end

