-- ==== Sys2Proof/Machine/Flags.lean ====
section
/-! DEFINITION. Error bits, interrupt sources and error counters. -/

namespace Sys2Proof.Machine

/-- Raise an interrupt source (18 R597). -/
def Unit.irq (u : Unit) (k : Nat) : Unit := u.wrBit Reg.glbIrqstat k true

/-- Set an error bit; TIM_ERR and TRC_ERR raise their interrupt sources with it (18 R597). -/
def Unit.err (u : Unit) (ofs k : Nat) : Unit :=
  let u := u.wrBit ofs k true
  if ofs = Reg.timErr then u.irq 2 else if ofs = Reg.trcErr then u.irq 10 else u

/-- Count an access error (01 R47) and raise its source (18 R597). -/
def Unit.accErr (u : Unit) : Unit := (u.count Reg.glbAccerr).irq 11

/-- Count a locked-write error (00_scope R19, 18 R596). -/
def Unit.lockErr (u : Unit) : Unit := u.count Reg.glbLockerr

end Sys2Proof.Machine
end

