-- ==== Sys2Proof/Machine/Commit.lean ====
section
/-! DEFINITION. Records on the committing side: the header and CHK of a record (09 R332-R335), acceptance into a
stream (09 R339-R342), refusal (09 R338), holding of ALARM records (09 R615), the hand-over to the compression
engine (13 R453), event entries (14 R483-R488) and audit entries (16 R543-R547). -/

namespace Sys2Proof

/-- Header bytes 0x00-0x1B of a record (09 R332). -/
def Rec.head (r : Rec) : List Byte :=
  [r.typ, r.flags] ++ Machine.leBytes 3 r.src.toNat ++ [r.cls] ++ Machine.leBytes 6 r.seq.toNat
    ++ Machine.leBytes 10 r.time.toNat ++ Machine.leBytes 2 r.payload.length ++ Machine.leBytes 4 r.gen.toNat

/-- CHK as 09 R335 computes it. -/
def Rec.goodChk (r : Rec) : Word := Machine.crc32c (r.head ++ r.payload)

/-- The header of a record (09 R332). -/
def Rec.header (r : Rec) : List Byte := r.head ++ Machine.leBytes 4 r.chk.toNat

/-- The record as stored: header and payload. -/
def Rec.bytes (r : Rec) : List Byte := r.header ++ r.payload

/-- The record that bytes spell, when they end where its header's LEN says (09 R332; 10 R378). -/
def Rec.parse (b : List Byte) : Option Rec :=
  let n := Machine.leAt b
  if b.length < 32 || decide (n 0x16 2 ≠ b.length - 32) then none
  else some
    { typ := b.headD 0, flags := (b.drop 1).headD 0, src := BitVec.ofNat 24 (n 2 3), cls := (b.drop 5).headD 0
      seq := BitVec.ofNat 48 (n 6 6), time := BitVec.ofNat 80 (n 0x0C 10), gen := BitVec.ofNat 32 (n 0x18 4)
      chk := BitVec.ofNat 32 (n 0x1C 4), payload := b.drop 32 }

/-- The class number of a record (09 R334: CLASS [2:0]). -/
def Rec.classNo (r : Rec) : Nat := Machine.bitsOf r.cls.toNat 2 0

/-- The traffic class of a record. -/
def Rec.rclass (r : Rec) : Option RecClass := RecClass.ofCode r.classNo

end Sys2Proof

namespace Sys2Proof.Machine

/-- Size of the retention buffer, bytes (09 R341). -/
def bufSize : Nat := 524288

/-- C_init of a stream's chain (09 R360): SHA-384 over "KZCH", SRC and the class number. -/
def chainInit (src : Node) (cls : Nat) : Digest :=
  Config.sha384 ([0x4B, 0x5A, 0x43, 0x48] ++ leBytes 3 src.toNat ++ leBytes 1 cls)

/-- A stream at the start of a series (09 R339, R360). -/
def newStream (src : Node) (cls : Nat) : Stream := ⟨0, false, chainInit src cls, []⟩

/-- The part's stream of a class. -/
def Unit.stream (u : Unit) (cls : Nat) : Stream := Tab.getD u.recs.streams cls (newStream u.node cls)

/-- Put a stream back. -/
def Unit.setStream (u : Unit) (cls : Nat) (s : Stream) : Unit :=
  { u with recs := { u.recs with streams := Tab.put cls s u.recs.streams } }

/-- Bytes of log entries, spilled or not. -/
def logFill (spill : Bool) (l : List LogEnt) : Nat :=
  ((l.filter fun e => e.spill == spill).map LogEnt.size).sum

/-- Fill of the retention buffer, bytes (09 R342). -/
def Unit.bufFill (u : Unit) : Nat := (u.recs.streams.vals.map fun s => logFill false s.log).sum

/-- Fill of the spill region, bytes (09 R342). -/
def Unit.spillFill (u : Unit) : Nat := (u.recs.streams.vals.map fun s => logFill true s.log).sum

/-- Where a record of a class and size finds room: `some false` the retention buffer, `some true` the spill region,
`none` neither (09 R341, R342). An aggregator commits to its journal (09 R351). -/
def Unit.room (u : Unit) (cls : RecClass) (size : Nat) : Option Bool :=
  match u.kind with
  | .agg => some false
  | .die =>
    let spilled := (u.stream cls.code).log.any LogEnt.spill
    let alarm := decide (cls = .alarm)
    let bufMax := if alarm then bufSize else bufSize - 32768
    let spMax := u.fld Reg.recSpsize 15 0 * 1048576 - (if alarm then 0 else 1048576)
    if !spilled && decide (u.bufFill + size ≤ bufMax) then some false
    else if u.bit Reg.recCtrl 0 && decide (u.spillFill + size ≤ spMax) then some true
    else none

/-- GEN of a record of a time (08 R292): the generation in force then; a generation taken at an instant is in force
after it. An aggregator belongs to no watch group. -/
def Unit.gen (u : Unit) (time : Nat) : Word :=
  match u.recs.gens.find? fun (g : Nat × Word) => decide (g.1 < time) with
  | some g => g.2
  | none => 0

/-- The record that a draft becomes: SEQ of its stream, TQ beside the class, CHK over the stored bytes. -/
def Unit.mkRec (u : Unit) (d : Draft) (stored : List Byte) (comp : Bool) : Rec :=
  let r : Rec :=
    { typ := BitVec.ofNat 8 d.typ
      flags := BitVec.ofNat 8 (d.flags + (if comp then 32 else 0))
      src := u.node
      cls := BitVec.ofNat 8 (d.cls.code + 16 * d.tq)
      seq := (u.stream d.cls.code).next
      time := BitVec.ofNat 80 d.time
      gen := u.gen d.time
      chk := 0
      payload := stored }
  { r with chk := r.goodChk }

/-- After a commit of a SNAPMAIN or SNAPFAST record: the reference of its TYPE and the count from the last key frame
(13 R461, R462). `key` says that the record is a key frame. -/
def Unit.noteRef (u : Unit) (d : Draft) (seq : Nat) (key : Bool) : Unit :=
  if d.typ = 1 ∨ d.typ = 2 then
    let n := Tab.getD u.flm.keys d.typ 0
    let n' := if key then 1 else if n = 0 then 0 else n + 1
    { u with flm := { u.flm with refs := Tab.put d.typ ⟨seq, d.payload⟩ u.flm.refs
                                 keys := Tab.put d.typ n' u.flm.keys } }
  else u

/-- Mark an audit entry in the ring. -/
def Unit.markAud (u : Unit) (a : Option Nat) (m : Nat) : Unit :=
  match a with
  | none => u
  | some n =>
    { u with aud := { u.aud with ring := u.aud.ring.map fun e => if e.aseq = n then { e with mark := m } else e } }

/-- Commit a draft whose room is known: SEQ, CHK, the log, the chain (09 R339, R341, R360). -/
def Unit.accept (u : Unit) (d : Draft) (stored : List Byte) (comp key spill : Bool) : Unit :=
  let c := d.cls.code
  let s := u.stream c
  let r := u.mkRec d stored comp
  let s' : Stream :=
    { next := s.next + 1, used := true
      chain := Config.sha384 (leBytes 48 s.chain.toNat ++ r.bytes)
      log := s.log ++ [⟨.rcd r, 32 + stored.length, spill⟩] }
  let u := (u.setStream c s').noteRef d s.next.toNat key
  let u := u.markAud d.aseq 2
  if d.cls = .alarm then { u with recs := { u.recs with alarmEpoch := some u.ep.lastMain } } else u

/-- Hold an ALARM record that finds no room (09 R615). -/
def Unit.hold (u : Unit) (d : Draft) : Unit :=
  let n := match Tab.find d.typ u.recs.held with
    | some (_, n) => satN 32 (n + 1)
    | none => 0
  { u with recs := { u.recs with held := Tab.put d.typ (d, n) u.recs.held } }

/-- Commit an ALARM record: never refused (09 R342). -/
def Unit.commitAlarm (u : Unit) (d : Draft) : Unit :=
  if !u.nodeOk then u
  else match u.room .alarm (32 + d.payload.length) with
    | some sp => u.accept d d.payload false false sp
    | none => u.hold d

/-- A draft of a record made now. -/
def Unit.draft (u : Unit) (typ : Nat) (cls : RecClass) (payload : List Byte) : Draft :=
  ⟨typ, 0, cls, u.tb.now, u.tb.tq, payload, none⟩

/-- Refuse a RECORD or BULK record: count it and report it (00_scope R12; 09 R338). -/
def Unit.refuse (u : Unit) (d : Draft) : Unit :=
  let u := u.markAud d.aseq 0
  let u := ((u.err Reg.recErr 0).count Reg.recRefcnt).irq 4
  let u := if d.cls = .bulk then { u with recs := { u.recs with refBulk := satN 32 (u.recs.refBulk + 1) } }
           else { u with recs := { u.recs with refRec := satN 32 (u.recs.refRec + 1) } }
  if u.recs.refusing && u.recs.refEpoch == some u.ep.lastMain then u
  else
    let pl := leBytes 4 u.recs.refRec ++ leBytes 4 u.recs.refBulk ++ leBytes 4 u.bufFill
      ++ leBytes 4 (u.spillFill / 1024)
    let u := u.commitAlarm (u.draft 0x22 .alarm pl)
    { u with recs := { u.recs with refRec := 0, refBulk := 0, refusing := true, refEpoch := some u.ep.lastMain } }

/-- In HOSTOFF the die unit commits no record (18 R573). -/
def Unit.hostOff (u : Unit) : Bool := u.recs.off

/-- A record that arises in HOSTOFF: an audit entry stays in its ring, any other waits (18 R573). -/
def Unit.wait (u : Unit) (d : Draft) : Unit :=
  match d.aseq with
  | some _ => u.markAud d.aseq 0
  | none => { u with recs := { u.recs with waiting := u.recs.waiting ++ [d] } }

/-- Commit a draft with the payload to be stored; `comp` says that it is a Flume frame, `key` that the frame is a key
frame. A part that holds no address accepts nothing (01 R32, R36). While POWERFAIL is in force a die unit refuses
RECORD and BULK records (09 R359). -/
def Unit.commitAs (u : Unit) (d : Draft) (stored : List Byte) (comp key : Bool) : Unit :=
  if u.hostOff then u.wait d
  else if d.cls = .alarm then u.commitAlarm d
  else if !u.nodeOk then u.markAud d.aseq 0
  else if u.recs.powerFail then u.refuse d
  else match u.room d.cls (32 + stored.length) with
    | some sp =>
      let u := u.accept d stored comp key sp
      { u with recs := { u.recs with refusing := false } }
    | none => u.refuse d

/-- Commit a draft uncompressed. -/
def Unit.commit (u : Unit) (d : Draft) : Unit := u.commitAs d d.payload false false

/-- The FLM_TYPEMASK bit of a TYPE (13 R468). -/
def typeMaskBit (typ : Nat) : Option Nat :=
  if typ = 0x01 then some 0 else if typ = 0x02 then some 1 else if typ = 0x25 then some 2
  else if typ = 0x24 then some 3 else if typ = 0x21 then some 4 else if typ = 0x03 then some 5
  else if typ = 0x10 then some 8 else none

/-- The record goes through the compression engine (13 R453); the engine is off in SLEEP and HOSTOFF. -/
def Unit.compressible (u : Unit) (d : Draft) : Bool :=
  u.bit Reg.flmCtrl 0
    && (match typeMaskBit d.typ with
        | some k => u.bit Reg.flmTypemask k && (decide (k = 8) == (u.isAgg))
        | none => false)
    && decide (d.cls ≠ .alarm)
    && decide (u.fld Reg.flmMinlen 15 0 ≤ d.payload.length) && decide (d.payload.length ≤ 65536)
    && !(u.isDie && decide (u.fld Reg.pwrStat 1 0 ≥ 2))

/-- Hand a record over: to the compression engine, or straight to its stream. Mark: DEDUCED (log entry 51, unsafe). -/
def Unit.submit (u : Unit) (d : Draft) : Unit :=
  if u.compressible d then
    { u.markAud d.aseq 1 with flm := { u.flm with queue := u.flm.queue ++ [d] } }
  else u.commit d

/-- Make and hand over a record now. -/
def Unit.record (u : Unit) (typ : Nat) (cls : RecClass) (payload : List Byte) : Unit :=
  u.submit (u.draft typ cls payload)

/-- Bytes of an event entry (14 R484). -/
def evBytes (e : EvEntry) : List Byte :=
  leBytes 2 e.code ++ leBytes 1 e.flags ++ leBytes 1 e.args.length ++ leBytes 10 e.time ++ leBytes 2 e.delay
    ++ leBytes 4 e.stamp.toNat ++ leBytes 1 e.sepoch ++ leBytes 3 e.src.toNat ++ leBytes 4 e.supp
    ++ leBytes 4 e.nseq ++ slice ((e.args.map fun w => leBytes 4 w.toNat).flatten ++ zeros 32) 0 32

/-- Units that the bucket of a code holds (14 R483). -/
def Unit.evTokens (u : Unit) (code : Nat) : Nat :=
  Tab.getD u.evr.tokens code (u.fld Reg.evrAtCfg 15 8 code * 1000)

/-- Commit the EVENT record of an entry (14 R486). An ALARM occurrence that finds no room is held. -/
def Unit.eventRecord (u : Unit) (e : EvEntry) : Unit :=
  let cfg := u.rd Reg.evrAtCfg e.code
  if bitAt cfg 2 && u.bit Reg.evrCtrl 1 then
    let alarm := bitAt cfg 1
    let d : Draft :=
      { typ := 0x20, flags := e.flags % 2, cls := if alarm then .alarm else .record, time := e.time, tq := e.tq
        payload := evBytes e, aseq := none }
    if alarm && u.nodeOk && (u.room .alarm (32 + d.payload.length)).isNone then
      let u := (u.count Reg.evrAtSupp e.code).err Reg.evrErr 1
      { u with evr := { u.evr with held := Tab.put e.code { e with flags := e.flags ||| 4 } u.evr.held } }
    else u.submit d
  else u

/-- Entries that the volatile ring holds (14 R487). -/
def ringCap (p : Part) : Nat := match p with | .die => 64 | .agg => 4096

/-- An occurrence of an event code (14 R483-R488): counted, suppressed or emitted. -/
def Unit.eventAt (u : Unit) (code : Nat) (args : List Word) (sw : Bool) (time delay : Nat) (stamp : Word)
    (sepoch : Nat) : Unit :=
  if !u.bit Reg.evrCtrl 0 then u
  else
    let cfg := u.rd Reg.evrAtCfg code
    let u := u.count Reg.evrAtCnt code
    let rate := fieldOf cfg 31 16
    let tok := u.evTokens code
    if !bitAt cfg 0 then u
    else if decide (rate ≠ 0) && decide (tok < 1000) then
      ((u.count Reg.evrAtSupp code).count Reg.evrSuppcnt).err Reg.evrErr 0
    else
      let e : EvEntry :=
        { code := code, flags := b2n sw + 2 * b2n (bitAt cfg 1), args := args, time := time, delay := delay
          stamp := stamp, sepoch := sepoch, src := if u.nodeOk then u.node else 0
          supp := u.rdN Reg.evrAtSupp code, nseq := u.evr.nseq, tq := u.tb.tq }
      let hist := u.isAgg && u.bit Reg.evrCtrl 2
      let u := u.wr Reg.evrAtSupp 0 code
      let u := { u with evr := { u.evr with
                  tokens := if rate = 0 then u.evr.tokens else Tab.put code (tok - 1000) u.evr.tokens
                  ring := lastN (ringCap u.kind) (u.evr.ring ++ [e])
                  nseq := (u.evr.nseq + 1) % 2 ^ 32
                  unflushed := if hist then u.evr.unflushed ++ [e] else u.evr.unflushed } }
      u.eventRecord e

/-- A device code raised by the part itself (14 R482). -/
def Unit.event (u : Unit) (code : Nat) (args : List Word) : Unit :=
  u.eventAt code args false u.tb.now 0 0 0

/-- Bytes of an audit entry (16 R543). -/
def audBytes (e : AudEntry) : List Byte :=
  leBytes 4 e.aseq ++ leBytes 1 e.act ++ leBytes 1 (b2n e.gap) ++ zeros 2 ++ leBytes 10 e.time ++ zeros 2
    ++ leBytes 4 e.stamp.toNat ++ leBytes 3 e.onode.toNat ++ zeros 1 ++ leBytes 4 e.tofs ++ leBytes 4 e.tidx
    ++ leBytes 48 e.oldh.toNat ++ leBytes 48 e.newh.toNat ++ zeros 4

/-- Payload of the AUDIT record of an entry or a report (16 R546): AKIND and 7 bytes of 0 before it. -/
def audPayload (akind : Nat) (body : List Byte) : List Byte := leBytes 1 akind ++ zeros 7 ++ body

/-- Offer one uncommitted audit entry for commit (16 R546). -/
def Unit.offerAud (u : Unit) (e : AudEntry) : Unit :=
  let e := { e with gap := e.gap || u.aud.gap }
  let u := { u with aud := { u.aud with gap := false
                                        ring := u.aud.ring.map fun (x : AudEntry) => if x.aseq = e.aseq then e else x } }
  u.submit ⟨0x21, 0, .record, e.time, e.tq, audPayload 0 (audBytes e), some e.aseq⟩

/-- Offer every uncommitted audit entry, oldest first (16 R546). -/
def Unit.offerAll (u : Unit) : Unit :=
  (u.aud.ring.filter fun e => e.mark == 0).foldl Unit.offerAud u

/-- Make an audit entry of a change that took effect at `time` (16 R543-R547). -/
def Unit.auditAt (u : Unit) (time act : Nat) (stamp : Word) (onode : Node) (tofs tidx : Nat) (oldh newh : Digest) :
    Unit :=
  let e : AudEntry :=
    { aseq := u.aud.next, act := act, gap := false, time := time, tq := u.tb.tq, stamp := stamp, onode := onode
      tofs := tofs, tidx := tidx, oldh := oldh, newh := newh, mark := 0 }
  let lost := if u.aud.ring.length ≥ 1024 then
      (match u.aud.ring with | o :: _ => o.mark != 2 | [] => false) else false
  let u := if lost then (u.count Reg.audLostcnt).err Reg.audErr 0 else u
  let u := { u with aud := { u.aud with
              ring := lastN 1024 (u.aud.ring ++ [e])
              next := (u.aud.next + 1) % 2 ^ 32
              gap := u.aud.gap || lost
              pendFlash := if u.isAgg then u.aud.pendFlash ++ [audBytes e] else u.aud.pendFlash } }
  u.offerAll

/-- Make an audit entry of a change that takes effect now. -/
def Unit.audit (u : Unit) (act : Nat) (stamp : Word) (onode : Node) (tofs tidx : Nat) (oldh newh : Digest) : Unit :=
  u.auditAt u.tb.now act stamp onode tofs tidx oldh newh

/-- The hash of a register value in an audit entry (16 R544): SHA-384 of its 4 bytes. -/
def regHash (w : Word) : Digest := Config.sha384 (leBytes 4 w.toNat)

/-- REGWRITE entry of a register write (16 R544); none when the value stays the same and no command bit was set.
Mark: DEDUCED (log entry 18, unsafe). -/
def Unit.auditWrite (u : Unit) (o : Origin) (ofs inst : Nat) (old new : Word) (cmd : Bool) : Unit :=
  if old = new ∧ !cmd then u
  else u.audit 0 o.stamp o.onode ofs inst (regHash old) (regHash new)

end Sys2Proof.Machine
end

