-- ==== Sys2Proof/Machine/Time.lean ====
section
/-! DEFINITION. Time, epochs and triggers (02_time): the timebase and its disciplines, the arithmetic of epoch
instants, the change of period, steps and the catching up after them, trigger channels, and the PTP fallback. -/

namespace Sys2Proof.Machine

/-- What a trigger channel of a part asks of the rest of the part when it fires (02 R81, R91). -/
inductive TrigAct where
  /-- CONVERT: the converter group of ARG. -/
  | convert (group : Nat)
  /-- FENCE: the fence slot of ARG, and the instant. -/
  | fence (slot time : Nat)
  deriving DecidableEq, Repr

/-- One mark period in FRAC units: 2^-20 s (02, "The host time port"). -/
def markPer : Nat := 4096

/-- Krazinil time of the instant at u, in 10 µs units (02 R65). -/
def instantOf (u : Nat) : Nat :=
  let sec := u / 100000
  let r := u % 100000
  sec * 2 ^ 32 + (r * 2 ^ 32 + 99999) / 100000

/-- The latest u whose instant is at or before a time. -/
def uOf (t : Nat) : Nat := t * 100000 / 2 ^ 32

/-- EPU and EPFU in force. -/
def Unit.epu (u : Unit) : Nat := u.fld Reg.timEp 16 0
def Unit.epfu (u : Unit) : Nat := u.fld Reg.timEpf 16 0

/-- Epochs fire in LOCKED, HOLDOVER, DEGRADED and PTP, once LOCKED or PTP has been reached (02 R72). -/
def Unit.epochsFire (u : Unit) : Bool := u.ep.started && decide (u.tb.tq ≤ 3)

/-- A move of the timebase by a signed number of FRAC units, modulo 2^80. -/
def Unit.moveTime (u : Unit) (d : Int) : Unit :=
  { u with tb := { u.tb with now := wrapN 80 ((u.tb.now : Int) + d) } }

/-- The next main instant, as u. -/
def Unit.nextMain (u : Unit) : Nat := (u.ep.um / u.epu + 1) * u.epu

/-- The next fast instant, as u. -/
def Unit.nextFast (u : Unit) : Nat := (u.ep.uf / u.epfu + 1) * u.epfu

/-- Pass the instant at u: it fires as a main epoch when EPEN = 1 (else its number is void, 02 R90) and as a fast
epoch when the fast set is enabled (02 R66-R69). -/
def Unit.passInstant (u : Unit) (v : Nat) (isMain isFast step : Bool) : Unit :=
  let mainOn := isMain && u.bit Reg.timCtrl 0
  let n := v / u.epu
  let m := v / u.epfu
  let e := u.ep
  let mc := if isMain then e.mcnt + 1 else e.mcnt
  let fc := if isFast then e.fcnt + 1 else e.fcnt
  let f : Fired :=
    { main := if mainOn then some n else none, fast := if isFast then some m else none, time := instantOf v
      step := step, mcnt := mc, fcnt := fc, epu := u.epu, epfu := u.epfu, resumed := mainOn && e.voided }
  let u := { u with ep := { e with
      um := if isMain then v else e.um
      uf := if isFast then v else e.uf
      lastMain := if mainOn then n else e.lastMain
      lastFast := if isFast then m else e.lastFast
      anyMain := e.anyMain || mainOn
      mcnt := mc, fcnt := fc
      voided := if mainOn then false else isMain || e.voided
      fired := if (mainOn || isFast) && (u.isAgg || decide (u.fld Reg.pwrStat 1 0 < 2)) then e.fired ++ [f]
               else e.fired } }
  let u := if mainOn then (u.wrN Reg.timAtFirecnt (u.rdN Reg.timAtFirecnt 0 + 1) 0).wrBit Reg.timAtStat 1 true 0 else u
  if isFast then (u.wrN Reg.timAtFirecnt (u.rdN Reg.timAtFirecnt 1 + 1) 1).wrBit Reg.timAtStat 1 true 1 else u

/-- A pending period takes effect, after the last epoch of the old period has fired (02 R70). -/
def Unit.epSwitch (u : Unit) : Unit :=
  match u.ep.pend with
  | none => u
  | some (v, nu, nf) =>
    if instantOf v ≤ u.tb.now ∧ (¬ u.epochsFire ∨ v ≤ u.ep.um) then
      let u := (u.wrN Reg.timEp nu).wrN Reg.timEpf nf
      { u with ep := { u.ep with pend := none } }
    else u

/-- An EPOCH_FIRE: the next main instant, once the timebase has reached it (02 R66); one latch serves a fast instant
at the same u (02 R68). Instants passed by a step fire through CATCHUP_FIRE instead (02 R73), and an ordinary instant that
comes while they do waits for the last of them. Mark: DEDUCED (log entry 58, unsafe). -/
def Unit.epochFire (u : Unit) : Unit :=
  let u := u.epSwitch
  let v := u.nextMain
  if u.epochsFire && u.ep.catchTo.isNone && decide (instantOf v ≤ u.tb.now) then
    u.passInstant v true (u.bit Reg.timCtrl 1 && decide (u.nextFast = v)) false
  else u

/-- A FAST_EPOCH_FIRE: the next fast instant (02 R67-R69). -/
def Unit.fastFire (u : Unit) : Unit :=
  let u := u.epSwitch
  let v := u.nextFast
  if u.bit Reg.timCtrl 1 && u.epochsFire && u.ep.catchTo.isNone && decide (instantOf v ≤ u.tb.now) then
    u.passInstant v (decide (u.nextMain = v)) true false
  else u

/-- AT of a ONESHOT channel. -/
def Unit.chAt (u : Unit) (ch : Nat) : Nat :=
  u.rdN Reg.timAtAtf ch + 2 ^ 32 * (u.rdN Reg.timAtAts0 ch + 2 ^ 32 * u.fld Reg.timAtAts1 15 0 ch)

/-- MODE of a channel (02 R81, R91). -/
def Unit.chMode (u : Unit) (ch : Nat) : Nat := u.fld Reg.timAtCfg 2 0 ch

/-- Time up to which a channel's instants are done with. -/
def Unit.chDone (u : Unit) (ch : Nat) : Nat := Tab.getD u.trg.done ch 0

/-- The next instant of a period of `per` units of 10 µs, plus OFS, after time `w` (02 R81). -/
def perNext (per ofs w : Nat) : Nat :=
  if w < ofs then instantOf 0 + ofs else instantOf ((uOf (w - ofs) / per + 1) * per) + ofs

/-- The next instant of a general channel (02 R81); none when it is not armed, off, or its series does not run.
Mark: DEDUCED (log entry 58, unsafe). -/
def Unit.chNext (u : Unit) (ch : Nat) : Option Nat :=
  let w := u.chDone ch
  let ofs := nsUp (u.fld Reg.timAtOfs 29 0 ch)
  let mode := u.chMode ch
  if ch < 2 ∨ ¬ u.bit Reg.timAtArm 0 ch ∨ ¬ u.epochsFire then none
  else if mode = 1 then some (perNext u.epu ofs w)
  else if mode = 2 then (if u.bit Reg.timCtrl 1 then some (perNext u.epfu ofs w) else none)
  else if mode = 3 then some (perNext (u.fld Reg.timAtPeru 16 0 ch) ofs w)
  else if mode = 4 then some (u.chAt ch)
  else none

/-- Pulse width of a HOSTOUT channel in oscillator ticks (02 R91): 16, 64, 256 or 1,024 ns. -/
def pulseTicks (pw : Nat) : Nat := 4 * 4 ^ pw

/-- Level of a TRIG_OUT line: high while any channel's pulse on it lasts (02 R92). -/
def Unit.lineHigh (u : Unit) (line : Nat) : Bool := u.trg.pulse.any fun p => p.1 % 8 == line

/-- A channel fires: count, status, self-disarm of a ONESHOT, and its action (02 R81, R84, R91, R92). The lines are 0-7 and
the fence slots 0-15: of a greater ARG the low bits count. Mark: DESIGN CHOICE (log entry 58, unsafe). -/
def Unit.chFire (u : Unit) (ch t : Nat) (late : Bool) : Unit × List TrigAct :=
  let cfg := u.rd Reg.timAtCfg ch
  let arg := fieldOf cfg 15 8
  let act := fieldOf cfg 7 4
  let u := { u with trg := { u.trg with done := Tab.put ch (max t (u.chDone ch)) u.trg.done } }
  let u := (u.wrN Reg.timAtFirecnt (u.rdN Reg.timAtFirecnt ch + 1) ch).wrBit Reg.timAtStat 1 true ch
  let u := if late then u.wrBit Reg.timAtStat 0 true ch else u
  let u := if fieldOf cfg 2 0 = 4 then u.wr Reg.timAtArm 0 ch else u
  if act = 2 then (u, [.convert arg])
  else if act = 3 then
    let k := 8 * ch + arg % 8
    let e := max (u.clk + pulseTicks (fieldOf cfg 25 24)) (Tab.getD u.trg.pulse k 0)
    let u := { u with trg := { u.trg with pulse := Tab.put k e u.trg.pulse } }
    (u.emit (.pin (.trigOut (arg % 8)) 1), [])
  else if act = 4 then (u, [.fence (arg % 16) t])
  else (u, [])

/-- A main or fast instant at or before a time has not fired: channels 0 and 1 come first (02 R83). -/
def Unit.epochDue (u : Unit) (t : Nat) : Bool :=
  u.epochsFire && (decide (instantOf u.nextMain ≤ t) || (u.bit Reg.timCtrl 1 && decide (instantOf u.nextFast ≤ t)))

/-- A TRIGGER_FIRE of a general channel whose instant the timebase has reached (02 R82), after the channels below it at the
same instant (02 R83). -/
def Unit.trigFire (u : Unit) (ch : Nat) : Unit × List TrigAct :=
  match u.chNext ch with
  | some t =>
    let first := !u.epochDue t && (List.range ch).all fun k => match u.chNext k with | some x => decide (t < x) | none => true
    if first && decide (t ≤ u.tb.now) && (match u.ep.catchTo with | some c => decide (c < t) | none => true) then
      u.chFire ch t false
    else (u, [])
  | none => (u, [])

/-- The end of the TRIG_OUT pulses of a channel that have lasted their width (02 R92). -/
def Unit.pulseEnd (u : Unit) (ch : Nat) : Unit :=
  let over_ := fun (p : Nat × Nat) => p.1 / 8 == ch && decide (p.2 ≤ u.clk)
  let v := { u with trg := { u.trg with pulse := u.trg.pulse.filter fun p => !over_ p } }
  (u.trg.pulse.filter over_).foldl (fun (w : Unit) p => if v.lineHigh (p.1 % 8) then w else w.emit (.pin (.trigOut (p.1 % 8)) 0)) v

/-- The earliest instant at or before `lim` of the main, fast and general channel series (02 R73, R86). -/
def Unit.dueAt (u : Unit) (lim : Nat) : Option Nat :=
  let m := if u.epochsFire then [instantOf u.nextMain] else []
  let f := if u.epochsFire && u.bit Reg.timCtrl 1 then [instantOf u.nextFast] else []
  let c := (List.range 16).filterMap u.chNext
  ((m ++ f ++ c).filter fun t => decide (t ≤ lim)).min?

/-- Fire everything due at instant `t`, channels in ascending order (02 R83). Mark: DEDUCED (log entry 58, unsafe). -/
def Unit.fireAt (u : Unit) (t : Nat) : Unit × List TrigAct :=
  let isM := u.epochsFire && decide (instantOf u.nextMain = t)
  let isF := u.epochsFire && u.bit Reg.timCtrl 1 && decide (instantOf u.nextFast = t)
  let u := if isM || isF then u.passInstant (if isM then u.nextMain else u.nextFast) isM isF true else u
  (List.range 16).foldl
    (fun (a : Unit × List TrigAct) ch =>
      match a.1.chNext ch with
      | some x => if x = t then
          let r := a.1.chFire ch t (decide (a.1.chMode ch = 4))
          (r.1, a.2 ++ r.2) else a
      | none => a) (u, [])

/-- Fire the next instant that a forward step passed; the one after it comes 1 µs later (02 R73).
Mark: DEDUCED (log entry 58, unsafe). -/
def Unit.catchFire (u : Unit) : Unit × List TrigAct :=
  match u.ep.catchTo with
  | none => (u, [])
  | some lim =>
    if u.clk < u.ep.catchClk then (u, [])
    else match u.dueAt lim with
      | none => ({ u with ep := { u.ep with catchTo := none } }, [])
      | some t =>
        let r := u.fireAt t
        let u := r.1.epSwitch
        let u := { u with ep := { u.ep with catchClk := u.clk + usT 1 } }
        (if (u.dueAt lim).isNone then { u with ep := { u.ep with catchTo := none } } else u, r.2)

/-- ONESHOT instants in (`t0`, `t1`] that a step passes fire at once, with LATE (02 R86). -/
def Unit.oneshotsPassed (u : Unit) (t0 t1 : Nat) : Unit × List TrigAct :=
  (List.range 16).foldl
    (fun (a : Unit × List TrigAct) ch =>
      match a.1.chNext ch with
      | some x => if a.1.chMode ch = 4 ∧ t0 < x ∧ x ≤ t1 then
          let r := a.1.chFire ch x true
          (r.1, a.2 ++ r.2) else a
      | none => a) (u, [])

/-- A step of the timebase by `d` FRAC units (02 R60, R73): refused beyond 1 ms. -/
def Unit.stepTime (u : Unit) (d : Int) : Unit × List TrigAct :=
  let u := { u with tb := { u.tb with bad := 0, mism := none } }
  if !withinNs d 1000000 then
    let u := { u with tb := { u.tb with refused := some d, tq := 2 } }
    ((u.err Reg.timErr 4).alarm .stepRefused, [])
  else
    let t0 := u.tb.now
    let u := (u.moveTime d)
    let u := { u with tb := { u.tb with good := 0 } }
    let u := (u.count Reg.timStepcnt).err Reg.timErr 3
    if d > 0 then
      let r := u.oneshotsPassed t0 u.tb.now
      let u := { r.1 with ep := { r.1.ep with catchTo := some r.1.tb.now, catchClk := r.1.clk } }
      let q := u.catchFire
      (q.1, r.2 ++ q.2)
    else (u, [])

/-- The first time the timebase reaches LOCKED, or PTP: epochs begin with the first instant after it (02 R72). -/
def Unit.startEpochs (u : Unit) : Unit :=
  if u.ep.started then u
  else
    let v := uOf u.tb.now
    let done := (List.range 14).foldl (fun t k => Tab.put (k + 2) u.tb.now t) u.trg.done
    { u with ep := { u.ep with started := true, um := v, uf := v }, trg := { u.trg with done := done } }

/-- Enter a time-quality state. -/
def Unit.setTq (u : Unit) (q : Nat) : Unit :=
  let u := { u with tb := { u.tb with tq := q } }
  if q = 0 ∨ q = 3 then u.startEpochs else u

/-- Slew toward the marked instant: by at most 1 ns for the mark period and with a frequency correction within
±50 ppm (02 R59). How far is not stated: free values within those limits (log entry 3).
Mark: DEDUCED (log entry 28, unsafe). -/
def Unit.slew (u : Unit) (pe : Int) : Unit :=
  let (a, u) := u.draw
  let (b, u) := u.draw
  let m := a % (min pe.natAbs 4 + 1)
  let u := u.moveTime (if pe > 0 then -(m : Int) else (m : Int))
  u.wrN Reg.timFreq (wrapN 32 ((b % 100001 : Nat) - 50000 : Int))

/-- Phase error of a mark edge at the present reading: against the nearest whole multiple of 2^-20 s, an exact half
going to the earlier (02, "Discipline of the timebase"). -/
def phaseErr (now : Nat) : Int :=
  let r := now % markPer
  if r ≤ markPer / 2 then (r : Int) else (r : Int) - (markPer : Int)

/-- The mark instant that an edge at the present reading is taken to mark. -/
def markInst (now : Nat) : Nat := ((now : Int) - phaseErr now).toNat

/-- The loop is locked to the port: 64 marks within 2 ns and QUAL 0x00 (02 R57). -/
def Unit.portLocked (u : Unit) : Bool := decide (u.tb.good ≥ 64) && u.tb.qual == some 0 && u.tb.refused.isNone

/-- TIM_PHERR: the phase error in units of 0.25 ns; the rounding is not stated, so the last unit is free. -/
def Unit.notePherr (u : Unit) (pe : Int) : Unit :=
  let q := Int.fdiv (pe * 4000000000) (2 ^ 32)
  if q * 2 ^ 32 = pe * 4000000000 then u.wrN Reg.timPherr (wrapN 32 q)
  else
    let (a, u) := u.draw
    u.wrN Reg.timPherr (wrapN 32 (q + (a % 2 : Nat)))

/-- Whether the host port has shown LOCKED conditions, kept for the return from PTP (02 R64). -/
def Unit.notePort (u : Unit) : Unit :=
  let since := if u.portLocked then (match u.tb.ptp.portSince with | some c => some c | none => some u.clk) else none
  { u with tb := { u.tb with ptp := { u.tb.ptp with portSince := since } } }

/-- A mark that the loop would call locked: within 2 ns of its instant (02 R57). In PTP the timebase follows another source,
so that the port is locked when its marks keep their phase: within 2 ns of the mark before (02 R64).
Mark: DEDUCED (log entry 57, unsafe). -/
def Unit.markFits (u : Unit) (pe : Int) : Bool := withinNs (if u.tb.tq = 3 then pe - u.tb.lastPe else pe) 2

/-- A mark at most 200 ns from its instant (02 R57, R59). -/
def Unit.goodMark (u : Unit) (pe : Int) : Unit :=
  let good := if u.markFits pe then min (u.tb.good + 1) 64 else 0
  let u := { u with tb := { u.tb with good := good, bad := 0, lastMark := some u.clk } }
  let u := if u.tb.refused.isSome ∨ u.tb.tq = 3 then u else u.slew pe
  let u := u.notePort
  if u.portLocked && (u.tb.tq == 1 || u.tb.tq == 2 || u.tb.tq == 4) then u.setTq 0 else u

/-- A mark more than 200 ns from its instant: an outlier, and the fourth in a row is a step (02 R59, R60). In PTP the two
sources may differ by more until the change of source, which steps (02 R64): the marks move nothing.
Mark: DEDUCED (log entry 28, unsafe), DEDUCED (log entry 57, unsafe). -/
def Unit.badMark (u : Unit) (pe : Int) : Unit × List TrigAct :=
  let ptp := decide (u.tb.tq = 3)
  let u := { u with tb := { u.tb with good := if ptp && u.markFits pe then min (u.tb.good + 1) 64 else 0
                                      bad := if ptp then 0 else u.tb.bad + 1
                                      lastMark := if ptp then some u.clk else u.tb.lastMark } }
  let u := u.notePort
  if u.tb.bad ≥ 4 ∧ u.tb.refused.isNone then u.stepTime (-pe)
  else ((u.count Reg.timOutlier).err Reg.timErr 2, [])

/-- An HT_MARK edge (02 R57-R60). In UNSET a mark counts toward the major mark at which NEXT is taken (02 R58); the unit
enters ACQUIRING there whatever the frame's QUAL, and a QUAL other than 0 makes it DEGRADED at the next valid frame.
Mark: DEDUCED (log entry 28, unsafe). -/
def Unit.markEdge (u : Unit) : Unit × List TrigAct :=
  if u.tb.tq = 5 then
    match u.tb.next with
    | none => (u, [])
    | some (t, left) =>
      if left ≤ 1 then
        ({ u with tb := { u.tb with now := t, sub := 0, next := none, tq := 4, good := 0, bad := 0, markAt := t
                                    lastMark := some u.clk } }, [])
      else ({ u with tb := { u.tb with next := some (t, left - 1) } }, [])
  else
    let pe := phaseErr u.tb.now
    let u := { u with tb := { u.tb with markAt := markInst u.tb.now } }
    let u := u.notePherr pe
    let r := if withinNs pe 200 then (u.goodMark pe, []) else u.badMark pe
    ({ r.1 with tb := { r.1.tb with lastPe := pe } }, r.2)

/-- A time-of-day frame, complete at the 128th mark after a major mark (02 R55, R58). Two frames agree when they differ from
the timebase by amounts within one mark period of each other, and the step is by the second's. There is none while a refused
step waits for RESYNC (02 R60), nor in PTP, where a difference of the sources is stepped at the change of source (02 R64).
Mark: DEDUCED (log entry 28, unsafe). -/
def Unit.todFrame (u : Unit) (f : BitVec 128) : Unit × List TrigAct :=
  let next := bitsOf f.toNat 87 8
  let chk := bitsOf f.toNat 119 88
  let q := bitsOf f.toNat 127 120
  if (crc32c (leBytes 10 next)).toNat ≠ chk then (u.err Reg.timErr 0, [])
  else if bitsOf f.toNat 7 0 ≠ 0x7E then (u, [])
  else
    let u := { u with tb := { u.tb with qual := some q } }
    let u := u.notePort
    if u.tb.tq = 5 then
      (if u.tb.next.isNone then { u with tb := { u.tb with next := some (next, 896) } } else u, [])
    else
      let d : Int := (next : Int) - ((u.tb.markAt + 896 * markPer : Nat) : Int)
      let r : Unit × List TrigAct :=
        if d.natAbs ≤ markPer then ({ u with tb := { u.tb with mism := none } }, [])
        else
          let u := u.err Reg.timErr 1
          match u.tb.mism with
          | some d0 => if (d - d0).natAbs ≤ markPer && u.tb.refused.isNone && decide (u.tb.tq ≠ 3) then u.stepTime d
                       else ({ u with tb := { u.tb with mism := some d } }, [])
          | none => ({ u with tb := { u.tb with mism := some d } }, [])
      let u := r.1
      (if q ≠ 0 ∧ (u.tb.tq = 0 ∨ u.tb.tq = 1 ∨ u.tb.tq = 4) then u.setTq 2 else u, r.2)

/-- LOCKED to HOLDOVER: no valid mark for 4 mark periods, 953.7 ticks (02 R57). -/
def Unit.holdover (u : Unit) : Unit :=
  match u.tb.lastMark with
  | some c => if u.tb.tq = 0 ∧ u.since c ≥ 954 then
      { u.setTq 1 with tb := { (u.setTq 1).tb with holdSince := u.clk, good := 0 } } else u
  | none => u

/-- HOLDOVER to DEGRADED after more than 10 ms (02 R57). -/
def Unit.degraded (u : Unit) : Unit :=
  if u.tb.tq = 1 ∧ u.since u.tb.holdSince > msT 10 then u.setTq 2 else u

/-- Instants up to a u are void, counted under the periods in force (02 R74; 03 R113 SPAN). -/
def Unit.voidTo (u : Unit) (v : Nat) : Unit :=
  let um := max u.ep.um v
  let uf := max u.ep.uf v
  { u with ep := { u.ep with
      um := um, uf := uf
      mcnt := u.ep.mcnt + (um / u.epu - u.ep.um / u.epu), fcnt := u.ep.fcnt + (uf / u.epfu - u.ep.uf / u.epfu) } }

/-- RESYNC: take the refused step and void the numbers it skips (02 R74). Mark: DEDUCED (log entry 28, unsafe). -/
def Unit.resync (u : Unit) : Unit × List TrigAct :=
  match u.tb.refused with
  | none => (u, [])
  | some d =>
    let t0 := u.tb.now
    let last := u.ep.lastMain
    let u := u.moveTime d
    let u := { u with tb := { u.tb with refused := none, good := 0, bad := 0, mism := none } }
    let u := (u.count Reg.timStepcnt).err Reg.timErr 3
    let r := if d > 0 then u.oneshotsPassed t0 u.tb.now else (u, [])
    let u := r.1
    let v := uOf u.tb.now
    let u := (u.voidTo (match u.ep.pend with | some x => if x.1 ≤ v then x.1 else v | none => v)).epSwitch.voidTo v
    let u := { u with ep := { u.ep with catchTo := none } }
    let um := u.ep.um
    let u := { u with trg := { u.trg with
        done := (List.range 14).foldl (fun t k => Tab.put (k + 2) (max u.tb.now (u.chDone (k + 2))) t) u.trg.done } }
    let first := um / u.epu + 1
    let w := fun (n k : Nat) => BitVec.ofNat 32 (n / 2 ^ (32 * k))
    (u.event 0x001 [w last 0, w last 1, w first 0, w first 1], r.2)

/-- A write of TIM_EPSWCTL.ARM (02 R70, R71): the switch takes the first u at or after TIM_EPSWU, later than now, that
is a whole multiple of the old and new periods, the fast ones too when the fast set is enabled. -/
def Unit.epSwitchArm (u : Unit) : Unit :=
  let nu := u.fld Reg.timEpnext 16 0
  let nf := u.fld Reg.timEpfnext 16 0
  if nu < 1 ∨ 100000 < nu ∨ nf < 1 ∨ 100000 < nf ∨ nu % nf ≠ 0 then u.err Reg.timErr 5
  else
    let l := Nat.lcm u.epu nu
    let l := if u.bit Reg.timCtrl 1 then Nat.lcm l (Nat.lcm u.epfu nf) else l
    let sw := u.rdN Reg.timEpswul + 2 ^ 32 * u.rdN Reg.timEpswuh
    let lo := max sw (uOf u.tb.now + 1)
    let v := (lo + l - 1) / l * l
    { u with ep := { u.ep with pend := some (v, nu, nf) } }

/-- A write of TIM_CTRL.EPEN (02 R90): it applies from the first main instant after it, so that one that has come already
passes as before. Mark: DEDUCED (log entry 58, unsafe). -/
def Unit.epenWrite (u : Unit) (on : Bool) : Unit := u.epochFire.wrBit Reg.timCtrl 0 on

/-- A write of TIM_CTRL.FASTEN (02 R69): with the fast set switched on, the next fast instant is the first after now.
Mark: DEDUCED (log entry 58, unsafe). -/
def Unit.fastenWrite (u : Unit) (on : Bool) : Unit :=
  let u := if on then u else u.fastFire
  if on && !u.bit Reg.timCtrl 1 then
    let uf := max u.ep.uf (uOf u.tb.now)
    { u.wrBit Reg.timCtrl 1 true with
        ep := { u.ep with uf := uf, fcnt := u.ep.fcnt + (uf / u.epfu - u.ep.uf / u.epfu) } }
  else u.wrBit Reg.timCtrl 1 on

/-- A write of TIM[sel].ARM (02 R69, R81, R84, R91). A write of EN = 0 does not stop a firing whose instant has come (02
R85); one of EN = 1 to an armed channel arms it anew, with the check of R84. A late ONESHOT fires at once in the states of R72
alone (02 R86). Mark: DEDUCED (log entry 58, unsafe). -/
def Unit.trigArm (u : Unit) (ch : Nat) (on : Bool) : Unit × List TrigAct :=
  let mode := u.chMode ch
  let act := u.fld Reg.timAtCfg 7 4 ch
  if ch < 2 then (u, [])
  else if !on then
    let r := match u.chNext ch with
      | some t => if t ≤ u.tb.now ∧ u.ep.catchTo = none then u.chFire ch t false else (u, [])
      | none => (u, [])
    (r.1.wr Reg.timAtArm 0 ch, r.2)
  else if mode ≥ 5 ∨ act ≥ 5 ∨ act < 2 then (u.err Reg.timErr 5, [])
  else if mode = 3 ∧ u.fld Reg.timAtPeru 16 0 ch * 10000 ≤ u.fld Reg.timAtOfs 29 0 ch then (u.err Reg.timErr 5, [])
  else if mode = 4 ∧ u.chAt ch < u.tb.now + nsUp 1000 then
    let u := (u.wrBit Reg.timAtStat 0 true ch).err Reg.timErr 6
    if u.bit Reg.timAtCfg 16 ch && u.epochsFire then u.chFire ch (u.chAt ch) true else (u.wr Reg.timAtArm 0 ch, [])
  else
    let u := u.wr Reg.timAtArm 1 ch
    ({ u with trg := { u.trg with done := Tab.put ch u.tb.now u.trg.done } }, [])

/-- Krazinil time of a PTP timestamp (02 R63). -/
def ptpTime (sec : BitVec 48) (ns : Word) : Nat :=
  sec.toNat * 2 ^ 32 + (ns.toNat * 2 ^ 32 + 500000000) / 1000000000

/-- 0.25 ns units as FRAC units, to the nearest. -/
def tslat (q : Nat) : Int := ((q * 2 ^ 32 + 2000000000) / 4000000000 : Nat)

/-- What a complete Sync measures: the offset from the master, the run of intervals within 50 ns (02 R64), and the
Delay_Req that measures the delay (11 R406). The servo holds the offset that it expects from the last two Syncs, so that a
timebase that has drifted away can still move to PTP. Mark: DEDUCED (log entry 57, unsafe). -/
def Unit.ptpMeasure (u : Unit) (port t1 t2 : Nat) : Unit :=
  let d21 : Int := (t2 : Int) - (t1 : Int)
  let ofs := d21 - u.tb.ptp.delay
  let run := if withinNs (ofs - (u.tb.ptp.ofs + u.tb.ptp.rate)) 50 then u.tb.ptp.run + 1 else 0
  let u := { u with tb := { u.tb with ptp := { u.tb.ptp with
      t2 := none, t3 := none, req := some port, d21 := d21, rate := ofs - u.tb.ptp.ofs, ofs := ofs, run := run } } }
  u.wrN Reg.timPtpofs (wrapN 32 (Int.fdiv (ofs * 1000000000) (2 ^ 32)))

/-- Follow the master by an offset: slewed when at most 200 ns, stepped otherwise (02 R64).
Mark: DEDUCED (log entry 57, unsafe). -/
def Unit.ptpFollow (u : Unit) (ofs : Int) : Unit :=
  if withinNs ofs 200 then u.slew ofs else (u.stepTime (-ofs)).1

/-- What the servo does with the offset: discipline in PTP, and the move to PTP (02 R64).
Mark: DEDUCED (log entry 57, unsafe). -/
def Unit.ptpDiscipline (u : Unit) : Unit :=
  if u.tb.tq = 3 then u.ptpFollow u.tb.ptp.ofs
  else if u.bit Reg.timCtrl 2 && u.tb.tq == 2 && decide (u.tb.ptp.run ≥ 16) then
    (u.ptpFollow u.tb.ptp.ofs).setTq 3
  else u

/-- A complete Sync (02 R63, R64). -/
def Unit.ptpSync (u : Unit) (port t1 t2 : Nat) : Unit := (u.ptpMeasure port t1 t2).ptpDiscipline

/-- A PTP message of the selected domain on an enabled port (02, "PTP fallback on the aggregator"; R63, R64).
Mark: DEDUCED (log entry 28, unsafe). -/
def Unit.ptpMessage (u : Unit) (m : PtpMsg) : Unit :=
  let ok := fun (port : Fin 8) (dom : Byte) =>
    u.bit Reg.timPtpcfg (8 + port.val) && decide (u.fld Reg.timPtpcfg 7 0 = dom.toNat)
  let mine := fun (port : Fin 8) => match u.tb.ptp.master with | some (p, _) => p == port.val | none => false
  match m with
  | .announce port dom scale rank =>
    if ok port dom && scale && (match u.tb.ptp.master with
        | some (p, r) => decide (rank < r) || p == port.val
        | none => true) then
      { u with tb := { u.tb with ptp := { u.tb.ptp with master := some (port.val, rank) } } }
    else u
  | .sync port dom two sec ns =>
    if ok port dom && mine port then
      let t2 := ((u.tb.now : Int) - tslat (u.fld Reg.fltAtTslat 31 16 port.val)).toNat
      if two then { u with tb := { u.tb with ptp := { u.tb.ptp with t2 := some (port.val, t2) } } }
      else u.ptpSync port.val (ptpTime sec ns) t2
    else u
  | .followUp port dom sec ns =>
    match u.tb.ptp.t2 with
    | some (p, t2) => if ok port dom && mine port && p == port.val then u.ptpSync port.val (ptpTime sec ns) t2 else u
    | none => u
  | .delayResp port dom sec ns =>
    match u.tb.ptp.t3 with
    | some t3 =>
      if ok port dom && mine port then
        let d43 : Int := (ptpTime sec ns : Int) - (t3 : Int)
        { u with tb := { u.tb with ptp := { u.tb.ptp with
            t3 := none, delay := Int.fdiv (u.tb.ptp.d21 + d43) 2 } } }
      else u
    | none => u
  | .pdelay _ => u

/-- The return from PTP to the host time port, after 1 s of LOCKED conditions there (02 R64): slewed when the sources differ
by at most 200 ns, and stepped otherwise, by what the last frame told beyond a mark period and by the phase error of the last
mark within one. Mark: DEDUCED (log entry 57, unsafe). -/
def Unit.ptpReturn (u : Unit) : Unit × List TrigAct :=
  match u.tb.ptp.portSince with
  | some c =>
    if u.tb.tq = 3 ∧ u.since c ≥ msT 1000 then
      match u.tb.mism with
      | some d => (u.setTq 0).stepTime d
      | none => if withinNs u.tb.lastPe 200 then ((u.setTq 0).slew u.tb.lastPe, []) else (u.setTq 0).stepTime (-u.tb.lastPe)
    else (u, [])
  | none => (u, [])

/-- TIM_STAT as it reads now (02 R89): HOLD counts from the last valid mark. -/
def Unit.timStat (u : Unit) (clkLoss : Bool) : Word :=
  let hold := match u.tb.lastMark with
    | some c => min (u.since c / 2500) 0xFFFF
    | none => 0
  BitVec.ofNat 32 (u.tb.tq + 16 * b2n (decide (u.tb.tq = 3)) + 32 * b2n clkLoss + 65536 * hold)

/-- The registers of TIM whose value the timebase and the epochs hold (02 R89). -/
def Unit.timView (u : Unit) (ofs inst : Nat) (clkLoss : Bool) : Option Word :=
  let w := fun (n k : Nat) => some (BitVec.ofNat 32 (n / 2 ^ (32 * k)))
  if ofs = Reg.timStat then some (u.timStat clkLoss)
  else if ofs = Reg.timNowf then w u.tb.now 0
  else if ofs = Reg.timNows0 then some (Tab.getD u.latch Reg.timNows0 0)
  else if ofs = Reg.timNows1 then some (Tab.getD u.latch Reg.timNows1 0)
  else if ofs = Reg.timEpswctl then w (2 * b2n u.ep.pend.isSome) 0
  else if ofs = Reg.timEpnl then w u.ep.lastMain 0
  else if ofs = Reg.timEpnh then w u.ep.lastMain 1
  else if ofs = Reg.timFepnl then w u.ep.lastFast 0
  else if ofs = Reg.timFepnh then w u.ep.lastFast 1
  else if ofs = Reg.timAtArm ∧ inst = 0 then w (b2n (u.bit Reg.timCtrl 0)) 0
  else if ofs = Reg.timAtArm ∧ inst = 1 then w (b2n (u.bit Reg.timCtrl 1)) 0
  else if ofs = Reg.timAtCfg ∧ inst < 2 then
    some (setFld (setFld (u.rd ofs inst) 2 0 (inst + 1)) 7 4 inst)
  else none

/-- One edge of the 250 MHz oscillator (02, "Discipline of the timebase"): the timebase adds 2^32 / 250,000,000 FRAC
units, with the frequency correction of TIM_FREQ in parts per billion.
Mark: DESIGN CHOICE (log entry 4, unsafe), DESIGN CHOICE (log entry 4, unsafe). -/
def Unit.tick (u : Unit) : Unit :=
  let ppb := sext 32 (u.rdN Reg.timFreq)
  let den : Nat := 250000000 * 1000000000
  let acc := u.tb.sub + (2 ^ 32 * (1000000000 + ppb)).toNat
  { u with clk := u.clk + 1
           tb := { u.tb with now := (u.tb.now + acc / den) % 2 ^ 80, sub := acc % den } }

end Sys2Proof.Machine
end

