-- ==== Sys2Proof/Machine/Pattern.lean ====
section
/-! DEFINITION. The sections of a pattern as the blocks read them: TAP, CNT, RECFMT and GATE (16 R527-R531), FEAT,
CUT, TREE and LEAF (05 R169-R186), DENSE (06 R218, R219) and DRIFT (06 R232, R233). Every section begins with an
8-byte head; offsets inside its tables count from the end of the head (16 R527). -/

namespace Sys2Proof.Machine

/-- The count in a section's head (16 R527). -/
def secCount (b : List Byte) : Nat := leAt b 0 2

/-- The bytes after a section's head. -/
def secBody (b : List Byte) : List Byte := b.drop 8

/-- The first `n` entries of `size` bytes. -/
def chunksOf (size : Nat) : Nat → List Byte → List (List Byte)
  | 0, _ => []
  | n + 1, b => b.take size :: chunksOf size n (b.drop size)

/-- Little-endian words of `size` bytes, `n` of them. -/
def wordsOf (size n : Nat) (b : List Byte) : List Nat := (chunksOf size n b).map leNat

/-- Section types of a model set (05, "Model sets and banks"; 06 R221). -/
def banked (styp : Nat) : Bool := decide (3 ≤ styp) && decide (styp ≤ 7)

/-- A bank of the model store. -/
def Unit.bank (u : Unit) (n : Nat) : Bank := if n = 0 then u.sco.bank0 else u.sco.bank1

/-- Replace a bank. -/
def Unit.setBank (u : Unit) (n : Nat) (b : Bank) : Unit :=
  if n = 0 then { u with sco := { u.sco with bank0 := b } } else { u with sco := { u.sco with bank1 := b } }

/-- Bytes of a section of a bank; empty where absent (16 R525). -/
def Bank.sec (b : Bank) (styp : Nat) : List Byte :=
  match Tab.find styp b.secs with
  | some s => s.bytes
  | none => []

/-- A section in force, if present. -/
def Unit.section? (u : Unit) (styp : Nat) : Option Section :=
  if banked styp then Tab.find styp (u.bank u.sco.active).secs else Tab.find styp u.pat.secs

/-- Bytes of a section in force; empty where absent. -/
def Unit.sec (u : Unit) (styp : Nat) : List Byte :=
  match u.section? styp with
  | some s => s.bytes
  | none => []

/-! ### CNT -/

/-- A counter entry of CNT (16 R529): its CFG word of 03 R127, SRC0 and SRC1. -/
structure CntEnt where
  idx : Nat
  cfg : Word
  src0 : Word
  src1 : Word
  deriving DecidableEq, Repr

/-- Counter entries from index `i` on. -/
def cntFrom (i : Nat) : List (List Byte) → List CntEnt
  | [] => []
  | b :: t =>
    ⟨i, BitVec.ofNat 32 (leAt b 0 4), BitVec.ofNat 32 (leAt b 4 4), BitVec.ofNat 32 (leAt b 8 4)⟩ :: cntFrom (i + 1) t

/-- All counter entries; none for an empty section. -/
def cntEnts (b : List Byte) : List CntEnt := cntFrom 0 (chunksOf 12 (secCount b) (secBody b))

/-- The entries of enabled counters. -/
def cntOn (b : List Byte) : List CntEnt := (cntEnts b).filter fun e => bitAt e.cfg 31

/-- MODE of 03 R95. -/
def CntEnt.mode (e : CntEnt) : Nat := fieldOf e.cfg 30 28

/-- LINE `k` of a counter. -/
def CntEnt.line (e : CntEnt) (k : Nat) : Nat :=
  if k = 0 then fieldOf e.src0 13 0 else if k = 1 then fieldOf e.src0 29 16
  else if k = 2 then fieldOf e.src1 13 0 else fieldOf e.src1 29 16

/-- A mark counter: mode HWM or LWM (03 R95). -/
def CntEnt.isMark (e : CntEnt) : Bool := e.mode == 5 || e.mode == 6

/-- What follows the counter entries. -/
def cntTail (b : List Byte) : List Byte := (secBody b).drop (12 * secCount b)

/-- MAINSLOTS (16 R525, R529). -/
def cntMainSlots (b : List Byte) : Nat := if b.isEmpty then 12 else leAt (cntTail b) 0 1

/-- The snapshot set: counter indices in position order. -/
def cntSnapSet (b : List Byte) : List Nat :=
  let t := cntTail b
  wordsOf 2 (leAt t 2 2) (t.drop 8)

/-- The fast set in list order; a production counter j appears as 2,048 + j. -/
def cntFastSet (b : List Byte) : List Nat :=
  let t := cntTail b
  (wordsOf 2 (leAt t 1 1) (t.drop (8 + 2 * leAt t 2 2))).map fun w =>
    if w.testBit 15 then 2048 + w % 64 else w % 2048

/-! ### TAP -/

/-- A sensor entry of TAP (16 R528): EN, FMT, GROUP. -/
def tapSensor (b : List Byte) (ch : Nat) : Word := BitVec.ofNat 32 (leAt (secBody b) (4 * ch) 4)

/-- A value-bus entry of TAP. -/
def tapBus (b : List Byte) (k : Nat) : Word := BitVec.ofNat 32 (leAt (secBody b) (1024 + 4 * k) 4)

/-! ### RECFMT -/

/-- The items of one RECFMT layout (16 R530): MAIN, or FAST after it. -/
def recfmtItems (b : List Byte) (fast : Bool) : List Word :=
  let t := secBody b
  let n := leAt t 0 2
  let t := if fast then t.drop (4 + 4 * n) else t
  (wordsOf 4 (leAt t 0 2) (t.drop 4)).map (BitVec.ofNat 32)

/-! ### GATE -/

/-- A port list of GATE (16 R531). -/
structure GateList where
  port : Nat
  guardNs : Nat
  ovh : Nat
  cycle : Nat
  /-- Masks and intervals. -/
  ents : List (Nat × Nat)
  deriving DecidableEq, Repr

/-- `n` port lists. -/
def gateFrom : Nat → List Byte → List GateList
  | 0, _ => []
  | n + 1, b =>
    let k := leAt b 8 2
    ⟨leAt b 0 1, leAt b 1 1, leAt b 2 1, leAt b 4 4,
      (chunksOf 8 k (b.drop 12)).map fun e => (leAt e 0 4 % 32, leAt e 4 4)⟩ :: gateFrom n (b.drop (12 + 8 * k))

/-- The port lists of GATE. -/
def gateLists (b : List Byte) : List GateList := gateFrom (secCount b) (secBody b)

/-! ### FEAT and CUT -/

/-- A feature entry (05 R169). -/
structure Feat where
  src : Nat
  dom : Nat
  ncuts : Nat
  missing : Nat
  shift : Nat
  lsigned : Bool
  maxage : Nat
  arg : Nat
  deriving DecidableEq, Repr

/-- A feature from its 16 bytes. -/
def parseFeat (b : List Byte) : Feat :=
  ⟨leAt b 0 1, leAt b 1 1, leAt b 2 1, leAt b 3 1, leAt b 4 1, (leAt b 5 1).testBit 0, leAt b 6 2, leAt b 8 4⟩

/-- The features of a bank. -/
def Bank.feats (b : Bank) : List Feat :=
  (chunksOf 16 (secCount (b.sec 3)) (secBody (b.sec 3))).map parseFeat

/-- The cuts of a feature (05 R177): those of the features before it come first. -/
def Bank.cuts (b : Bank) (f : Nat) : List Nat :=
  let fs := b.feats
  let before := ((fs.take f).map Feat.ncuts).sum
  match fs[f]? with
  | some x => wordsOf 4 x.ncuts ((secBody (b.sec 4)).drop (4 * before))
  | none => []

/-! ### TREE and LEAF -/

/-- A tree descriptor (05 R186). -/
structure TreeD where
  nf : Nat
  depth : Nat
  nleaf : Nat
  fidx : List Nat
  nthr : List Nat
  /-- THR[f][b], 15 bytes per field. -/
  thr : List (List Nat)
  /-- Entry within the ensemble of the tree's first leaf. -/
  first : Nat
  deriving DecidableEq, Repr

/-- An ensemble (05 R185). -/
structure Ens where
  slot : Nat
  trig : Nat
  flags : Nat
  tplan : Nat
  ensid : Nat
  ntrees : Nat
  nent : Nat
  bias : Int
  /-- T1, T2, T3. -/
  t : List Int
  rise : List Nat
  fall : List Nat
  trees : List TreeD
  /-- LOHI bytes of each entry. -/
  ents : List (List Nat)
  /-- Leaf values, 24 bits signed, by entry. -/
  leaves : List Int
  deriving DecidableEq, Repr

/-- Bytes as numbers. -/
def byteNats (b : List Byte) : List Nat := b.map BitVec.toNat

/-- `n` tree descriptors; `first` is the entry of the next tree's first leaf. -/
def parseTrees (first : Nat) : Nat → List Byte → List TreeD
  | 0, _ => []
  | n + 1, b =>
    let nl := leAt b 2 2
    ⟨leAt b 0 1, leAt b 1 1, nl, byteNats (slice b 4 10), byteNats (slice b 14 10),
      (chunksOf 15 10 (b.drop 24)).map byteNats, first⟩ :: parseTrees (first + nl) n (b.drop 176)

/-- `n` ensembles from TREE bytes, with the LEAF bytes that belong to them. -/
def parseEns : Nat → List Byte → List Byte → List Ens
  | 0, _, _ => []
  | n + 1, b, lf =>
    let nt := leAt b 8 2
    let ne := leAt b 10 2
    let s64 := fun o => sext 64 (leAt b o 8)
    let e : Ens :=
      { slot := leAt b 0 1, trig := leAt b 1 1, flags := leAt b 2 1, tplan := leAt b 3 1, ensid := leAt b 4 4
        ntrees := nt, nent := ne, bias := sext 32 (leAt b 12 4), t := [s64 16, s64 24, s64 32]
        rise := byteNats (slice b 40 3), fall := byteNats (slice b 43 3)
        trees := parseTrees 0 nt (b.drop 52)
        ents := (chunksOf 12 ne (b.drop (52 + 176 * nt))).map fun x => byteNats (x.take 10)
        leaves := (wordsOf 4 ne lf).map (sext 24) }
    e :: parseEns n (b.drop (52 + 176 * nt + 12 * ne)) (lf.drop (4 * ne))

/-- The ensembles of a bank, in section order. -/
def Bank.ensembles (b : Bank) : List Ens :=
  parseEns (secCount (b.sec 5)) (secBody (b.sec 5)) (secBody (b.sec 6))

/-- The ensemble of a slot. -/
def Bank.ens? (b : Bank) (slot : Nat) : Option Ens := b.ensembles.find? fun e => e.slot == slot

/-! ### DENSE -/

/-- An input descriptor (06 R219). -/
structure DIn where
  fidx : Nat
  missq : Int
  shi : Nat
  mi : Int
  deriving DecidableEq, Repr

/-- A hidden descriptor, or the arithmetic part of an output descriptor (06 R219). -/
structure DHid where
  bias : Int
  m : Int
  sh : Nat
  deriving DecidableEq, Repr

/-- An output descriptor (06 R219). -/
structure DOut where
  q : DHid
  comb : Nat
  partner : Nat
  weir : Bool
  t : List Int
  rise : List Nat
  fall : List Nat
  deriving DecidableEq, Repr

/-- A dense model (06 R218). -/
structure Model where
  slot : Nat
  trig : Nat
  tplan : Nat
  flags : Nat
  modelid : Nat
  nin : Nat
  nhid : Nat
  nout : Nat
  ins : List DIn
  hid : List DHid
  outs : List DOut
  /-- Weight rows of the hidden units, then of the outputs. -/
  w1 : List (List Int)
  w2 : List (List Int)
  deriving DecidableEq, Repr

/-- Rows of signed bytes. -/
def weightRows (cols rows : Nat) (b : List Byte) : List (List Int) :=
  (chunksOf cols rows b).map fun r => r.map fun x => sext 8 x.toNat

/-- Length of a model's part of DENSE. -/
def modelLen (nin nhid nout : Nat) : Nat :=
  32 + 8 * nin + 12 * nhid + 48 * nout + nhid * nin + nout * (if nhid = 0 then nin else nhid)

/-- `n` models from DENSE bytes. -/
def parseModels : Nat → List Byte → List Model
  | 0, _ => []
  | n + 1, b =>
    let nin := leAt b 8 2
    let nh := leAt b 10 2
    let no := leAt b 12 1
    let bi := b.drop 32
    let bh := bi.drop (8 * nin)
    let bo := bh.drop (12 * nh)
    let w1 := bo.drop (48 * no)
    let w2 := w1.drop (nh * nin)
    let hid := fun (x : List Byte) => (⟨sext 32 (leAt x 0 4), sext 32 (leAt x 4 4), leAt x 8 1⟩ : DHid)
    let m : Model :=
      { slot := leAt b 0 1, trig := leAt b 1 1, tplan := leAt b 2 1, flags := leAt b 3 1, modelid := leAt b 4 4
        nin := nin, nhid := nh, nout := no
        ins := (chunksOf 8 nin bi).map fun x => ⟨leAt x 0 1, sext 8 (leAt x 1 1), leAt x 2 1, sext 32 (leAt x 4 4)⟩
        hid := (chunksOf 12 nh bh).map hid
        outs := (chunksOf 48 no bo).map fun x =>
          ⟨hid x, leAt x 9 1, leAt x 10 1, decide (leAt x 11 1 = 1),
            [sext 64 (leAt x 12 8), sext 64 (leAt x 20 8), sext 64 (leAt x 28 8)],
            byteNats (slice x 36 3), byteNats (slice x 39 3)⟩
        w1 := weightRows nin nh w1
        w2 := weightRows (if nh = 0 then nin else nh) no w2 }
    m :: parseModels n (b.drop (modelLen nin nh no))

/-- The dense models of a bank. -/
def Bank.models (b : Bank) : List Model := parseModels (secCount (b.sec 7)) (secBody (b.sec 7))

/-- The model of a dense slot. -/
def Bank.model? (b : Bank) (slot : Nat) : Option Model := b.models.find? fun m => m.slot == slot

/-! ### DRIFT -/

/-- The DRIFT header (06 R232). -/
structure DriftHead where
  nmet : Nat
  cuts : List Nat
  eng : Nat
  plan : Nat
  num : Nat
  den : Nat
  deriving DecidableEq, Repr

/-- The header in force; an empty section has no metric and the default cuts and ENG (06 R232, 16 R525). -/
def driftHead (b : List Byte) : DriftHead :=
  if b.isEmpty then ⟨0, (List.range 7).map fun j => 8192 * (j + 1), 64, 0, 0, 0⟩
  else
    let h := secBody b
    ⟨leAt h 0 2, wordsOf 2 7 (h.drop 2), leAt h 16 1, leAt h 17 1, leAt h 18 1, leAt h 19 1⟩

/-- A metric descriptor (06 R233). -/
structure MetD where
  src : Nat
  dom : Nat
  shift : Nat
  lsigned : Bool
  bandfree : Bool
  freeze : Bool
  alarm : Bool
  mclass : Nat
  pband : Bool
  arg : Nat
  k : Nat
  caln : Nat
  slack : Int
  limit : Int
  maxage : Nat
  pbidx : Nat
  metid : Nat
  deriving DecidableEq, Repr

/-- A metric descriptor from its 32 bytes. -/
def parseMet (b : List Byte) : MetD :=
  let f := leAt b 3 1
  { src := leAt b 0 1, dom := leAt b 1 1, shift := leAt b 2 1, lsigned := f.testBit 0, bandfree := f.testBit 1
    freeze := f.testBit 2, alarm := f.testBit 3, mclass := bitsOf f 5 4, pband := f.testBit 6, arg := leAt b 4 4
    k := leAt b 8 1, caln := leAt b 10 2, slack := (leAt b 12 4 : Nat), limit := (leAt b 16 4 : Nat)
    maxage := leAt b 20 2, pbidx := leAt b 22 2, metid := leAt b 24 4 }

/-- The metric descriptors. -/
def driftMets (b : List Byte) : List MetD :=
  (chunksOf 32 (driftHead b).nmet ((secBody b).drop 32)).map parseMet

/-- The baseline of a band in per-band table `i`, when the band is present (06 R233). -/
def driftBand (b : List Byte) (i band : Nat) : Option Int :=
  let t := (secBody b).drop (32 + 32 * (driftHead b).nmet + 40 * i)
  if (leAt t 32 1).testBit band then some (sext 32 (leAt t (4 * band) 4)) else none

end Sys2Proof.Machine
end

