-- ==== Sys2Proof/Machine/Riddle.lean ====
section
/-! DEFINITION. The Riddle and the tree ensembles (05_riddle_trees): conversion and coding of feature values, the
ternary search, the fixed-order sum, the Weir, verdict records, the swap of banks, and the store scrubber. -/

namespace Sys2Proof.Machine

/-- Division by a power of two, rounding half to even (06, "Arithmetic"). -/
def rhe (p : Int) (sh : Nat) : Int :=
  if sh = 0 then p
  else
    let q := asr p sh
    let r := p - q * ((2 ^ sh : Nat) : Int)
    let half : Int := ((2 ^ (sh - 1) : Nat) : Int)
    if r > half ∨ (r = half ∧ q % 2 = 1) then q + 1 else q

/-- Range of a value domain (05 R171): 1 UINT, otherwise SINT or Q16.16. -/
def domClamp (dom : Nat) (v : Int) : Int :=
  if dom = 1 then clampI 0 (2 ^ 32 - 1) v else clampI (-(2 ^ 31)) (2 ^ 31 - 1) v

/-- The value of 32 bits in a domain: zero-extended for UINT, sign-extended otherwise (05 R173). -/
def domValue (dom v : Nat) : Int := if dom = 1 then (v : Int) else sext 32 v

/-- A 64-bit item shifted and clamped (05 R171): the 32-bit value, and whether it was clamped. -/
def convItem (dom shift : Nat) (lsigned : Bool) (x : Nat) : Nat × Bool :=
  let v : Int := if lsigned then asr (sext 64 x) shift else ((x >>> shift : Nat) : Int)
  let c := domClamp dom v
  (wrapN 32 c, decide (c ≠ v))

/-- Conversion of an FP32 value to Q16.16 (05 R172): the value with its clamp, or a reason of 05 R175. -/
def convFp32 (w : Nat) : Except Nat (Nat × Bool) :=
  let sign := w.testBit 31
  let e := bitsOf w 30 23
  let m := bitsOf w 22 0
  if e = 255 then .error (if m ≠ 0 then 2 else 3)
  else if e = 0 then .ok (0, false)
  else
    let mant : Int := ((2 ^ 23 + m : Nat) : Int)
    let s : Int := if sign then -mant else mant
    let q := if e ≥ 134 then s * ((2 ^ (e - 134) : Nat) : Int) else rhe s (134 - e)
    let c := clampI (-(2 ^ 31)) (2 ^ 31 - 1) q
    .ok (wrapN 32 c, decide (c ≠ q))

/-- Conversion of a sensor entry (05 R172, R175): formats SINT, UINT and Q16.16 pass unchanged. -/
def convSensor (value : Word) (fmt : Nat) (valid : Bool) (age maxage : Nat) : Except Nat (Nat × Bool) :=
  if !valid then .error 1
  else
    let r : Except Nat (Nat × Bool) :=
      if fmt = 3 then convFp32 (value.toNat * 65536 % 2 ^ 32)
      else if fmt = 4 then convFp32 value.toNat
      else .ok (value.toNat, false)
    match r with
    | .error k => .error k
    | .ok v => if maxage ≠ 0 ∧ age > maxage then .error 4 else .ok v

/-- The ratio of two converted features (05 R173, R175). -/
def convRatio (na nb : Nat) (a b : FeatVal) : Except Nat (Nat × Bool) :=
  let x := domValue na a.value
  let y := domValue nb b.value
  if !b.miss && decide (y = 0) then .error 7
  else if a.miss || b.miss then .error 8
  else
    let q := Int.tdiv (x * 65536) y
    let c := clampI (-(2 ^ 31)) (2 ^ 31 - 1) q
    .ok (wrapN 32 c, decide (c ≠ q))

/-- The ordinal code of a valid value (05 R178). -/
def ordCode (dom : Nat) (cuts : List Nat) (v : Nat) : Nat :=
  (cuts.filter fun c => decide (domValue dom c ≤ domValue dom v)).length

/-- A feature that carries no valid value (05 R175). -/
def missFeat (f : Feat) (reason : Nat) : FeatVal := ⟨0, f.missing, true, false, reason⟩

/-- A feature from its converted value. -/
def codeFeat (f : Feat) (cuts : List Nat) (r : Except Nat (Nat × Bool)) : FeatVal :=
  match r with
  | .ok (v, sat) => ⟨v, ordCode f.dom cuts v, false, sat, 0⟩
  | .error k => missFeat f k

/-- Convert and encode one feature: `done` holds the features below it, `old` the last main vector (05 R170-R178). -/
def encodeFeat (fs : List Feat) (done : List FeatVal) (old : Option (List FeatVal)) (f : Feat) (cuts : List Nat)
    (i : Nat) (raw : Raw) : FeatVal :=
  match raw with
  | .num x => codeFeat f cuts (.ok (convItem f.dom f.shift f.lsigned x))
  | .sensor v fmt ok age => codeFeat f cuts (convSensor v fmt ok age f.maxage)
  | .absent k => missFeat f k
  | .ratio =>
    let n := bitsOf f.arg 7 0
    let d := bitsOf f.arg 15 8
    match done[n]?, done[d]?, fs[n]?, fs[d]? with
    | some a, some b, some fa, some fb => codeFeat f cuts (convRatio fa.dom fb.dom a b)
    | _, _, _, _ => missFeat f 8
  | .kept =>
    match old with
    | some l => match l[i]? with
      | some v => v
      | none => missFeat f 10
    | none => missFeat f 10

/-- Convert and encode every feature of a vector, in feature order. Mark: DEDUCED (log entry 27, safe). -/
def encodeAll (b : Bank) (old : Option (List FeatVal)) (raws : List Raw) : List FeatVal :=
  let fs := b.feats
  ((List.range fs.length).foldl
    (fun (done : List FeatVal) i =>
      match fs[i]? with
      | some f => done ++ [encodeFeat fs done old f (b.cuts i) i (raws.getD i (.absent 9))]
      | none => done) [])

/-- At a fast latch that is not a main latch, the features that take new values: SRC 2 and the ratios built on them
(05 R170). -/
def freshAtFast (fs : List Feat) : List Bool :=
  fs.foldl
    (fun (l : List Bool) f =>
      l ++ [decide (f.src = 2) ||
        (decide (f.src = 5) && (l.getD (bitsOf f.arg 7 0) false || l.getD (bitsOf f.arg 15 8) false))]) []

/-- Add a vector, with the raw items of its bank's features (05 R170). -/
def Unit.addVec (u : Unit) (isMain isFast : Bool) (h : VecHead) (raws : List Raw) : Unit :=
  let v : Vec := { id := u.sco.nextVec, bank := u.sco.active, isMain := isMain, isFast := isFast, head := h
                   raws := raws, feats := [], ready := false }
  { u with sco := { u.sco with nextVec := u.sco.nextVec + 1, vecs := u.sco.vecs ++ [v] } }

/-- The oldest vector whose features are not ready. -/
def Unit.nextUnready (u : Unit) : Option Vec := u.sco.vecs.find? fun v => !v.ready

/-- Epoch of a vector: the main one, else the fast one. -/
def Vec.epn (v : Vec) : Nat := if v.isFast && !v.isMain then v.head.fepn else v.head.epn

/-- Keep the vectors that a job, a waiting verdict or the Riddle still needs. -/
def Unit.pruneVecs (u : Unit) : Unit :=
  let jobs := u.sco.treeQ ++ u.sco.denseQ ++ u.sco.runTree ++ u.sco.runDense.toList
    ++ u.sco.waits.map DenseWait.job
  let used := jobs.map Job.vec
  let djobs := u.sco.denseQ ++ u.sco.runDense.toList ++ u.sco.waits.map DenseWait.job
  let dused := djobs.map Job.vec
  { u with sco := { u.sco with
      vecs := u.sco.vecs.filter fun v => !v.ready || used.contains v.id
      partners := u.sco.partners.filter fun p => dused.contains p.vec } }

/-- Count and flag the missing and clamped features of a vector (05 R175; RDL registers). -/
def Unit.noteFeats (u : Unit) (l : List FeatVal) : Unit :=
  let u := if l.any FeatVal.fsat then u.err Reg.rdlErr 0 else u
  let u := if l.any FeatVal.miss then u.err Reg.rdlErr 1 else u
  (List.range l.length).foldl
    (fun (u : Unit) i => match l[i]? with
      | some v => if v.miss then u.count Reg.rdlAtMisscnt i else u
      | none => u) u

/-- FEATURES_READY: the last value that the model set names is encoded (05 R179). -/
def Unit.featuresReady (u : Unit) : Unit :=
  match u.nextUnready with
  | none => u
  | some v =>
    let l := encodeAll (u.bank v.bank) (Tab.find v.bank u.sco.mainFeats) v.raws
    let u := u.noteFeats l
    let u := { u with sco := { u.sco with
        vecs := u.sco.vecs.map fun (x : Vec) => if x.id = v.id then { x with feats := l, ready := true } else x
        mainFeats := if v.isFast && !v.isMain then u.sco.mainFeats else Tab.put v.bank l u.sco.mainFeats
        lastFeats := l, lastEpn := v.epn } }
    u.pruneVecs

/-- A vector by its number. -/
def Unit.vec? (u : Unit) (id : Nat) : Option Vec := u.sco.vecs.find? fun v => v.id == id

/-! ### Slot states -/

/-- Weir state at NORMAL (05 R198). -/
def weir0 : Weir := ⟨[false, false, false], [0, 0, 0], [0, 0, 0]⟩

/-- A slot that no verdict has changed yet: its first verdict carries RESTART (05 R200). -/
def slot0 : SlotSt :=
  { weir := weir0, restart := true, swapped := false, prevOver := false, wreset := false, valid := false
    vflags := 0, rawLevel := 0, score := 0, epn := 0, level := 0, y := 0, carry := false }

/-- State of a slot of a table keyed by bank and slot; a carried slot reads the other bank's, with what its own next verdict
is to carry besides (05 R194, R200, R209). -/
def slotSt (t : Tab SlotSt) (bank slot : Nat) : SlotSt :=
  let s := Tab.getD t (bank * 256 + slot) slot0
  if s.carry then
    let o := Tab.getD t ((1 - bank) * 256 + slot) slot0
    { o with carry := false, prevOver := o.prevOver || s.prevOver, wreset := o.wreset || s.wreset }
  else s

/-- Note something on a slot, which stays carried if it was (05 R194, R200). -/
def slotNote (t : Tab SlotSt) (bank slot : Nat) (f : SlotSt → SlotSt) : Tab SlotSt :=
  Tab.put (bank * 256 + slot) (f (Tab.getD t (bank * 256 + slot) slot0)) t

/-- Level of a Weir (05 R198): the highest i with ABOVE[i] = 1. -/
def Weir.level (w : Weir) : Nat :=
  if w.above.getD 2 false then 3 else if w.above.getD 1 false then 2 else if w.above.getD 0 false then 1 else 0

/-- ABOVE[3:1] as bits. -/
def Weir.bits (w : Weir) : Nat :=
  b2n (w.above.getD 0 false) + 2 * b2n (w.above.getD 1 false) + 4 * b2n (w.above.getD 2 false)

/-- One threshold of the Weir (05 R198): ABOVE, rc, fc. -/
def weirStep (ge : Bool) (above : Bool) (rc fc rise fall : Nat) : Bool × Nat × Nat :=
  if ge then
    (if above then (true, rc, 0)
     else if rc + 1 ≥ rise then (true, 0, 0) else (false, rc + 1, 0))
  else
    (if above then (if fc + 1 ≥ fall then (false, 0, 0) else (true, 0, fc + 1))
     else (false, 0, fc))

/-- A verdict with a score updates the Weir (05 R198). -/
def Weir.update (w : Weir) (t : List Int) (rise fall : List Nat) (score : Int) : Weir :=
  let r := (List.range 3).map fun i =>
    weirStep (decide (score ≥ t.getD i 0)) (w.above.getD i false) (w.rc.getD i 0) (w.fc.getD i 0)
      (rise.getD i 1) (fall.getD i 1)
  ⟨r.map fun x => x.1, r.map fun x => x.2.1, r.map fun x => x.2.2⟩

/-- Raw level of a score (05 R197). -/
def rawLevelOf (t : List Int) (score : Int) : Nat := (t.filter fun x => decide (score ≥ x)).length

/-! ### Jobs -/

/-- Put a job into a queue, dropping a waiting job of the same ensemble or model (05 R194): one of the other bank is not, and
completes (05 R205). -/
def enqueue (q : List Job) (j : Job) : List Job × Option Job :=
  let same := fun (x : Job) => x.slot == j.slot && x.bank == j.bank
  match q.find? same with
  | some old => (q.filter (fun x => !same x) ++ [j], some old)
  | none => (q ++ [j], none)

/-- Create one tree job (05 R193, R194). -/
def Unit.newTreeJob (u : Unit) (j : Job) : Unit :=
  let r := enqueue u.sco.treeQ j
  let u := { u with sco := { u.sco with treeQ := r.1 } }
  match r.2 with
  | none => u
  | some old =>
    let u := (u.count Reg.treAtOverrun j.slot).err Reg.treErr 3
    { u with sco := { u.sco with
        trees := slotNote u.sco.trees j.bank j.slot fun s => { s with prevOver := true }
        partners := u.sco.partners ++ [⟨old.vec, old.slot, 0, 0, 0, true⟩] } }

/-- Slots of the active bank's ensembles with a trigger, ascending (05 R193). -/
def Unit.ensSlots (u : Unit) (p : Ens → Bool) : List Nat :=
  (List.range 32).filter fun s =>
    match (u.bank u.sco.active).ens? s with
    | some e => p e
    | none => false

/-- Dense slots of the active bank's models with a trigger, ascending (06 R228). -/
def Unit.modSlots (u : Unit) (p : Model → Bool) : List Nat :=
  (List.range 8).filter fun s =>
    match (u.bank u.sco.active).model? s with
    | some m => p m
    | none => false

/-- Create the tree jobs of the newest vector: kind 1 before kind 0 (05 R193); none with SCOREEN = 0 (05 R214). -/
def Unit.treeJobs (u : Unit) (kind : Nat) (slots : List Nat) : Unit :=
  if !u.bit Reg.treCtrl 0 then u
  else slots.foldl (fun (u : Unit) s => u.newTreeJob ⟨u.sco.nextVec - 1, s, kind, u.sco.active⟩) u

/-- Create one dense job (06 R228). -/
def Unit.newDenseJob (u : Unit) (j : Job) : Unit :=
  let r := enqueue u.sco.denseQ j
  let u := { u with sco := { u.sco with denseQ := r.1 } }
  match r.2 with
  | none => u
  | some _ =>
    let u := (u.count Reg.dnsAtOverrun j.slot).err Reg.dnsErr 2
    let outs := (List.range 16).foldl
      (fun (t : Tab SlotSt) o => slotNote t j.bank (j.slot * 16 + o) fun s => { s with prevOver := true }) u.sco.outs
    { u with sco := { u.sco with outs := outs } }

/-- Create the dense jobs of the newest vector; none with DENSEEN = 0 (06 R243). -/
def Unit.denseJobs (u : Unit) (kind : Nat) (slots : List Nat) : Unit :=
  if !u.bit Reg.dnsCtrl 0 then u
  else slots.foldl (fun (u : Unit) s => u.newDenseJob ⟨u.sco.nextVec - 1, s, kind, u.sco.active⟩) u

/-- TREE_JOB_START: the first job whose turn has come and whose features are ready begins, the one before it having issued
its last tree, whether or not its verdict has been handed on (05 R193). Mark: DEDUCED (log entry 27, safe). -/
def Unit.treeJobStart (u : Unit) : Unit :=
  match u.sco.treeQ with
  | j :: q =>
    (match u.vec? j.vec with
     | some v => if v.ready then { u with sco := { u.sco with runTree := u.sco.runTree ++ [j], treeQ := q } } else u
     | none => u)
  | [] => u

/-! ### Search and summation -/

/-- Local rank of a code in a field (05 R180). -/
def localRank (thr : List Nat) (n code : Nat) : Nat :=
  ((thr.take n).filter fun x => decide (x ≤ code)).length

/-- Thermometer field of a rank: its low `r` bits set (05 R180). -/
def thermo (r : Nat) : Nat := 2 ^ r - 1

/-- The tag of a tree (05 R181). -/
def treeTag (bank tree : Nat) : Nat := tree + 512 * bank

/-- The 160-bit search key of a tree (05 R181). -/
def treeKey (t : TreeD) (feats : List FeatVal) (bank tree : Nat) : Nat :=
  let fields := (List.range t.nf).map fun f =>
    let code := match feats[t.fidx.getD f 0]? with | some v => v.code | none => 0
    thermo (localRank (t.thr.getD f []) (t.nthr.getD f 0) code) * 2 ^ (15 * f)
  fields.sum + treeTag bank tree * 2 ^ 150

/-- CARE and VALUE of an entry as the loader writes it (05 R182). -/
def entryCare (lohi : List Nat) : Nat :=
  ((List.range 10).map fun f =>
    let a := lohi.getD f 0 % 16
    let b := lohi.getD f 0 / 16
    (if a > 0 then 2 ^ (15 * f + a - 1) else 0) + (if b > 0 ∧ b ≠ a then 2 ^ (15 * f + b - 1) else 0)).sum
    + 1023 * 2 ^ 150

def entryValue (lohi : List Nat) (tag : Nat) : Nat :=
  ((List.range 10).map fun f =>
    let a := lohi.getD f 0 % 16
    if a > 0 then 2 ^ (15 * f + a - 1) else 0).sum + tag * 2 ^ 150

/-- The tree that an entry of an ensemble belongs to. -/
def Ens.treeOf (e : Ens) (i : Nat) : Nat :=
  (e.trees.filter fun t => decide (t.first + t.nleaf ≤ i)).length

/-- An entry, with the damage it bears, matches a key (05 R182). -/
def entryMatch (e : Ens) (bank i : Nat) (err : Option StoreErr) (key : Nat) : Bool :=
  let lohi := e.ents.getD i []
  let v := entryValue lohi (treeTag bank (e.treeOf i))
  let c := entryCare lohi
  match err with
  | none => (v ^^^ key) &&& c == 0
  | some x => !x.valid && ((v ^^^ x.value.toNat) ^^^ key) &&& (c ^^^ x.care.toNat) == 0

/-- The entries of an ensemble that match a key (05 R189). -/
def Unit.search (u : Unit) (e : Ens) (bank base key : Nat) : List Nat :=
  (List.range e.nent).filter fun i => entryMatch e bank i (Tab.find (base + i) u.sco.storeErr) key

/-- Rewrite one entry from the shadow copy, when it differs (05 R192, R210). -/
def Unit.repairEntry (u : Unit) (i : Nat) : Unit :=
  match Tab.find i u.sco.storeErr with
  | none => u
  | some _ =>
    let u := { u with sco := { u.sco with storeErr := Tab.del i u.sco.storeErr } }
    ((u.count Reg.treRepaircnt).err Reg.treErr 6).event 0x010 [BitVec.ofNat 32 (i % 65536)]

/-- What one tree gives the sum: its leaf, REPAIRED, STOREERR, and the unit after a repair (05 R191, R192). -/
def Unit.treeLeaf (u : Unit) (e : Ens) (bank base : Nat) (feats : List FeatVal) (t : TreeD) (n : Nat) :
    Unit × Int × Bool × Bool :=
  let key := treeKey t feats bank n
  let leaf := fun (u : Unit) (i : Nat) (rep : Bool) =>
    if u.sco.badLeaf.contains (base + i) then ((u.err Reg.treErr 2).alarm .storeErr, (0 : Int), rep, true)
    else (u, e.leaves.getD i 0, rep, false)
  match u.search e bank base key with
  | [i] => leaf u i false
  | l =>
    let u := u.err Reg.treErr (if l.isEmpty then 0 else 1)
    let u := (List.range t.nleaf).foldl (fun (u : Unit) k => u.repairEntry (base + t.first + k)) u
    match u.search e bank base key with
    | [i] => leaf u i true
    | _ => ((u.err Reg.treErr 2).alarm .storeErr, 0, false, true)

/-- One addition of the sum, clamped to 40 bits (05 R191). -/
def addSat40 (acc : Int) (sat : Bool) (leaf : Int) : Int × Bool :=
  let s := acc + leaf
  if s > 2 ^ 39 - 1 then (2 ^ 39 - 1, true)
  else if s < -(2 ^ 39) then (-(2 ^ 39), true) else (s, sat)

/-- The running sum of a job: the unit, the accumulator, SAT, REPAIRED, STOREERR. -/
structure SumSt where
  u : Unit
  acc : Int
  sat : Bool
  rep : Bool
  serr : Bool

/-- The sum over the trees from index `n` on, in ascending order (05 R191). -/
def sumTrees (e : Ens) (bank base : Nat) (feats : List FeatVal) (s : SumSt) (n : Nat) : List TreeD → SumSt
  | [] => s
  | t :: ts =>
    let r := s.u.treeLeaf e bank base feats t n
    let a := addSat40 s.acc s.sat r.2.1
    sumTrees e bank base feats ⟨r.1, a.1, a.2, s.rep || r.2.2.1, s.serr || r.2.2.2⟩ (n + 1) ts

/-- Some tree of the ensemble names a feature for which `p` holds (05 R176). -/
def Ens.names (e : Ens) (feats : List FeatVal) (p : FeatVal → Bool) : Bool :=
  e.trees.any fun t => (List.range t.nf).any fun f =>
    match feats[t.fidx.getD f 0]? with | some v => p v | none => false

/-- Bits of MISS (05 R201). -/
def missBits (feats : List FeatVal) : Nat :=
  ((List.range feats.length).map fun i =>
    match feats[i]? with | some v => (if v.miss then 2 ^ i else 0) | none => 0).sum

/-- The flags that a vector's latch gives every verdict (05 R202): NOIMAGE, CLKSTOP, STEP, NOTLOCKED, PARTIAL. -/
def VecHead.vflags (h : VecHead) (kind : Nat) : Nat :=
  let noimg := if kind = 0 then h.noMain else if kind = 1 then h.noFast else false
  64 * b2n noimg + 128 * b2n h.clkstop + 256 * b2n h.step + 512 * b2n (decide (h.tq ≠ 0)) + 2048 * b2n h.partialRun

/-- The EPN of a job's epoch. -/
def VecHead.jobEpn (h : VecHead) (kind : Nat) : Nat := if kind = 1 then h.fepn else h.epn

/-- Flags that a slot's next verdict carries: SWAPPED, PREVOVERRUN, RESTART (05 R194, R200, R209). -/
def SlotSt.carried (s : SlotSt) : Nat :=
  32 * b2n s.swapped + 1024 * b2n s.prevOver + 4096 * b2n (s.restart || s.wreset)

/-- The Weir a verdict starts from: cleared by WEIRCTL.RESET (05 R200). -/
def SlotSt.start (s : SlotSt) : Weir := if s.wreset then weir0 else s.weir

/-- Payload of a tree verdict record (05 R201). -/
def treePayload (e : Ens) (bank : Nat) (w : Weir) (raw vflags : Nat) (epn scopea swapn miss : Nat) (score : Int) :
    List Byte :=
  leBytes 1 e.slot ++ leBytes 1 (w.level + 4 * raw + 16 * w.bits + 128 * bank) ++ leBytes 2 vflags
    ++ leBytes 4 e.ensid ++ leBytes 8 epn ++ leBytes 8 (wrapN 64 score) ++ leBytes 3 scopea ++ leBytes 1 e.trig
    ++ leBytes 4 swapn ++ leBytes 32 miss

/-- What a verdict leaves in its slot. -/
def SlotSt.after (s : SlotSt) (w : Weir) (vflags raw : Nat) (score : Int) (epn : Nat) : SlotSt :=
  { s with weir := w, restart := false, swapped := false, prevOver := false, wreset := false, valid := true
           vflags := vflags, rawLevel := raw, score := score, epn := epn, level := w.level }

/-- Hand on a tree verdict (05 R198-R201): the slot's state, the partners of joint outputs, the record. -/
def Unit.treeVerdict (u : Unit) (j : Job) (v : Vec) (e : Ens) (s : SumSt) : Unit :=
  let st := slotSt u.sco.trees v.bank j.slot
  let w0 := st.start
  let w := if s.serr then w0 else w0.update e.t e.rise e.fall s.acc
  let imp := e.names v.feats FeatVal.miss
  let vf := b2n imp + 2 * b2n (e.names v.feats FeatVal.fsat) + 4 * b2n s.sat + 8 * b2n s.serr + 16 * b2n s.rep
    + v.head.vflags j.kind + st.carried
  let raw := rawLevelOf e.t s.acc
  let epn := v.head.jobEpn j.kind
  let st' := st.after w vf raw s.acc epn
  let u := if s.sat then u.err Reg.treErr 4 else u
  let u := { u with sco := { u.sco with
      trees := Tab.put (v.bank * 256 + j.slot) st' u.sco.trees
      partners := u.sco.partners ++ [(⟨v.id, j.slot, vf, s.acc, w.level, false⟩ : Partner)] } }
  let pl := treePayload e v.bank w raw vf epn v.head.scopea u.sco.swapn (missBits v.feats) s.acc
  let cls : RecClass := if w.level = 3 ∧ st.weir.level ≠ 3 then .alarm else .record
  let u := if e.flags.testBit 1 && w.level == st.weir.level then u
    else u.submit ⟨0x11, 4 * b2n imp + 2 * b2n v.head.clkstop, cls, v.head.time, v.head.tq, pl, none⟩
  u.pruneVecs

/-- A job on a bank with a lost word of its MODEL region may read that word; whether it does is free (15 R506, log entry 3).
Mark: DEDUCED (log entry 27, safe). -/
def Unit.readsDamage (u : Unit) (bank : Nat) : Bool × Unit :=
  if u.sco.lostModel.contains bank then
    let r := u.draw
    (decide (r.1 % 2 = 1), r.2)
  else (false, u)

/-- The sum of a job: one that reads a damaged word ends with STOREERR, and what stands in its sum is free (05 R191; 15
R506). Mark: DEDUCED (log entry 27, safe). -/
def Unit.treeSum (u : Unit) (v : Vec) (e : Ens) (base : Nat) : SumSt :=
  let r := u.readsDamage v.bank
  if r.1 then
    let x := r.2.draw
    ⟨(x.2.err Reg.treErr 2).alarm .storeErr, sext 40 (x.1 % 2 ^ 40), false, false, true⟩
  else sumTrees e v.bank base v.feats ⟨r.2, e.bias, false, false, false⟩ 0 e.trees

/-- TREE_VERDICT: the oldest running tree job's sum completes (05 R191, R198). -/
def Unit.treeDone (u : Unit) : Unit :=
  match u.sco.runTree with
  | [] => u
  | j :: rest =>
    let u := { u with sco := { u.sco with runTree := rest } }
    match u.vec? j.vec with
    | none => u
    | some v =>
      match (u.bank v.bank).ens? j.slot with
      | none => u
      | some e =>
        let s := u.treeSum v e (Tab.getD (u.bank v.bank).base j.slot 0)
        s.u.treeVerdict j v e s

/-! ### Swapping banks -/

/-- A write of TRE_SWAPCTL (05 R204): CANCEL, then ARM. A damaged shadow bank cannot be armed (15 R506). A swap whose epoch
has fired takes effect whatever is written, and an ARM then arms the one after it (05 R206). -/
def Unit.swapCtl (u : Unit) (arm cancel : Bool) (epn : Nat) : Unit :=
  let fires := u.ep.fired.any fun f => f.main.any fun n => u.sco.swap.any fun e => decide (e ≤ n)
  let u := if !cancel then u
    else { u with sco := { u.sco with swap := if fires then u.sco.swap else none, swapNext := none } }
  if !arm then u
  else if !u.sco.shadowValid || u.sco.damaged.contains (1 - u.sco.active) then u.err Reg.treErr 5
  else if fires then { u with sco := { u.sco with swapNext := some epn } }
  else { u with sco := { u.sco with swap := some epn } }

/-- A pending swap is due at the main latch of an epoch (05 R205). -/
def Unit.swapDue (u : Unit) (epn : Nat) : Bool :=
  match u.sco.swap with
  | some n => decide (n ≤ epn)
  | none => false

/-- A slot of the incoming bank at a swap (05 R209, 06 R221): carried, or at NORMAL with SWAPPED. -/
def swapSlot (t : Tab SlotSt) (old new key : Nat) (carry : Bool) : Tab SlotSt :=
  let so := slotSt t old key
  let t := Tab.put (old * 256 + key) so t
  if carry then Tab.put (new * 256 + key) { slot0 with carry := true } t
  else Tab.put (new * 256 + key) { slot0 with restart := so.restart, swapped := true } t

/-- Slot states of the ensembles after a swap. -/
def Unit.swapTrees (u : Unit) (old new : Nat) : Tab SlotSt :=
  (List.range 32).foldl
    (fun (t : Tab SlotSt) s =>
      match (u.bank new).ens? s with
      | none => t
      | some e =>
        let same := match (u.bank old).ens? s with | some o => o.ensid == e.ensid | none => false
        swapSlot t old new s (e.flags.testBit 0 && same)) u.sco.trees

/-- Slot states of the dense outputs after a swap. -/
def Unit.swapOuts (u : Unit) (old new : Nat) : Tab SlotSt :=
  (List.range 8).foldl
    (fun (t : Tab SlotSt) s =>
      match (u.bank new).model? s with
      | none => t
      | some m =>
        let same := match (u.bank old).model? s with | some o => o.modelid == m.modelid | none => false
        (List.range m.nout).foldl
          (fun (t : Tab SlotSt) o => swapSlot t old new (s * 16 + o) (m.flags.testBit 0 && same)) t) u.sco.outs

/-- The swap takes effect: the two banks change places (05 R205, R207, R209). The bank that comes in has no main vector yet: the
rule of 05 R170 for features kept at a fast latch gives none of another bank's values, so that they are invalid till its first
main latch. Mark: DEDUCED (log entry 27, safe). -/
def Unit.swapNow (u : Unit) : Unit :=
  let old := u.sco.active
  let new := 1 - old
  { u with sco := { u.sco with
      active := new, shadowValid := true, swap := u.sco.swapNext, swapNext := none, swapn := (u.sco.swapn + 1) % 2 ^ 32
      mainFeats := Tab.del new u.sco.mainFeats
      trees := u.swapTrees old new, outs := u.swapOuts old new
      denseEpn := u.sco.denseEpn.filter fun p => decide (p.1 / 256 ≠ new) } }

/-! ### The scrubber of the store -/

/-- Entries of the tree store (05 R168). -/
def storeSize (p : Part) : Nat := match p with | .die => 16384 | .agg => 65536

/-- An upset of the store: it flips bits of what the entry holds. -/
def Unit.upsetStore (u : Unit) (x : StoreUpset) : Unit :=
  let old := Tab.getD u.sco.storeErr x.entry ⟨0, 0, false, 0⟩
  let new : StoreErr := ⟨old.value ^^^ x.value, old.care ^^^ x.care, old.valid != x.valid, old.par ^^^ x.par⟩
  if x.entry < storeSize u.kind then
    { u with sco := { u.sco with storeErr := Tab.set ⟨0, 0, false, 0⟩ x.entry new u.sco.storeErr } }
  else u

/-- TREE_SCRUB: the scrubber reads the next entry and rewrites it if it differs from the shadow copy (05 R210).
Mark: DEDUCED (log entry 27, safe). -/
def Unit.treeScrub (u : Unit) (x : Option StoreUpset) : Unit :=
  let u := match x with | some y => u.upsetStore y | none => u
  let i := u.sco.scrub
  let u := u.repairEntry i
  { u with sco := { u.sco with scrub := (i + 1) % storeSize u.kind } }

/-! ### Loss of the Weir state -/

/-- A slot whose Weir state is lost: flags and counts clear, it stands at NORMAL with no verdict since, and its next verdict
carries RESTART with whatever it was to carry before; its last score, epoch and flags stay (05 R200, R216; 15 R510). -/
def SlotSt.cleared (s : SlotSt) : SlotSt := { s with weir := weir0, restart := true, valid := false, level := 0 }

/-- Every slot of a table loses its Weir state. -/
def clearSlots (t : Tab SlotSt) : Tab SlotSt :=
  t.map fun (p : Nat × SlotSt) => (p.1, (slotSt t (p.1 / 256) (p.1 % 256)).cleared)

/-- Every Weir clears; each first verdict afterwards carries RESTART (05 R200). -/
def Unit.clearWeirs (u : Unit) : Unit :=
  { u with sco := { u.sco with trees := clearSlots u.sco.trees, outs := clearSlots u.sco.outs } }

/-- Running and waiting jobs are dropped and give no verdict (05 R194). -/
def Unit.dropJobs (u : Unit) : Unit :=
  { u with sco := { u.sco with runTree := [], treeQ := [], runDense := none, denseQ := [], waits := [], vecs := []
                               partners := [] } }

/-- The scoring partition leaves reset: the scrubber starts at entry 0 (05 R210). -/
def Unit.scoRestart (u : Unit) : Unit := { u with sco := { u.sco with scrub := 0 } }

/-- The SCO island powers up: no main vector yet, the scrubber at entry 0 (05 R170, R210). -/
def Unit.scoPowerUp (u : Unit) : Unit := { u with sco := { u.sco with mainFeats := [], scrub := 0, skip := u.ep.fired.length } }

/-! ### Registers -/

/-- RDL[sel].CFG (05 R213). -/
def Feat.cfg (f : Feat) : Nat :=
  2 ^ 31 + f.src % 8 * 2 ^ 28 + f.dom % 4 * 2 ^ 26 + f.shift % 32 * 2 ^ 21 + b2n f.lsigned * 2 ^ 20 + f.ncuts * 256
    + f.missing

/-- The bank that a VIEW register shows. -/
def Unit.viewBank (u : Unit) (reg : Nat) : Nat := if u.bit reg 0 then 1 - u.sco.active else u.sco.active

/-- RDL registers that the banks and vectors hold (05 R212). -/
def Unit.rdlView (u : Unit) (ofs inst : Nat) : Option Word :=
  let w := fun (n : Nat) => some (BitVec.ofNat 32 n)
  let b := u.bank (u.viewBank Reg.rdlView)
  let fv := if u.bit Reg.rdlView 0 then none else u.sco.lastFeats[inst]?
  if ofs = Reg.rdlStat then
    w ((u.bank u.sco.active).feats.length + 512 * b2n u.sco.shadowValid + 1024 * u.sco.active)
  else if ofs = Reg.rdlEpnl then w u.sco.lastEpn
  else if ofs = Reg.rdlEpnh then w (u.sco.lastEpn / 2 ^ 32)
  else if ofs = Reg.rdlAtCfg then w (match b.feats[inst]? with | some f => f.cfg | none => 0)
  else if ofs = Reg.rdlAtArg then w (match b.feats[inst]? with | some f => f.arg | none => 0)
  else if ofs = Reg.rdlAtMaxage then w (match b.feats[inst]? with | some f => f.maxage | none => 0)
  else if ofs = Reg.rdlAtCut then w ((b.cuts inst).getD (u.fld Reg.rdlCutidx 7 0 - 1) 0)
  else if ofs = Reg.rdlAtValue then w (match fv with | some v => v.value | none => 0)
  else if ofs = Reg.rdlAtCode then
    w (match fv with
       | some v => v.code + 256 * b2n v.miss + 512 * b2n v.fsat + 4096 * v.reason
       | none => 0)
  else none

/-- Mask of the slots present in a bank. -/
def Bank.slotMask (b : Bank) : Nat := (b.ensembles.map fun e => 2 ^ e.slot).sum

/-- A configuration register of an ensemble (05 R214, R215). -/
def ensReg (e : Ens) (base ofs : Nat) (agg : Bool) : Option Nat :=
  let t := fun (i k : Nat) => some (wrapN 40 (e.t.getD i 0) / 2 ^ (32 * k) % 2 ^ 32)
  let n3 := fun (l : List Nat) => some (l.getD 0 0 + 256 * l.getD 1 0 + 65536 * l.getD 2 0)
  let page := if agg then base / 16384 else 0
  if ofs = Reg.treAtCfg then
    some (2 ^ 31 + e.trig % 4 * 2 ^ 29 + b2n (e.flags.testBit 0) * 2 ^ 28 + b2n (e.flags.testBit 1) * 2 ^ 27
      + (e.ntrees - 1) % 1024 * 65536 + e.tplan * 256 + page)
  else if ofs = Reg.treAtEnsid then some e.ensid
  else if ofs = Reg.treAtRange then some ((if agg then base % 16384 else base) + (e.nent - 1) * 65536)
  else if ofs = Reg.treAtBias then some (wrapN 32 e.bias)
  else if ofs = Reg.treAtT1l then t 0 0
  else if ofs = Reg.treAtT1h then t 0 1
  else if ofs = Reg.treAtT2l then t 1 0
  else if ofs = Reg.treAtT2h then t 1 1
  else if ofs = Reg.treAtT3l then t 2 0
  else if ofs = Reg.treAtT3h then t 2 1
  else if ofs = Reg.treAtRise then n3 e.rise
  else if ofs = Reg.treAtFall then n3 e.fall
  else none

/-- A verdict register of a slot (05 R216). -/
def slotReg (s : SlotSt) (ofs : Nat) : Option Nat :=
  let n3 := fun (l : List Nat) => some (l.getD 0 0 + 256 * l.getD 1 0 + 65536 * l.getD 2 0)
  if ofs = Reg.treAtVerd then
    some (s.vflags * 65536 + 128 * b2n s.valid + 16 * s.weir.bits + 4 * s.rawLevel + s.weir.level)
  else if ofs = Reg.treAtScorel then some (wrapN 40 s.score % 2 ^ 32)
  else if ofs = Reg.treAtScoreh then some (wrapN 40 s.score / 2 ^ 32)
  else if ofs = Reg.treAtEpnl then some (s.epn % 2 ^ 32)
  else if ofs = Reg.treAtEpnh then some (s.epn / 2 ^ 32)
  else if ofs = Reg.treAtHyst then n3 s.weir.rc
  else if ofs = Reg.treAtHystf then n3 s.weir.fc
  else none

/-- TRE registers that the banks and slots hold (05 R214-R216). -/
def Unit.treView (u : Unit) (ofs inst : Nat) : Option Word :=
  let w := fun (n : Nat) => some (BitVec.ofNat 32 n)
  let vb := u.viewBank Reg.treView
  if ofs = Reg.treStat then
    w (u.sco.active + 2 * b2n u.sco.swap.isSome + 4 * b2n u.sco.shadowValid + 8 * b2n (!u.sco.runTree.isEmpty)
      + 16 * b2n (!u.sco.treeQ.isEmpty))
  else if ofs = Reg.treSwapctl then w (4 * b2n u.sco.swap.isSome)
  else if ofs = Reg.treSwapcnt then w u.sco.swapn
  else if ofs = Reg.treActmask then w (u.bank u.sco.active).slotMask
  else if ofs = Reg.treShdmask then w (u.bank (1 - u.sco.active)).slotMask
  else if ofs = Reg.treAtWeirctl then w 0
  else match slotReg (slotSt u.sco.trees u.sco.active inst) ofs with
    | some n => w n
    | none =>
      if Reg.treAtCfg ≤ ofs ∧ ofs ≤ Reg.treAtFall then
        (match (u.bank vb).ens? inst with
         | some e => (ensReg e (Tab.getD (u.bank vb).base inst 0) ofs u.isAgg).map (BitVec.ofNat 32)
         | none => w 0)
      else none

/-- A word of the ternary image window (05 R183, R211): the shadow copy, with the leaf from leaf RAM, which holds 0 where an
uncorrectable error was rewritten (15 R506). -/
def Unit.ternaryImage (u : Unit) (byteOfs : Nat) : List Byte :=
  let i := byteOfs / 32 + (if u.isAgg then u.fld Reg.treImgpage 1 0 * 16384 else 0)
  let hit := [0, 1].findSome? fun bk =>
    let b := u.bank bk
    b.ensembles.findSome? fun e =>
      let base := Tab.getD b.base e.slot 0
      if base ≤ i ∧ i < base + e.nent then some (e, bk, i - base) else none
  match hit with
  | none => zeros 32
  | some (e, bk, k) =>
    (e.ents.getD k []).map (BitVec.ofNat 8) ++ leBytes 2 (treeTag bk (e.treeOf k) + 32768)
      ++ leBytes 4 (if u.sco.badLeaf.contains i then 0 else wrapN 32 (e.leaves.getD k 0)) ++ zeros 16

end Sys2Proof.Machine
end

