-- ==== Sys2Proof/Machine/Dense.lean ====
section
/-! DEFINITION. The dense scorer (06_dense_drift, R217-R231, R243, R244): quantised inputs, the two layers, joint
outputs, verdicts and their records. -/

namespace Sys2Proof.Machine

/-- A quantised input (06 R222, R223): x, QSAT, and whether MISSQ was taken. -/
def denseInput (fs : List Feat) (feats : List FeatVal) (d : DIn) : Int × Bool × Bool :=
  match feats[d.fidx]? with
  | none => (d.missq, false, true)
  | some v =>
    if v.miss then (d.missq, false, true)
    else
      let dom := match fs[d.fidx]? with | some f => f.dom | none => 0
      let q := rhe (domValue dom v.value * d.mi) d.shi
      let c := clampI (-128) 127 q
      (c, decide (c ≠ q), false)

/-- Dot product, in ascending order (06 R224). -/
def dot : List Int → List Int → Int
  | a :: as, b :: bs => a * b + dot as bs
  | _, _ => 0

/-- A hidden unit (06 R224): ReLU and clamp together. -/
def hiddenUnit (x : List Int) (h : DHid) (w : List Int) : Int :=
  clampI 0 127 (rhe ((h.bias + dot w x) * h.m) h.sh)

/-- An output (06 R224): y and SAT. -/
def outputUnit (a : List Int) (h : DHid) (w : List Int) : Int × Bool :=
  let q := rhe ((h.bias + dot w a) * h.m) h.sh
  let c := clampI (-(2 ^ 31)) (2 ^ 31 - 1) q
  (c, decide (c ≠ q))

/-- All hidden units of a model; the inputs themselves for a linear model (06 R219, R224). -/
def Model.activations (m : Model) (x : List Int) : List Int :=
  if m.nhid = 0 then x else (m.hid.zip m.w1).map fun (p : DHid × List Int) => hiddenUnit x p.1 p.2

/-- All outputs of a model. -/
def Model.outputs (m : Model) (x : List Int) : List (Int × Bool) :=
  (m.outs.zip m.w2).map fun (p : DOut × List Int) => outputUnit (m.activations x) p.1.q p.2

/-- DENSE_JOB_START: the first dense job whose features are ready begins (06 R228). -/
def Unit.denseJobStart (u : Unit) : Unit :=
  match u.sco.runDense, u.sco.denseQ with
  | none, j :: q =>
    (match u.vec? j.vec with
     | some v => if v.ready then { u with sco := { u.sco with runDense := some j, denseQ := q } } else u
     | none => u)
  | _, _ => u

/-- The engine's result for a job (06 R222-R224): it waits here for the partners of its joint outputs. -/
def denseResult (fs : List Feat) (m : Model) (j : Job) (feats : List FeatVal) (serr : Bool) : DenseWait :=
  let ins := m.ins.map (denseInput fs feats)
  let fsat := m.ins.any fun d => match feats[d.fidx]? with | some v => v.fsat | none => false
  { job := j
    ys := if serr then [] else m.outputs (ins.map fun (x : Int × Bool × Bool) => x.1)
    qsat := !serr && ins.any fun (x : Int × Bool × Bool) => x.2.1
    imputed := ins.any fun (x : Int × Bool × Bool) => x.2.2
    fsat := fsat
    miss := ((List.range ins.length).map fun i => if (ins.getD i (0, false, false)).2.2 then 2 ^ i else 0).sum
    storeErr := serr }

/-- Where a joint output's partner, of a bank, stands for a vector (06 R226, R227): its verdict, or `none` while it is due. A
partner that has no job of the vector and gave no verdict counts as dropped; the level of a dropped one is what it holds now. -/
def Unit.partnerOf (u : Unit) (bank vec slot : Nat) : Option Partner :=
  let held := (slotSt u.sco.trees bank slot).weir.level
  match u.sco.partners.find? fun p => p.vec == vec && p.slot == slot with
  | some p => some (if p.dropped then { p with level := held } else p)
  | none =>
    if (u.sco.treeQ ++ u.sco.runTree).any fun j => j.vec == vec && j.slot == slot then none
    else some ⟨vec, slot, 0, 0, held, true⟩

/-- What one output gives (06 R225-R227, R231). -/
structure OutRes where
  st : SlotSt
  /-- Output flags in the layout of VFLAGS. -/
  flags : Nat
  /-- The bytes of its entry. -/
  bytes : List Byte
  /-- Level to the health unit, before and after, and the output's own level before and after. -/
  jold : Nat
  jnew : Nat
  changed : Bool

/-- An output's verdict (06 R225-R227): `base` holds the flags common to all outputs. -/
def outVerdict (d : DOut) (st : SlotSt) (bank base epn : Nat) (y : Int) (sat : Bool) (p : Option Partner) : OutRes :=
  let joint := decide (d.comb = 1) || decide (d.comb = 2)
  let pf := match p with | some x => x.flags | none => 0
  let lost := match p with | some x => x.dropped || x.flags.testBit 3 | none => true
  let nojoint := decide (d.comb = 1) && lost
  let sum := match p with | some x => addSat40 x.score false y | none => (y, false)
  let score := if d.comb = 1 then (if nojoint then 0 else sum.1) else y
  let osat := sat || (decide (d.comb = 1) && !nojoint && sum.2)
  let w0 := st.start
  let w := if d.weir && !nojoint then w0.update d.t d.rise d.fall score else w0
  let plev := match p with | some x => x.level | none => 0
  let jl := if d.weir then (if d.comb = 2 then max w.level plev else w.level) else 0
  let joined := if joint then (base ||| (pf &&& 0x83)) else base
  let fl := (joined ||| (4 * b2n osat)) + 16384 * b2n nojoint + st.carried
  let raw := if d.weir && !nojoint then rawLevelOf d.t score else 0
  let lvl := if d.weir then w.level + 4 * raw + 16 * w.bits + 128 * bank else 0
  let jscore := if d.comb = 1 then score else 0
  let of := b2n osat + 2 * b2n nojoint + 4 * b2n (joint && pf.testBit 0)
  { st := { st.after w fl raw (if nojoint then st.score else jscore) epn with y := y, level := jl }
    flags := fl
    bytes := leBytes 4 (wrapN 32 y) ++ leBytes 1 lvl ++ leBytes 1 jl ++ leBytes 1 of ++ leBytes 1 d.comb
      ++ leBytes 8 (wrapN 64 jscore)
    jold := st.level, jnew := jl
    changed := decide (w.level ≠ st.weir.level) || decide (jl ≠ st.level) }

/-- Payload of a dense verdict record (06 R231). -/
def densePayload (m : Model) (nout vflags epn scopea swapn miss : Nat) (outs : List Byte) : List Byte :=
  leBytes 1 m.slot ++ leBytes 1 nout ++ leBytes 2 vflags ++ leBytes 4 m.modelid ++ leBytes 8 epn ++ leBytes 3 scopea
    ++ leBytes 1 m.trig ++ leBytes 4 swapn ++ zeros 8 ++ leBytes 32 miss ++ outs

/-- The verdicts of the outputs of a job, in order. -/
def Unit.outResults (u : Unit) (m : Model) (w : DenseWait) (bank base epn : Nat) : List OutRes :=
  (List.range m.outs.length).filterMap fun o =>
    match m.outs[o]?, w.ys[o]? with
    | some d, some y =>
      some (outVerdict d (slotSt u.sco.outs bank (m.slot * 16 + o)) bank base epn y.1 y.2
        (u.partnerOf bank w.job.vec d.partner))
    | _, _ => none

/-- An output of a job with STOREERR (05 R199, R200; 06 R230): its Weir and its level hold, but for a WEIRCTL.RESET; the last
score and y stay. -/
def SlotSt.held (st : SlotSt) (fl epn : Nat) : SlotSt :=
  { st.after st.start (fl + st.carried) 0 st.score epn with y := st.y, level := if st.wreset then st.start.level else st.level }

/-- The outputs of a job with STOREERR. -/
def Unit.outsHeld (u : Unit) (m : Model) (bank fl epn : Nat) : Tab SlotSt :=
  (List.range m.nout).foldl
    (fun (t : Tab SlotSt) o =>
      let key := m.slot * 16 + o
      Tab.put (bank * 256 + key) ((slotSt t bank key).held fl epn) t) u.sco.outs

/-- The flags of those outputs, and whether a level changed (06 R231). -/
def Unit.heldFlags (u : Unit) (m : Model) (bank fl : Nat) : Nat × Bool :=
  (List.range m.nout).foldl
    (fun (a : Nat × Bool) o =>
      let st := slotSt u.sco.outs bank (m.slot * 16 + o)
      (a.1 ||| (fl + st.carried), a.2 || decide (st.start.level ≠ st.weir.level))) (fl, false)

/-- Store the outputs' states. -/
def putOuts (t : Tab SlotSt) (bank slot : Nat) (o : Nat) : List OutRes → Tab SlotSt
  | [] => t
  | r :: rs => putOuts (Tab.put (bank * 256 + slot * 16 + o) r.st t) bank slot (o + 1) rs

/-- Hand on a dense verdict (06 R225-R231). Mark: DEDUCED (log entry 27, safe). -/
def Unit.denseVerdict (u : Unit) (w : DenseWait) (v : Vec) (m : Model) : Unit :=
  let epn := v.head.jobEpn w.job.kind
  let base := b2n w.imputed + 2 * b2n w.fsat + 8 * b2n w.storeErr + v.head.vflags w.job.kind + 8192 * b2n w.qsat
  let rs := u.outResults m w v.bank base epn
  let hf := u.heldFlags m v.bank base
  let vf := if w.storeErr then hf.1 else rs.foldl (fun a (r : OutRes) => a ||| r.flags) base
  let outs := if w.storeErr then u.outsHeld m v.bank base epn else putOuts u.sco.outs v.bank m.slot 0 rs
  let u := { u with sco := { u.sco with outs := outs, denseEpn := Tab.put (v.bank * 256 + m.slot) epn u.sco.denseEpn } }
  let u := if vf.testBit 2 then u.err Reg.dnsErr 0 else u
  let u := if w.qsat then u.err Reg.dnsErr 1 else u
  let u := if vf.testBit 14 then u.err Reg.dnsErr 4 else u
  let u := if w.storeErr then (u.err Reg.dnsErr 3).alarm .weightUe else u
  let rises := rs.any fun (r : OutRes) => r.jnew == 3 && r.jold != 3
  let silent := m.flags.testBit 1 && !(if w.storeErr then hf.2 else rs.any OutRes.changed)
  let pl := densePayload m rs.length vf epn v.head.scopea u.sco.swapn w.miss (rs.map OutRes.bytes).flatten
  let fl := 4 * b2n (vf.testBit 0) + 2 * b2n (vf.testBit 7)
  let u := if silent then u
    else u.submit ⟨0x12, fl, if rises then .alarm else .record, v.head.time, v.head.tq, pl, none⟩
  u.pruneVecs

/-- Every partner of a waiting job has given its verdict, or lost its job. -/
def Unit.joinable (u : Unit) (w : DenseWait) (m : Model) : Bool :=
  w.storeErr || m.outs.all fun d => d.comb == 0 || (u.partnerOf w.job.bank w.job.vec d.partner).isSome

/-- The vector and the model of a dense job. -/
def Unit.denseJob? (u : Unit) (j : Job) : Option (Vec × Model) :=
  match u.vec? j.vec with
  | none => none
  | some v => ((u.bank v.bank).model? j.slot).map fun m => (v, m)

/-- DENSE_VERDICT: the running job's outputs are computed; a joint output waits for its partner (06 R227). -/
def Unit.denseDone (u : Unit) : Unit :=
  match u.sco.runDense with
  | none => u
  | some j =>
    match u.denseJob? j with
    | none => { u with sco := { u.sco with runDense := none } }
    | some (v, m) =>
      let r := u.readsDamage v.bank
      let u := r.2
      let w := denseResult (u.bank v.bank).feats m j v.feats r.1
      let u := { u with sco := { u.sco with runDense := none } }
      if u.joinable w m then u.denseVerdict w v m
      else { u with sco := { u.sco with waits := u.sco.waits ++ [w] } }

/-- DENSE_JOINT: the first waiting job whose partners have all given their verdicts (06 R227, R229). -/
def Unit.denseJoint (u : Unit) : Unit :=
  let ready := fun (w : DenseWait) =>
    match u.denseJob? w.job with | some (_, m) => u.joinable w m | none => true
  match u.sco.waits.find? ready with
  | none => u
  | some w =>
    let u := { u with sco := { u.sco with waits := u.sco.waits.erase w } }
    match u.denseJob? w.job with
    | some (v, m) => u.denseVerdict w v m
    | none => u

/-- WEIRCTL.RESET of a dense slot: its output Weirs clear at the next verdict (06 R243). -/
def Unit.denseWeirReset (u : Unit) (slot : Nat) : Unit :=
  let outs := (List.range 16).foldl
    (fun (t : Tab SlotSt) o => slotNote t u.sco.active (slot * 16 + o) fun s => { s with wreset := true }) u.sco.outs
  { u with sco := { u.sco with outs := outs } }

/-- WEIRCTL.RESET of an ensemble (05 R200). -/
def Unit.treeWeirReset (u : Unit) (slot : Nat) : Unit :=
  { u with sco := { u.sco with trees := slotNote u.sco.trees u.sco.active slot fun s => { s with wreset := true } } }

/-- EPN of the last verdict of a dense slot of the active bank; a carried slot shows the other bank's till its own first
verdict (06 R221, R243). -/
def Unit.denseEpnOf (u : Unit) (slot : Nat) : Nat :=
  let b := u.sco.active
  let b := if (Tab.getD u.sco.outs (b * 256 + slot * 16) slot0).carry then 1 - b else b
  Tab.getD u.sco.denseEpn (b * 256 + slot) 0

/-- DNS registers that the banks and outputs hold (06 R243, R244). -/
def Unit.dnsView (u : Unit) (ofs inst : Nat) : Option Word :=
  let w := fun (n : Nat) => some (BitVec.ofNat 32 n)
  let bank := u.bank (u.viewBank Reg.dnsView)
  let act := u.bank u.sco.active
  let o := u.fld Reg.dnsOutidx 3 0
  let md := bank.model? inst
  let inOut := match act.model? inst with | some m => decide (o < m.nout) | none => false
  let st := slotSt u.sco.outs u.sco.active (inst * 16 + o)
  let epn := u.denseEpnOf inst
  if ofs = Reg.dnsStat then
    w (b2n u.sco.runDense.isSome + 2 * b2n (!u.sco.denseQ.isEmpty) + 256 * (act.models.map fun m => 2 ^ m.slot).sum)
  else if ofs = Reg.dnsAtCfg then
    w (match md with
       | some m => 2 ^ 31 + m.trig % 4 * 2 ^ 29 + b2n (m.flags.testBit 0) * 2 ^ 28 + b2n (m.flags.testBit 1) * 2 ^ 27
          + b2n (decide (m.nhid = 0)) * 2 ^ 26 + m.tplan * 256
       | none => 0)
  else if ofs = Reg.dnsAtModelid then w (match md with | some m => m.modelid | none => 0)
  else if ofs = Reg.dnsAtShape then
    w (match md with | some m => m.nin + m.nhid * 65536 + m.nout * 2 ^ 24 | none => 0)
  else if ofs = Reg.dnsAtEpnl then w epn
  else if ofs = Reg.dnsAtEpnh then w (epn / 2 ^ 32)
  else if ofs = Reg.dnsAtWeirctl then w 0
  else if ofs = Reg.dnsAtOcfg then
    w (match md with
       | some m => (match m.outs[o]? with | some d => d.comb + d.partner * 256 + 32768 * b2n d.weir | none => 0)
       | none => 0)
  else if ofs = Reg.dnsAtOval then w (if inOut then wrapN 32 st.y else 0)
  else if ofs = Reg.dnsAtOverd then
    w (if inOut then st.vflags * 65536 + 128 * b2n st.valid + 16 * st.weir.bits + 4 * st.rawLevel + st.weir.level else 0)
  else if ofs = Reg.dnsAtOjsl then w (if inOut then wrapN 40 st.score % 2 ^ 32 else 0)
  else if ofs = Reg.dnsAtOjsh then w (if inOut then wrapN 40 st.score / 2 ^ 32 else 0)
  else none

end Sys2Proof.Machine
end

