-- ==== Sys2Proof/Machine/Drift.lean ====
section
/-! DEFINITION. The drift unit (06_dense_drift, R232-R242, R245-R247): metric values and load bands, live baselines
and the two-sided CUSUM, change entries and their records. -/

namespace Sys2Proof.Machine

/-- A metric that has no state yet (06 R242). -/
def metric0 : Metric :=
  { bstate := 0, e := 0, bband := 0, calcnt := 0, sp := 0, sn := 0, drift := false, up := false, down := false
    ext := false, msat := false, lband := 0, last := 0, rebase := false }

/-- The value m of a metric with its MSAT, or none when the source value is invalid (06 R235). -/
def metricValue (d : MetD) (raw : Raw) : Option (Int × Bool) :=
  let r : Except Nat (Nat × Bool) := match raw with
    | .num x => .ok (convItem d.dom d.shift d.lsigned x)
    | .sensor v fmt ok age => convSensor v fmt ok age d.maxage
    | .absent k => .error k
    | .ratio => .error 9
    | .kept => .error 10
  match r with
  | .error _ => none
  | .ok (v, _) =>
    if d.dom = 2 then some (sext 32 v, false)
    else
      let m := domValue d.dom v * 65536
      let c := clampI (-(2 ^ 31)) (2 ^ 31 - 1) m
      some (c, decide (c ≠ m))

/-- The load band of BUSY and CYC (06 R236); none: void. -/
def loadBand (h : DriftHead) (busy cyc : Nat) : Option Nat :=
  if cyc = 0 then none
  else some ((h.cuts.filter fun c => decide (c * h.eng * cyc ≤ busy * 65536)).length)

/-- The baseline that an update uses (06 R237): b and ext, or none. -/
def metBase (sec : List Byte) (d : MetD) (x : Metric) (bd : Nat) : Option (Int × Bool) :=
  match (if d.pband then driftBand sec d.pbidx bd else none) with
  | some b => some (b, false)
  | none => if x.bstate = 2 then some (rhe x.e 16, !d.bandfree && decide (x.bband ≠ bd)) else none

/-- One sum of the CUSUM (06 R237). -/
def cusum (s r slack : Int) : Int := min (2 ^ 31 - 1) (max 0 (s + r - slack))

/-- The CUSUM step of an update. -/
def Metric.cusumStep (x : Metric) (d : MetD) (m : Int) (base : Option (Int × Bool)) : Metric :=
  match base with
  | none => { x with ext := false }
  | some (b, ext) =>
    let sp := cusum x.sp (m - b) d.slack
    let sn := cusum x.sn (b - m) d.slack
    let up := decide (sp > d.limit)
    let dn := decide (sn > d.limit)
    { x with sp := sp, sn := sn, up := up, down := dn, drift := up || dn, ext := ext }

/-- The live baseline of an update (06 R237, R238): `x` is the metric after its CUSUM step. -/
def Metric.learn (x : Metric) (d : MetD) (m : Int) (bd : Nat) : Metric :=
  let here := d.bandfree || decide (x.bband = bd)
  let x1 : Metric :=
    if x.bstate = 0 then { x with e := m * 65536, bband := bd, calcnt := 1, bstate := 1 }
    else if x.bstate = 1 && !x.drift && here then
      { x with e := x.e + rhe (m * 65536 - x.e) d.k, calcnt := min (x.calcnt + 1) 65535 }
    else if x.bstate = 2 && !d.freeze && !x.drift && !x.ext && here then
      { x with e := x.e + rhe (m * 65536 - x.e) d.k }
    else x
  if x1.bstate = 1 ∧ x1.calcnt ≥ d.caln then { x1 with bstate := 2 } else x1

/-- A metric after a REBASE takes effect (06 R242). -/
def Metric.rebased (x : Metric) : Metric :=
  if x.rebase then { metric0 with lband := x.lband, last := x.last, msat := x.msat } else x

/-- One whole update of a metric with a valid m in a band (06 R237). -/
def Metric.update (x : Metric) (sec : List Byte) (d : MetD) (m : Int) (msat : Bool) (bd : Nat) : Metric :=
  let x := x.rebased
  let base := metBase sec d x bd
  { (x.cusumStep d m base).learn d m bd with msat := msat, lband := bd, last := m, rebase := false }

/-- An update changes the metric's DRIFT state or direction, or the baseline reaches SET (06 R241). -/
def metChanged (a b : Metric) : Bool :=
  a.drift != b.drift || a.up != b.up || a.down != b.down || (b.bstate == 2 && a.rebased.bstate != 2)

/-- The change entry of an update (06 R241): `a` before, `b` after. -/
def changeEntry (sec : List Byte) (d : MetD) (i : Nat) (a b : Metric) (bd : Nat) : DriftEnt :=
  let base := match metBase sec d a.rebased bd with
    | some (v, _) => v
    | none => if b.bstate = 0 then 0 else rhe b.e 16
  let st := b2n b.drift + 2 * b2n b.up + 4 * b2n b.down + 8 * b2n b.ext + 16 * b2n b.msat + 32 * b.bstate
  { bytes := leBytes 2 i ++ leBytes 1 st ++ leBytes 1 (d.mclass + 4 * b.bband) ++ leBytes 4 (wrapN 32 b.sp)
      ++ leBytes 4 (wrapN 32 b.sn) ++ leBytes 4 (wrapN 32 base)
    ext := b.ext
    alarm := d.alarm && b.drift && !a.drift }

/-- One drift record of up to 64 entries (06 R241). -/
def Unit.driftRecord (u : Unit) (b : Batch) (cls : RecClass) (l : List DriftEnt) : Unit :=
  if l.isEmpty then u
  else
    let fl := b2n b.clkstop + 2 * b2n (decide (b.tq ≠ 0)) + 4 * b2n u.drf.restart
    let pl := leBytes 8 b.epn ++ leBytes 1 (match b.band with | some n => n | none => 255) ++ leBytes 1 l.length
      ++ leBytes 2 fl ++ zeros 4 ++ (l.map DriftEnt.bytes).flatten
    let hf := 2 * b2n b.clkstop + 8 * b2n (l.any DriftEnt.ext)
    let u := if u.drf.restart then u.err Reg.drfErr 3 else u
    let u := { u with drf := { u.drf with restart := false } }
    u.submit ⟨0x13, hf, cls, b.time, b.tq, pl, none⟩

/-- The records of a list of entries, 64 to a record. Mark: DEDUCED (log entry 60, unsafe). -/
def Unit.driftRecords (u : Unit) (b : Batch) (cls : RecClass) : Nat → List DriftEnt → Unit
  | 0, _ => u
  | n + 1, l => if l.isEmpty then u else (u.driftRecord b cls (l.take 64)).driftRecords b cls n (l.drop 64)

/-- Every metric of a batch is updated: its entries are handed on (06 R241). Mark: DEDUCED (log entry 60, unsafe). -/
def Unit.driftFlush (u : Unit) (b : Batch) : Unit :=
  let al := b.entries.filter DriftEnt.alarm
  let re := b.entries.filter fun e => !e.alarm
  (u.driftRecords b .alarm 16 al).driftRecords b .record 16 re

/-- The state that an update of a batch works on: the metric's, or, where content has replaced the metric since the latch, what
the metric had (03 R121; 06 R242). The boolean answers that it is the metric's own. -/
def Unit.metState (u : Unit) (b : Batch) (i : Nat) : Metric × Bool :=
  if (driftMets b.sec)[i]? = (driftMets (u.sec 8))[i]? then (Tab.getD u.drf.metrics i metric0, true)
  else (Tab.getD b.gone i metric0, false)

/-- Store what an update leaves: in the metric, or for the later batches of the configuration that was replaced. -/
def Unit.putMet (u : Unit) (own : Bool) (i : Nat) (y : Metric) : Unit :=
  if own then { u with drf := { u.drf with metrics := Tab.put i y u.drf.metrics } }
  else { u with drf := { u.drf with batches := u.drf.batches.map fun (b : Batch) => { b with gone := Tab.put i y b.gone } } }

/-- The update of one metric (06 R235-R238): the unit and the change entry. -/
def Unit.metUpdate (u : Unit) (b : Batch) (i : Nat) (raw : Raw) : Unit × List DriftEnt :=
  match (driftMets b.sec)[i]? with
  | none => (u, [])
  | some d =>
    let band := if d.bandfree then some 0 else b.band
    match metricValue d raw, band with
    | some (m, msat), some bd =>
      let x := u.metState b i
      let y := x.1.update b.sec d m msat bd
      let u := u.putMet x.2 i y
      let u := if msat then u.err Reg.drfErr 0 else u
      let u := if y.ext then u.err Reg.drfErr 1 else u
      (u, if metChanged x.1 y then [changeEntry b.sec d i x.1 y bd] else [])
    | _, none => ((u.count Reg.drfAtSkipcnt i).err Reg.drfErr 2, [])
    | none, some _ => (u.count Reg.drfAtSkipcnt i, [])

/-- DRIFT_UPDATE: a metric whose turn it is updates (06 R240, ascending metric index). With DRIFTEN = 0 no update runs, and
those still due when it is cleared pass without one (06 R245). Mark: DEDUCED (log entry 60, unsafe). -/
def Unit.driftUpdate (u : Unit) (i : Nat) : Unit :=
  match u.drf.batches with
  | [] => u
  | b :: rest =>
    match b.due with
    | [] => { u with drf := { u.drf with batches := rest } }.driftFlush b
    | (j, raw) :: due =>
      if j ≠ i then u
      else
        let on := u.bit Reg.drfCtrl 0
        let r := if on then { u with drf := { u.drf with batches := rest } }.metUpdate b i raw
          else ({ u with drf := { u.drf with batches := rest } }, [])
        let b' := { b with due := due, entries := b.entries ++ r.2 }
        let d := if on then { r.1.drf with lastBand := some b.band, lastEpn := b.epn } else r.1.drf
        if due.isEmpty then { r.1 with drf := d }.driftFlush b'
        else { r.1 with drf := { d with batches := b' :: d.batches } }

/-- Add the updates of a latch or an entry; none with DRIFTEN = 0 or with no metric bound (06 R235, R245). -/
def Unit.addBatch (u : Unit) (epn time tq : Nat) (clkstop : Bool) (band : Option Nat) (entry : Option RdxKey)
    (due : List (Nat × Raw)) : Unit :=
  if !u.bit Reg.drfCtrl 0 || due.isEmpty then u
  else { u with drf := { u.drf with
      batches := u.drf.batches ++ [⟨epn, time, tq, clkstop, band, entry, u.sec 8, [], due, []⟩] } }

/-- Every metric returns to EMPTY; the first change record carries RESTART (06 R242). -/
def Unit.clearDrift (u : Unit) : Unit :=
  { u with drf := { u.drf with metrics := [], batches := [], restart := true } }

/-- Content replaces DRIFT: a metric whose descriptor and METID are unchanged keeps its state (06 R242).
Mark: DEDUCED (log entry 60, unsafe). -/
def keepMetrics (old new : List Byte) (t : Tab Metric) : Tab Metric :=
  t.filter fun p =>
    match (driftMets old)[p.1]?, (driftMets new)[p.1]? with
    | some a, some b => decide (a = b)
    | _, _ => false

/-- REBASE of a metric waits for its next update (06 R242). Mark: DEDUCED (log entry 60, unsafe). -/
def Unit.rebase (u : Unit) (i : Nat) : Unit :=
  let x := Tab.getD u.drf.metrics i metric0
  { u with drf := { u.drf with metrics := Tab.put i { x with rebase := true } u.drf.metrics } }

/-- Metrics of a margin class in DRIFT (06 R239). -/
def Unit.marginCount (u : Unit) (cls : Nat) : Nat :=
  let ms := driftMets (u.sec 8)
  (u.drf.metrics.filter fun p => p.2.drift && (match ms[p.1]? with | some d => d.mclass == cls | none => false)).length

/-- DRF registers that the drift unit's state holds (06 R245-R247). -/
def Unit.drfView (u : Unit) (ofs inst : Nat) : Option Word :=
  let w := fun (n : Nat) => some (BitVec.ofNat 32 n)
  let sec := u.sec 8
  let h := driftHead sec
  let md := (driftMets sec)[inst]?
  let x := Tab.getD u.drf.metrics inst metric0
  let from_ := fun (f : MetD → Nat) => w (match md with | some d => f d | none => 0)
  if ofs = Reg.drfStat then
    w (h.nmet + (match u.drf.lastBand with
          | some (some n) => if u.isAgg then 0 else n * 4096
          | some none => if u.isAgg then 0 else 32768
          | none => 0)
      + (u.drf.metrics.filter fun p => p.2.drift).length * 65536)
  else if ofs = Reg.drfEpnl then w u.drf.lastEpn
  else if ofs = Reg.drfEpnh then w (u.drf.lastEpn / 2 ^ 32)
  else if ofs = Reg.drfMargsum then
    w (min 255 (u.marginCount 1) + 256 * min 255 (u.marginCount 2) + 65536 * min 255 (u.marginCount 3))
  else if ofs = Reg.drfBandcfg then w (h.eng + 256 * h.plan + 65536 * h.num + 2 ^ 24 * h.den)
  else if ofs = Reg.drfAtCfg then
    from_ fun d => 2 ^ 31 + d.src % 8 * 2 ^ 28 + d.dom % 4 * 2 ^ 26 + d.shift % 32 * 2 ^ 21 + b2n d.lsigned * 2 ^ 20
      + b2n d.bandfree * 2 ^ 19 + b2n d.freeze * 2 ^ 18 + b2n d.alarm * 2 ^ 17 + d.mclass * 2 ^ 15
      + b2n d.pband * 2 ^ 14 + d.k % 32
  else if ofs = Reg.drfAtMetid then from_ MetD.metid
  else if ofs = Reg.drfAtSlack then from_ fun d => wrapN 32 d.slack
  else if ofs = Reg.drfAtLimit then from_ fun d => wrapN 32 d.limit
  else if ofs = Reg.drfAtState then
    w (min x.calcnt 65535 * 65536 + x.lband * 4096 + x.bband * 256 + 64 * b2n x.msat + 32 * b2n x.ext
      + 16 * b2n x.down + 8 * b2n x.up + 4 * b2n x.drift + x.bstate)
  else if ofs = Reg.drfAtBase then w (if x.bstate = 0 then 0 else wrapN 32 (rhe x.e 16))
  else if ofs = Reg.drfAtSp then w (wrapN 32 x.sp)
  else if ofs = Reg.drfAtSn then w (wrapN 32 x.sn)
  else if ofs = Reg.drfAtLast then w (wrapN 32 x.last)
  else if ofs = Reg.drfAtRebase then w 0
  else none

end Sys2Proof.Machine
end

