-- ==== Sys2Proof/Machine/Flume.lean ====
section
/-! DEFINITION. Flume (13_flume): the encoder of R457 at every level, the frame of R454, the decoder of R464, the level
in force (R459), snapshot delta mode (R461, R462), the compression engine and the aggregator's verifier (R465, R466). -/

namespace Sys2Proof.Machine

/-! ### The encoder -/

/-- Byte `q` of the input. -/
def byteOf (b : List Byte) (q : Nat) : Nat := (b.getD q 0).toNat

/-- hash(q) of R457. -/
def flmHash (b : List Byte) (q : Nat) : Nat :=
  ((byteOf b q + 2 ^ 8 * byteOf b (q + 1) + 2 ^ 16 * byteOf b (q + 2) + 2 ^ 24 * byteOf b (q + 3)) * 0x9e3779b1
    % 2 ^ 32) / 2 ^ 20

/-- Length of the common prefix of two lists, at most `cap`. -/
def prefixLen : Nat → List Byte → List Byte → Nat
  | 0, _, _ => 0
  | n + 1, a :: s, b :: t => if a = b then 1 + prefixLen n s t else 0
  | _ + 1, _, _ => 0

/-- common(a, b, cap) of R457. -/
def flmCommon (b : List Byte) (i j cap : Nat) : Nat := prefixLen cap (b.drop i) (b.drop j)

/-- Search depth of a level (R458). -/
def flmDepth (level : Nat) : Nat := if level = 0 then 1 else 2 ^ (level - 1)

/-- The candidates from `c` on, nearest first: best length and distance (R457). -/
def flmSearch (b : List Byte) (prev : Tab Nat) (p : Nat) : Nat → Option Nat → Nat × Nat → Nat × Nat
  | 0, _, r => r
  | _ + 1, none, r => r
  | n + 1, some c, r =>
    let l := flmCommon b c p (min 256 (b.length - p))
    flmSearch b prev p n (Tab.find c prev) (if l > r.1 then (l, p - c) else r)

/-- emit_lit of R457. -/
def emitLit (b : List Byte) (i j : Nat) : List Byte :=
  let l := j - i
  if l = 0 then []
  else (if l ≤ 63 then leBytes 1 (l - 1) else 0x3F :: leBytes 2 (l - 64)) ++ slice b i l

/-- emit_match of R457. -/
def emitMatch (m d : Nat) : List Byte :=
  if m ≤ 11 ∧ d ≤ 2048 then leBytes 1 (0x40 + 8 * (m - 4) + (d - 1) / 256) ++ leBytes 1 ((d - 1) % 256)
  else if m ≤ 66 then leBytes 1 (0x80 + m - 4) ++ leBytes 2 (d - 1)
  else 0xBF :: (leBytes 2 (m - 67) ++ leBytes 2 (d - 1))

/-- State of the encoder. -/
structure Enc where
  p : Nat
  lit : Nat
  head : Tab Nat
  prev : Tab Nat
  out : List Byte

/-- Insert a position in the hash chains. -/
def Enc.insert (b : List Byte) (e : Enc) (q : Nat) : Enc :=
  let h := flmHash b q
  { e with prev := (match Tab.find h e.head with | some c => Tab.put q c e.prev | none => Tab.del q e.prev)
           head := Tab.put h q e.head }

/-- One turn of the loop of R457. -/
def Enc.step (b : List Byte) (level : Nat) (e : Enc) : Enc :=
  let n := b.length
  let p := e.p
  let r := flmSearch b e.prev p (flmDepth level) (Tab.find (flmHash b p) e.head) (0, 0)
  let e := e.insert b p
  if r.1 ≥ 4 then
    let best := if r.1 = 256 then flmCommon b (p - r.2) p (n - p) else r.1
    let e := { e with out := e.out ++ emitLit b e.lit p ++ emitMatch best r.2 }
    let e := if level ≥ 1 then
        ((List.range (min (p + best) (n - 3) - (p + 1))).map fun k => p + 1 + k).foldl (Enc.insert b) e
      else e
    { e with p := p + best, lit := p + best }
  else { e with p := p + 1 }

/-- The loop of R457; it ends before the fuel does, since every turn advances p. -/
def Enc.run (b : List Byte) (level : Nat) : Nat → Enc → Enc
  | 0, e => e
  | n + 1, e => if e.p + 4 ≤ b.length then Enc.run b level n (e.step b level) else e

/-- The token stream of an input at a level (R457). -/
def flmEncode (b : List Byte) (level : Nat) : List Byte :=
  let e := Enc.run b level b.length ⟨0, 0, [], [], []⟩
  e.out ++ emitLit b e.lit b.length

/-- XOR of two payloads of one length (R461). -/
def xorBytes (a b : List Byte) : List Byte := (a.zip b).map fun (p : Byte × Byte) => p.1 ^^^ p.2

/-- A Flume frame (R454); `ref` is the reference of a delta frame. -/
def flmFrame (payload : List Byte) (level : Nat) (ref : Option FlumeRef) : List Byte :=
  let inp := match ref with | some r => xorBytes payload r.payload | none => payload
  let rs := match ref with | some r => leBytes 6 r.seq | none => zeros 6
  let rc := match ref with | some r => leBytes 4 (crc32c r.payload).toNat | none => zeros 4
  [0x46, 0x4C, 1] ++ leBytes 1 (b2n ref.isSome) ++ leBytes 1 level ++ zeros 1 ++ leBytes 2 (payload.length - 1) ++ rs
    ++ zeros 2 ++ rc ++ flmEncode inp level ++ leBytes 4 (crc32c payload).toNat

/-! ### The decoder -/

/-- Bytes copied one at a time from the output itself (R456). -/
def copyMatch (d : Nat) : Nat → List Byte → List Byte
  | 0, o => o
  | m + 1, o => copyMatch d m (o ++ [o.getD (o.length - d) 0])

/-- Operand bytes of a token (R455). -/
def operandBytes (t : Nat) : Nat := if t < 0x3F then 0 else if t = 0x3F then 2 else if t < 0x80 then 1 else if t < 0xBF then 2 else 4

/-- The token loop of R464: status, output so far. `ts` is what remains of the token stream. -/
def flmTokens (ulen : Nat) : Nat → List Byte → List Byte → Nat × List Byte
  | 0, _, o => (5, o)
  | _ + 1, [], o => (0, o)
  | n + 1, tb :: ts, o =>
    let t := tb.toNat
    let ob := operandBytes t
    let x := leAt ts 0 2
    if t ≥ 0xC0 then (1, o)
    else if ts.length < ob then (5, o)
    else
      let lit := decide (t ≤ 0x3F)
      let len := if t < 0x3F then t + 1 else if t = 0x3F then 64 + x else if t < 0x80 then t / 8 % 8 + 4
        else if t < 0xBF then t % 64 + 4 else 67 + x
      let d := if t < 0x80 then 256 * (t % 8) + leAt ts 0 1 + 1 else if t < 0xBF then x + 1 else leAt ts 2 2 + 1
      let ts := ts.drop ob
      if o.length + len > ulen then (3, o)
      else if lit && decide (ts.length < len) then (5, o)
      else if !lit && decide (d > o.length) then (2, o)
      else
        let o' := if lit then o ++ ts.take len else copyMatch d len o
        let ts := if lit then ts.drop len else ts
        if o'.length = ulen ∧ !ts.isEmpty then (3, o') else flmTokens ulen n ts o'

/-- The header is right (R464). -/
def flmHeadOk (f : List Byte) : Bool :=
  let ff := leAt f 3 1
  decide (leAt f 0 2 = 0x4C46) && decide (leAt f 2 1 = 1) && decide (ff ≤ 1) && decide (leAt f 4 1 ≤ 9)
    && decide (leAt f 5 1 = 0) && decide (leAt f 14 2 = 0)
    && (decide (ff = 1) || (decide (leAt f 8 6 = 0) && decide (leAt f 16 4 = 0)))

/-- Decode a frame (R464): status, payload, output offset at the end. -/
def flmDecode (f : List Byte) (ref : Option FlumeRef) : Nat × List Byte × Nat :=
  let delta := decide (leAt f 3 1 = 1)
  let ulen := leAt f 6 2 + 1
  let fits := match ref with
    | some r => decide (r.seq = leAt f 8 6) && decide ((crc32c r.payload).toNat = leAt f 16 4)
        && decide (r.payload.length = ulen)
    | none => false
  if f.length < 25 then (5, [], 0)
  else if !flmHeadOk f then (1, [], 0)
  else if delta && !fits then (6, [], 0)
  else
    let ts := slice f 20 (f.length - 24)
    let r := flmTokens ulen (ts.length + 1) ts []
    if r.1 ≠ 0 then (r.1, [], r.2.length)
    else if r.2.length < ulen then (5, [], r.2.length)
    else
      let out := if delta then (match ref with | some x => xorBytes r.2 x.payload | none => r.2) else r.2
      if (crc32c out).toNat = leAt f (f.length - 4) 4 then (0, out, r.2.length) else (4, [], r.2.length)

/-! ### The engine -/

/-- Conditions of R459 as they stand: STARTUP, TEST, RECOVERY, ALARMADJ. `recovery` is the part's own. -/
def Unit.flmConds (u : Unit) (recovery : Bool) : List Bool :=
  [!u.ep.anyMain, u.bit Reg.flmCtrl 2, recovery,
    match u.recs.alarmEpoch with | some e => decide (u.ep.lastMain ≤ e + 1) | none => false]

/-- COMPRESS: the engine takes the next record (R453, R459); it is off in SLEEP and HOSTOFF.
Mark: DEDUCED (log entry 51, unsafe). -/
def Unit.compress (u : Unit) (recovery : Bool) : Unit :=
  match u.flm.cur, u.flm.queue with
  | none, d :: q =>
    let forced := (u.flmConds recovery).any id
    let level := if forced then 0 else u.fld Reg.flmCtrl 11 8
    { u with flm := { u.flm with
        queue := q, cur := some ⟨d, level, forced, u.bit Reg.flmCtrl 1, u.clk⟩
        lastLevel := level, lastForced := forced
        inBytes := (u.flm.inBytes + d.payload.length) % 2 ^ 64 } }
  | _, _ => u

/-- The stream of a draft advanced: its record was committed. -/
def committed (u v : Unit) (d : Draft) : Bool :=
  decide ((u.stream d.cls.code).next ≠ (v.stream d.cls.code).next)

/-- Add to FLM_OUT. -/
def Unit.flmOut (u : Unit) (n : Nat) : Unit :=
  { u with flm := { u.flm with outBytes := (u.flm.outBytes + n) % 2 ^ 64 } }

/-- Commit a record uncompressed after the engine had it; `raw` says that its frame was not smaller, which FLM_RAWCNT
counts (R453, R467). -/
def Unit.flmRaw (u : Unit) (d : Draft) (raw : Bool) : Unit :=
  let v := u.commit d
  if committed u v d then
    let v := v.flmOut d.payload.length
    if raw then v.count Reg.flmRawcnt else v
  else v

/-- The reference of a record's delta frame, or none for a key frame or a frame outside delta mode (R461, R462). -/
def Unit.flmRef (u : Unit) (c : Compressing) : Option FlumeRef :=
  let t := c.draft.typ
  if !c.delta || !(decide (t = 1) || decide (t = 2)) then none
  else match Tab.find t u.flm.refs with
    | some r =>
      if r.payload.length ≠ c.draft.payload.length ∨ Tab.getD u.flm.keys t 0 ≥ u.fld Reg.flmKeyper 15 0 then none
      else some r
    | none => none

/-- COMPRESS_COMPLETE: the pass ends (R453, R457, R461, R462). -/
def Unit.compressComplete (u : Unit) : Unit :=
  match u.flm.cur with
  | none => u
  | some c =>
    let d := c.draft
    let u := { u with flm := { u.flm with cur := none } }
    let ref := u.flmRef c
    let f := flmFrame d.payload c.level ref
    if f.length ≥ d.payload.length then (u.err Reg.flmErr 1).flmRaw d true
    else
      let key := c.delta && ref.isNone && (decide (d.typ = 1) || decide (d.typ = 2))
      let v := u.commitAs d f true key
      if !committed u v d then v
      else
        let v := (v.flmOut f.length).count Reg.flmCfrmcnt
        let v := if c.forced then v.count Reg.flmL0cnt else v
        if key then v.count Reg.flmKeycnt else v

/-- COMPRESS_ABANDON: a pass at level 1-9 overran FLM_CBUDGET; the same input goes again at level 0 (R460). -/
def Unit.compressAbandon (u : Unit) : Unit :=
  match u.flm.cur with
  | some c =>
    if c.level = 0 ∨ u.since c.since < usT (u.fld Reg.flmCbudget 15 0) then u
    else ({ u with flm := { u.flm with cur := some { c with level := 0, since := u.clk } } }.count Reg.flmAbandcnt).err
      Reg.flmErr 0
  | none => u

/-- COMPRESS_FAULT: a memory error in the history RAM, or a LINK partition reset, ends the pass (R467). An uncorrectable
error in staging also clears the references (R462). Mark: DEDUCED (log entry 51, unsafe). -/
def Unit.compressFault (u : Unit) (ue : Bool) : Unit :=
  match u.flm.cur with
  | some c =>
    let u := { u with flm := { u.flm with cur := none } }
    let u := if ue then u.err Reg.flmErr 5 else u
    u.flmRaw c.draft false
  | none => u

/-- The die unit goes to SLEEP: records that the engine still has are committed uncompressed, in their order (R453; 18 R573).
Mark: DEDUCED (log entry 51, unsafe). -/
def Unit.flmPark (u : Unit) : Unit :=
  let l := u.flm.cur.toList.map Compressing.draft ++ u.flm.queue
  l.foldl (fun (u : Unit) d => u.flmRaw d false) { u with flm := { u.flm with cur := none, queue := [] } }

/-- References and key counts are cleared (R462). -/
def Unit.flmClear (u : Unit) : Unit := { u with flm := { u.flm with refs := [], keys := [] } }

/-! ### The verifier -/

/-- Key of a (SRC, TYPE). -/
def vrefKey (src typ : Nat) : Nat := 256 * src + typ

/-- A record carries a Flume frame (09 R333). -/
def isCompressed (r : Rec) : Bool := r.flags.toNat.testBit 5

/-- A record of a type that can be a reference. -/
def isSnap (r : Rec) : Bool := decide (r.typ.toNat = 1) || decide (r.typ.toNat = 2)

/-- Clear the reference of a (SRC, TYPE). -/
def Unit.dropVref (u : Unit) (r : Rec) : Unit :=
  { u with flm := { u.flm with vrefs := Tab.del (vrefKey r.src.toNat r.typ.toNat) u.flm.vrefs } }

/-- A record that begins a series of the stream that snapshots are in: what was held of its SRC goes (R463).
Mark: DEDUCED (log entry 51, unsafe). -/
def startsSeries (r : Rec) : Bool := r.seq == 0 && r.classNo == 3

/-- Clear the references of a SRC. -/
def Unit.dropVrefs (u : Unit) (src : Nat) : Unit :=
  { u with flm := { u.flm with vrefs := u.flm.vrefs.filter fun p => p.1 / 256 != src } }

/-- A record that the aggregator journals is offered to the verifier (R466). Mark: DEDUCED (log entry 51, unsafe). -/
def Unit.verifyOffer (u : Unit) (r : Rec) : Unit :=
  if !u.bit Reg.flmCtrl 3 then u
  else if isCompressed r then
    let used := ((u.flm.vqueue.filter isCompressed).map fun x => x.payload.length).sum
    if used + r.payload.length > 262144 then ((u.count Reg.flmVskipcnt).err Reg.flmErr 4).dropVref r
    else { u with flm := { u.flm with vqueue := u.flm.vqueue ++ [r] } }
  else if isSnap r || startsSeries r then { u with flm := { u.flm with vqueue := u.flm.vqueue ++ [r] } }
  else u

/-- Hold a reference (R463). -/
def Unit.putVref (u : Unit) (r : Rec) (payload : List Byte) : Unit :=
  if isSnap r then
    { u with flm := { u.flm with vrefs := Tab.put (vrefKey r.src.toNat r.typ.toNat) ⟨r.seq.toNat, payload⟩ u.flm.vrefs } }
  else u

/-- A frame that fails to decode (R465, R466). -/
def Unit.verifyFail (u : Unit) (r : Rec) (status pos : Nat) : Unit :=
  let c := r.classNo
  let u := (u.count Reg.flmDerrcnt).err Reg.flmErr 2
  let u := u.wrN Reg.flmDlast (r.src.toNat + c * 2 ^ 24 + status * 2 ^ 28 + 2 ^ 31)
  let u := (u.wrN Reg.flmDlastseql r.seq.toNat).wrN Reg.flmDlastseqh (r.seq.toNat / 2 ^ 32)
  let u := (u.wrN Reg.flmDlastpos pos).dropVref r
  u.event 0x020 [BitVec.ofNat 32 (r.src.toNat + c * 2 ^ 24), BitVec.ofNat 32 r.seq.toNat,
    BitVec.ofNat 32 (r.seq.toNat / 2 ^ 32 + status * 2 ^ 16)]

/-- FRAME_VERIFY: the decoder takes the next record of its queue (R464-R466). -/
def Unit.frameVerify (u : Unit) : Unit :=
  match u.flm.vqueue with
  | [] => u
  | r :: q =>
    let u := { u with flm := { u.flm with vqueue := q } }
    let u := if startsSeries r then u.dropVrefs r.src.toNat else u
    if !isCompressed r then u.putVref r r.payload
    else
      let d := flmDecode r.payload (Tab.find (vrefKey r.src.toNat r.typ.toNat) u.flm.vrefs)
      let u := u.count Reg.flmDeccnt
      if d.1 = 0 then u.putVref r d.2.1
      else if d.1 = 6 then (u.count Reg.flmNorefcnt).err Reg.flmErr 3
      else u.verifyFail r d.1 d.2.2

/-! ### Registers -/

/-- FLM registers that the engine holds (R468). -/
def Unit.flmView (u : Unit) (ofs : Nat) (recovery : Bool) : Option Word :=
  let w := fun (n : Nat) => some (BitVec.ofNat 32 n)
  if ofs = Reg.flmStat then
    let c := u.flmConds recovery
    w (u.flm.lastLevel + 16 * b2n u.flm.lastForced + 32 * b2n (c.getD 0 false) + 64 * b2n (c.getD 1 false)
      + 128 * b2n (c.getD 2 false) + 256 * b2n (c.getD 3 false) + 512 * b2n u.flm.cur.isSome
      + 65536 * b2n (!u.flm.vqueue.isEmpty))
  else if ofs = Reg.flmInl then w u.flm.inBytes
  else if ofs = Reg.flmInh then w (u.flm.inBytes / 2 ^ 32)
  else if ofs = Reg.flmOutl then w u.flm.outBytes
  else if ofs = Reg.flmOuth then w (u.flm.outBytes / 2 ^ 32)
  else none

end Sys2Proof.Machine
end

