-- ==== Sys2Proof/Machine/RaceLink.lean ====
section
/-! DEFINITION. A Race port as a sender (10_race_link): credits and the order of frames (R371-R373), and what a runner
window withholds (04 R149; R382, R383). -/

namespace Sys2Proof.Machine

/-- A Race port at reset: DOWN. -/
def rport0 : RacePort := ⟨0, 0, 0, 0, false, 0, 0, none, false, [], 0, [], [], 0⟩

/-- A Race port. -/
def Unit.rport (u : Unit) (p : Nat) : RacePort := Tab.getD u.race.ports p rport0

/-- Put a Race port. -/
def Unit.setRport (u : Unit) (p : Nat) (x : RacePort) : Unit :=
  { u with race := { u.race with ports := Tab.put p x u.race.ports } }

/-- The port is UP. -/
def Unit.raceUp (u : Unit) (p : Nat) : Bool := (u.rport p).state == 2

/-- Buffer units per class of a receiver (R371). -/
def creditsFull : List Nat := [8, 8, 160, 136, 136]

/-- Units of a frame of some bytes (R371). -/
def unitsOf (bytes : Nat) : Nat := (bytes + 63) / 64

/-- A RUNNER-window withholds the start of RECORD and BULK frames (04 R149). -/
def RacePort.withholds (x : RacePort) (cls : Nat) : Bool := x.window.isSome && decide (cls ≥ 3)

/-- Credits that a frame needs are held. -/
def RacePort.credit (x : RacePort) (cls n : Nat) : Bool := decide (n ≤ x.cred.getD cls 0)

/-- Credits are owed to the port. -/
def RacePort.owed (x : RacePort) : Bool := decide (x.cred ≠ creditsFull)

/-- Return the buffer units of a frame that arrived at a port and is forwarded or consumed (R371, R372, R374). -/
def Unit.giveCredit (u : Unit) (p : Option Nat) (cls units : Nat) : Unit :=
  match p with
  | some k => u.emit (.credit k cls units)
  | none => u

/-- A frame arrives at a port and is good (R386, R388). -/
def Unit.raceArr (u : Unit) (p : Nat) : Unit :=
  let x := u.rport p
  (if x.bad = 0 then u else u.setRport p { x with bad := 0 }).count Reg.raceAtRxfrm p

/-- A frame with a wrong HCHK or trailer arrives at a port (R386, R388). -/
def Unit.raceBad (u : Unit) (p : Nat) : Unit :=
  let x := u.rport p
  (u.setRport p { x with bad := x.bad + 1 }).count Reg.raceAtRxfrm p

/-- A frame of some bytes arrives at a port and is consumed (R371, R388). -/
def Unit.raceRx (u : Unit) (p cls bytes : Nat) : Unit := (u.raceArr p).giveCredit (some p) cls (unitsOf bytes)

/-- A frame starts: its credits are spent, it is counted, and one in transit leaves its buffer (R371, R388). -/
def Unit.raceStart (u : Unit) (p : Nat) (w : RaceWait) : Unit :=
  let x := u.rport p
  let x := { x with cred := x.cred.set w.cls (x.cred.getD w.cls 0 - w.units), credAt := if x.owed then x.credAt else u.clk }
  (((u.setRport p x).count Reg.raceAtTxfrm p).emit w.out).giveCredit w.src w.cls w.units

/-- A frame that waits stands before a new one of its class: frames in transit go before frames that the port originates
(R373). -/
def RacePort.before (x : RacePort) (cls : Nat) (src : Option Nat) : Bool :=
  x.wait.any fun w => w.cls == cls && (src.isNone || w.src.isSome)

/-- Hand a frame to an output port: it starts, or waits behind its class for credits or for the end of a window. A port
that is not UP sends nothing. `src` is the port at which a frame in transit arrived. -/
def Unit.raceTx (u : Unit) (p cls bytes : Nat) (o : Out) (src : Option Nat) : Unit :=
  let x := u.rport p
  let w : RaceWait := ⟨cls, unitsOf bytes, o, src⟩
  if x.state ≠ 2 then u.giveCredit src cls w.units
  else if x.credit cls w.units && !x.withholds cls && !x.before cls src then u.raceStart p w
  else u.setRport p { x with wait := x.wait ++ [w] }

/-- The first frame of a class that waits: in transit, else of the port's own (R373). -/
def RacePort.first (x : RacePort) (cls : Nat) : Option RaceWait :=
  match x.wait.find? fun w => w.cls == cls && w.src.isSome with
  | some w => some w
  | none => x.wait.find? fun w => w.cls == cls

/-- The next frame to start: the lowest class whose first frame has its credits and is not withheld (R373). -/
def RacePort.next (x : RacePort) : Option RaceWait :=
  (List.range 5).findSome? fun c =>
    match x.first c with
    | some w => if x.credit c w.units && !x.withholds c then some w else none
    | none => none

/-- Start every waiting frame that may start. -/
def Unit.racePump (u : Unit) (p : Nat) : Nat → Unit
  | 0 => u
  | k + 1 =>
    let x := u.rport p
    match x.next with
    | none => u
    | some w => ((u.setRport p { x with wait := x.wait.erase w }).raceStart p w).racePump p k

/-- Start every waiting frame that may start. -/
def Unit.raceDrain (u : Unit) (p : Nat) : Unit := u.racePump p (u.rport p).wait.length

/-- A die unit may start one of its own ALARM frames in a window: D mod 4 = n mod 4, and none started yet (R382). -/
def Unit.alarmTurn (u : Unit) (x : RacePort) : Bool :=
  match x.window with
  | some n => decide (bitsOf u.node.toNat 6 2 % 4 = n % 4) && !x.started
  | none => true

/-- Hold an own frame until the last runner's tail has passed (R382, R383). -/
def Unit.raceHold (u : Unit) (p cls bytes : Nat) (o : Out) : Unit :=
  let x := u.rport p
  let u := u.setRport p { x with held := x.held ++ [(cls, bytes, o)] }
  if u.isDie then u.count Reg.raceHoldcnt else u

/-- A frame of the part's own (R382, R383). -/
def Unit.raceOwn (u : Unit) (p cls bytes : Nat) (o : Out) : Unit :=
  let x := u.rport p
  if x.state ≠ 2 then u
  else if x.window.isNone then u.raceTx p cls bytes o none
  else if cls = 1 then u.raceHold p cls bytes o
  else if cls = 0 ∧ u.isDie = true then
    if u.alarmTurn x then (u.setRport p { x with started := true }).raceTx p cls bytes o none
    else u.raceHold p cls bytes o
  else u.raceTx p cls bytes o none

/-- RUNNER_WINDOW_OPEN: the window of an epoch opens on a port (04 R149, R382). -/
def Unit.windowOpen (u : Unit) (p n : Nat) : Unit :=
  let x := u.rport p
  if x.state ≠ 2 then u else u.setRport p { x with window := some n, started := false }

/-- RUNNER_WINDOW_CLOSE: the last runner's tail has passed (04 R149, R382). -/
def Unit.windowClose (u : Unit) (p : Nat) : Unit :=
  let x := u.rport p
  if x.window.isNone then u
  else
    let u := u.setRport p { x with window := none, started := false, held := [] }
    (x.held.foldl (fun (u : Unit) w => u.raceTx p w.1 w.2.1 w.2.2 none) u).raceDrain p

/-- CREDIT_WORD: the receiver returns units of a class (R372). -/
def Unit.creditWord (u : Unit) (p cls n : Nat) : Unit :=
  let x := u.rport p
  if x.state ≠ 2 then u
  else
    let full := creditsFull.getD cls 0
    (u.setRport p { x with cred := x.cred.set cls (min full (x.cred.getD cls 0 + n)), credAt := u.clk }).raceDrain p

end Sys2Proof.Machine
end

