-- ==== Sys2Proof/Machine/PartsDie.lean ====
section
/-! DEFINITION. The state that only the die unit has. Plain data throughout. -/

namespace Sys2Proof.Machine

/-- A counter (03 R95, R96, R106): raw and prev, 48 bits; the cumulative value, 64 bits; the 2-bit wrap count. A mark
counter holds its mark in `raw`. -/
structure Counter where
  raw : Nat
  prev : Nat
  cum : Nat
  wrap : Nat
  deriving DecidableEq, Repr

/-- A sensor channel (03 R98-R102): latest result, its format, the oscillator count of the result, and that of a
conversion in course. -/
structure Sensor where
  value : Word
  fmt : Nat
  last : Option Nat
  conv : Option Nat
  deriving DecidableEq, Repr

/-- The header of an image (03 R113). -/
structure ImgHead where
  seq : Nat
  status : Nat
  tq : Nat
  epn : Nat
  time : Nat
  lateofs : Int
  per : Nat
  capedge : Nat
  stretch : Int
  span : Nat
  ovfcnt : Nat
  ovffirst : Nat
  ngen : Nat
  nfast : Nat
  patm : Nat
  insgen : Nat
  deriving DecidableEq, Repr

/-- A snapshot image (03 R111-R113). -/
structure Image where
  fast : Bool
  head : ImgHead
  /-- Production counters' cumulative values; empty in a fast image. -/
  prod : List Nat
  /-- Sensor entries, 64 bits each; empty in a fast image. -/
  sens : List Nat
  /-- Cumulative values: snapshot-set positions, or fast-set positions. -/
  vals : List Nat
  /-- Whether each of `vals` is a mark counter's. -/
  marks : List Bool
  /-- RECFMT items of the image's layout (16 R530). -/
  items : List Word
  /-- Instants of the kind up to this one (R113 SPAN). -/
  icnt : Nat
  deriving DecidableEq, Repr

/-- A slot or sub-slot of snapshot RAM that is not FREE (03, "Slot states and release"). -/
structure Slot where
  /-- 1 WRITING, 2 VALID, 3 BASE. -/
  state : Nat
  img : Image
  /-- Its record is built. -/
  built : Bool
  /-- Number of the layout that it is of: each change of layout makes a new one (R122). -/
  lay : Nat
  /-- It was latched for the Riddle to read (R115). -/
  read : Bool
  /-- In WRITING: bytes known to be present (R118). -/
  done : Nat
  deriving DecidableEq, Repr

/-- The values of one latch, for the record builder, the Riddle, the drift unit and the runners (03 R106, R107; 04
R134). -/
structure Latched where
  epn : Nat
  time : Nat
  /-- Deltas, or epoch marks, of the enabled general counters by index. -/
  gen : Tab Nat
  prod : List Nat
  /-- Deltas by fast-set position. -/
  fast : List Nat
  /-- Sensor entries. -/
  sens : List Nat
  /-- Phase times of the latest completed step, by phase; none absent (04 R162). -/
  phase : List (Option Nat)
  /-- CAP_SEL indices whose delta saturated (03 R106). -/
  ovf : List Nat
  /-- Fast set, and PLAN section, of the configuration that the latch belongs to (03 R121; 04 R134). -/
  fastSet : List Nat
  plans : List Byte
  clkstop : Bool
  deriving DecidableEq, Repr

/-- A sampling request (03 R123): counter, sample time and its TQ. -/
structure SampReq where
  ctr : Nat
  time : Nat
  tq : Nat
  deriving DecidableEq, Repr

/-- Taps, counters and snapshots (03). -/
structure Cap where
  gen : Tab Counter
  prod : Tab Counter
  /-- Event lines that were 1 at the previous edge. -/
  prev : List Nat
  sens : Tab Sensor
  /-- Channels with a result since the last capture edge: the oscillator count of it, and the channel before it (R100). -/
  fresh : Tab (Nat × Sensor)
  /-- Capture edges since the last main latch, and since the last latch (02 R77). -/
  edgeMain : Nat
  edgeFast : Nat
  /-- Epoch number and instant that CAP is armed for, main and fast (02 R75). -/
  armMain : Option (Nat × Nat)
  armFast : Option (Nat × Nat)
  /-- Oscillator count and period, in picoseconds, of the capture edges of the last microsecond (02 R89 TIM_CAPPER). -/
  edges : List (Nat × Nat)
  /-- Oscillator count and timebase reading of the last capture edge (02 R80), and the period that it ended (02 R78). -/
  edgeAt : Option (Nat × Nat)
  lastPer : Nat
  /-- Taps that CAP holds while the latch runs from the AON oscillator, with the oscillator count (02 R79). -/
  waitTaps : List (Nat × Taps)
  /-- Fence slots signalled at an instant whose snapshot is still to be latched, with the instant (02 R83). -/
  fences : List (Nat × Nat)
  /-- Clock chosen for the latch: true the AON oscillator (02 R79). -/
  aon : Option Bool
  /-- Loss of host clock is asserted (02 R79). -/
  loss : Bool
  latMain : Option Latched
  latFast : Option Latched
  /-- The latches before those, latest first, for runners that come after the next latch (04 R134). -/
  pastMain : List Latched
  pastFast : List Latched
  /-- RESUMED and REASSIGN for the next main, fast image (STATUS bits). -/
  flagMain : Nat
  flagFast : Nat
  /-- GAP for the next main, fast image. -/
  gapMain : Bool
  gapFast : Bool
  /-- Slots by 16 × slot + sub-slot. -/
  slots : Tab Slot
  /-- Number of the layout in force (R122). -/
  lay : Nat
  /-- Snapshot RAM: images whole in it, latest first, with their places; an earlier one shows where no later one lies. -/
  ram : List (Nat × Image)
  seq : Nat
  latestMain : Option Nat
  latestFast : Option Nat
  /-- Oscillator count at which each hold began. -/
  holds : Tab Nat
  /-- Sampling down-counters. -/
  psi : Tab Int
  /-- Sampling requests per core, the outstanding one first. -/
  psiQ : Tab (List SampReq)
  deriving DecidableEq, Repr

/-- Arrivals, releases and phase times of one step (04 R162): instants by phase, times in nanoseconds. -/
structure PhaseStep where
  arr : Tab Nat
  rel : Tab Nat
  pt : Tab Nat
  lastRel : Option Nat
  deriving DecidableEq, Repr

/-- Runners at a die unit (04). -/
structure DieRdx where
  /-- The 8 most recent steps, and their order, latest first. -/
  steps : Tab PhaseStep
  order : List Nat
  /-- Per plan: EPN of the last runner folded. -/
  last : Tab Nat
  deriving DecidableEq, Repr

/-- A tile signature as it arrived (07 R260, R265): engine, signature, the engine's key then, and its temperature. -/
structure WitSig where
  eng : Nat
  sig : Nat
  key : Nat
  temp : Nat
  deriving DecidableEq, Repr

/-- A pending exchange (07 R258). -/
structure WitPend where
  tile : Nat
  eng : Nat
  r : Nat
  targeted : Bool
  key : Nat
  /-- Oscillator count of the ANNOUNCE. -/
  since : Nat
  first : Option WitSig
  second : Option WitSig
  /-- Oscillator count of TW_XREQ. -/
  xreq : Option Nat
  deriving DecidableEq, Repr

/-- A condition entry that is not FREE (07 R266). -/
structure WitCond where
  key : Nat
  /-- 1 ALERT, 2 CONDITIONAL, 3 HELD, 4 PROPOSED. -/
  state : Nat
  /-- Witness milliseconds of the last three mismatches, oldest first. -/
  times : List Nat
  nmis : Nat
  judge : Nat
  vstep : Nat
  fstep : Nat
  deriving DecidableEq, Repr

/-- An outstanding margin request (07 R272). -/
structure MarginReq where
  v : Nat
  f : Nat
  since : Nat
  deriving DecidableEq, Repr

/-- A margin step that raised a requested level and is not in a request yet: entry's key, kind, count (07 R270). -/
structure WitStep where
  key : Nat
  volt : Bool
  count : Nat
  deriving DecidableEq, Repr

/-- The tile witness (07). -/
structure Wit where
  /-- The seed that governs (R257). -/
  seed : Option Nat
  pend : Tab WitPend
  cond : Tab WitCond
  /-- Second of the last sweep, or into which the timebase was stepped back since (R268). -/
  swept : Nat
  /-- Levels last acknowledged, and last requested. -/
  ackV : Nat
  ackF : Nat
  sentV : Nat
  sentF : Nat
  req : Option MarginReq
  exhV : Bool
  exhF : Bool
  /-- Steps that the next request carries, latest last; MG_ENG names the engine of the latest (R270). -/
  steps : List WitStep
  /-- The health unit's demand (08). -/
  healthV : Nat
  healthF : Nat
  deriving DecidableEq, Repr

/-- A fence slot that is not free (08 R298, R329). -/
structure FSlot where
  f : Fence
  /-- Trigger channel armed for it. -/
  chan : Option Nat
  /-- LATEVIS. -/
  late : Bool
  /-- Its instant has come, or it need not wait for one. -/
  due : Bool
  visible : Bool
  /-- Oscillator count of its placement (R328). -/
  at_ : Nat
  deriving DecidableEq, Repr

/-- The health unit (08). -/
structure Hlt where
  /-- Computed local verdict. -/
  lv : Nat
  /-- Per verdict: oscillator count since which the computed verdict has been that one or lower (R283). -/
  since : Tab Nat
  cause : Nat
  /-- Oscillator count of the last NOVOTE in its window (R280). -/
  nvAt : Option Nat
  /-- Hard flags, bit c − 8 for code c; LINKDEAD per link (R284, R321). -/
  hard : Nat
  dead : Nat
  /-- Host link status inputs as last sampled, and the oscillator count of each fall (R320). -/
  up : Nat
  down : Tab Nat
  /-- Verdict in force (R301). -/
  inforce : Nat
  /-- Score, verdict and hard flags last taken into a HEALTH record, and main epoch of the last one of the RECORD class
  (R285). -/
  told : Nat × Nat × Nat
  toldEpoch : Option Nat
  /-- Fence slots 0-15; the queue of 64; fences discarded and still to request (R298, R299). -/
  slots : Tab FSlot
  queue : List Fence
  want : List (Nat × Nat × Nat)
  /-- CSEQ values accepted, the last 64 (R318). -/
  window : List Nat
  deriving DecidableEq, Repr

/-- A stream as it goes toward a head (09 R345-R350): last SEQ that the head has journaled, index in the log of the
next entry to send, bytes of it already sent, a RESTART marker to send first, oscillator count of the last progress. -/
structure HeadStream where
  jseq : Option Seq
  next : Nat
  ofs : Nat
  restart : Bool
  since : Nat
  deriving DecidableEq, Repr

/-- A head as the die unit sees it (09 R346-R350): oscillator count of the last frame from it, whether it is reachable,
whether its latest ACK carried FULL, and the streams by class number. -/
structure Head where
  seen : Nat
  reach : Bool
  full : Bool
  streams : Tab HeadStream
  deriving DecidableEq, Repr

/-- The context that a core presents with an event (12 R416). -/
structure TraceCtx where
  gen : Nat
  thr : Nat
  priv : Nat
  privd : Bool
  deriving DecidableEq, Repr

/-- A run of conditional branches of one address and direction (12 R419). -/
structure TraceRun where
  addr : Nat
  taken : Bool
  count : Nat
  deriving DecidableEq, Repr

/-- A block of a trace stream (12 R423): stream offset of its first byte, whether its session is of class U, its bytes,
and the offset in it of its first SYNC. -/
structure TBlock where
  ofs : Nat
  classU : Bool
  data : List Byte
  sync : Option Nat
  deriving DecidableEq, Repr

/-- The packet stream of a core (12 R418-R426). -/
structure TStream where
  /-- Context of the last event presented. -/
  ctx : TraceCtx
  /-- Class U: outside the session's context. -/
  hidden : Bool
  /-- TR_LPST while in low power. -/
  low : Option Nat
  run : Option TraceRun
  /-- Reference address (R419). -/
  ref : Nat
  /-- Address of the next instruction, where the last event gives it: a target. -/
  next : Option Nat
  /-- Bytes since the last SYNC. -/
  sinceSync : Nat
  /-- Timebase reading of the last TIME or SYNC of the session. -/
  lastTime : Option Nat
  /-- Oscillator count of the last packet. -/
  idle : Nat
  /-- Partly filled block; full blocks in staging, oldest first. -/
  cur : TBlock
  full : List TBlock
  /-- Bytes lost since packets began to be dropped; none while they are not. -/
  lost : Option Nat
  stopped : Bool
  wrapped : Bool
  /-- Stream bytes since the session opened; write offset in the area. -/
  ofs : Nat
  wr : Nat
  /-- Blocks in the core's area, oldest first. -/
  area : List TBlock
  /-- Blocks of a TRACE record offered and not yet committed or refused (R426). -/
  offered : Option Nat
  deriving DecidableEq, Repr

/-- An open trace session (12 R430): class, GEN of class U, and whether it holds a token in force. -/
structure TSession where
  classU : Bool
  gen : Nat
  tok : Bool
  deriving DecidableEq, Repr

/-- The held authorisation token (12 R428, R429): its bytes, and 1 checking, 2 valid, 3 bad. -/
structure TToken where
  bytes : List Byte
  state : Nat
  deriving DecidableEq, Repr

/-- The trace unit (12). -/
structure Trace where
  session : Option TSession
  token : Option TToken
  /-- The drain channel is halted (R427). -/
  halted : Bool
  /-- Capture-clock instant (oscillator count) of the last HALT match, by watchpoint (R437). -/
  haltAt : Tab Nat
  streams : Tab TStream
  deriving DecidableEq, Repr

/-- An agent's wait-for word (12 R439): last sample, equal samples, word of the held edge. -/
structure WfAgent where
  last : Word
  n : Nat
  edge : Option Word
  deriving DecidableEq, Repr

/-- Wait-for words (12 R438-R441). -/
structure Wfg where
  agents : Tab WfAgent
  /-- Edge set last reported, and oscillator count of that report. -/
  told : List (Nat × Word)
  toldAt : Nat
  /-- Samples since the LADLE partition last reset, modulo 2^32. -/
  samples : Nat
  deriving DecidableEq, Repr

/-- Power states and start-up of the die unit (18). PWR_STAT [1:0] as it is stored says which islands are powered; the
state in force, which PM_ACK shows, is `inforce`. -/
structure Power where
  inforce : Nat
  /-- Target of the transition in course, and the request kept meanwhile (R574). -/
  target : Option Nat
  kept : Option Nat
  /-- Oscillator count since which the unit waits for its heads, on the way to HOSTOFF (R577). -/
  drain : Option Nat
  /-- Halves of PAIRUP held (R591). -/
  half0 : Option PairUp
  half1 : Option PairUp
  /-- A main epoch has come after step 5 of R588 with a pattern in force. -/
  served : Bool
  deriving DecidableEq, Repr

/-- The die unit. Mark: DESIGN CHOICE (log entry 1, safe). -/
structure Die where
  /-- VKZ_AON is in range (18 R586, R588). -/
  powered : Bool
  u : Unit
  cap : Cap
  rdx : DieRdx
  wit : Wit
  hlt : Hlt
  headA : Head
  headB : Head
  trc : Trace
  wfg : Wfg
  pw : Power
  /-- The handshake with an aggregator is complete (18 R588, R591). -/
  paired : Bool
  deriving DecidableEq, Repr

end Sys2Proof.Machine
end

