-- ==== Sys2Proof/Machine/Capture.lean ====
section
/-! DEFINITION. Taps, counters and coherent snapshots of the die unit (03_capture): counting at a capture edge, the
sensor channels, the arithmetic of a latch, snapshot slots and their records, holds, and performance sampling. -/

namespace Sys2Proof.Machine

/-- Apply a function to the common part of a die unit. -/
def Die.onU (d : Die) (f : Unit → Unit) : Die := { d with u := f d.u }

/-! ### Counting -/

/-- A counter at 0; an LWM counter starts at 0xFFFF_FFFF (03 R95, R107), also one that is newly configured, where R121 sets
raw to 0, and one that the CAP island finds at its exit from SLEEP or HOSTOFF, where R120 does.
Mark: DESIGN CHOICE (log entry 62, unsafe). -/
def ctr0 (lwm : Bool) : Counter := ⟨if lwm then 0xFFFFFFFF else 0, 0, 0, 0⟩

/-- State of the general counter of an entry. -/
def Cap.ctr (c : Cap) (e : CntEnt) : Counter := Tab.getD c.gen e.idx (ctr0 (e.mode == 6))

/-- State of a production counter. -/
def Cap.pctr (c : Cap) (j : Nat) : Counter := Tab.getD c.prod j (ctr0 false)

/-- An event line is 1 at this edge. -/
def lineOn (t : Taps) (k : Nat) : Bool := t.lines.any fun l => l.toNat == k

/-- The value of a value bus whose strobe is 1. -/
def busOn (t : Taps) (k : Nat) : Option Nat := (t.buses.find? fun b => b.1.toNat == k).map fun b => b.2.toNat

/-- OP of a COMBO counter over the lines in use (03 R95, R127). -/
def comboOp (op : Nat) (l : List Bool) : Bool :=
  if op = 0 then l.any id else if op = 1 then l.all id else decide ((l.filter id).length % 2 = 1)

/-- The change of a summing counter at an edge (03 R95, modes 0-4). -/
def CntEnt.amount (e : CntEnt) (prev : List Nat) (t : Taps) : Nat :=
  let l0 := lineOn t (e.line 0)
  let m := e.mode
  if m = 0 then b2n l0
  else if m = 1 then b2n (l0 && !prev.contains (e.line 0))
  else if m = 2 then
    b2n (comboOp (fieldOf e.cfg 27 26) ((List.range (2 + fieldOf e.cfg 25 24)).map fun k => lineOn t (e.line k)))
  else if m = 3 then b2n (l0 && lineOn t (e.line 1))
  else if m = 4 then
    match busOn t (e.line 0 % 256) with
    | some v => if bitAt e.cfg 23 && !lineOn t (e.line 1) then 0 else v
    | none => 0
  else 0

/-- Add to a summing counter (03 R95, R106): raw wraps modulo 2^48, and wraps are counted in 2 bits. -/
def Counter.add (c : Counter) (n : Nat) : Counter :=
  let s := c.raw + n
  { c with raw := s % 2 ^ 48, wrap := min 3 (c.wrap + s / 2 ^ 48) }

/-- A general counter at an edge (03 R95). -/
def CntEnt.step (e : CntEnt) (prev : List Nat) (t : Taps) (c : Counter) : Counter :=
  if e.mode = 5 then (match busOn t (e.line 0 % 256) with | some v => { c with raw := max c.raw v } | none => c)
  else if e.mode = 6 then (match busOn t (e.line 0 % 256) with | some v => { c with raw := min c.raw v } | none => c)
  else c.add (e.amount prev t)

/-- How much a counter rises at an edge, for performance sampling (03 R123). -/
def CntEnt.rise (e : CntEnt) (prev : List Nat) (t : Taps) (c : Counter) : Nat :=
  if e.isMark then (e.step prev t c).raw - c.raw else e.amount prev t

/-- One general counter counts; a sampling counter's down-counter falls by the same (03 R95, R123). -/
def Cap.edgeOne (t : Taps) (prev : List Nat) (c : Cap) (e : CntEnt) : Cap :=
  let k := c.ctr e
  let c' := { c with gen := Tab.put e.idx (e.step prev t k) c.gen }
  match Tab.find e.idx c.psi with
  | some n => { c' with psi := Tab.put e.idx (n - (e.rise prev t k : Nat)) c'.psi }
  | none => c'

/-- A production counter adds its input (03 R96); 28-31 are the die unit's own (03 R97). -/
def Cap.addProd (c : Cap) (j n : Nat) : Cap := { c with prod := Tab.put j ((c.pctr j).add n) c.prod }

/-- The counters take the taps of one capture edge (03 R93-R96). Mark: DEDUCED (log entry 53, unsafe). -/
def Die.countEdge (d : Die) (t : Taps) : Die :=
  let c := (cntOn (d.u.sec 2)).foldl (Cap.edgeOne t d.cap.prev) d.cap
  let c := t.prod.foldl
    (fun (c : Cap) (p : Fin 64 × BitVec 16) =>
      if 28 ≤ p.1.val ∧ p.1.val < 32 then c else c.addProd p.1.val p.2.toNat) c
  { d with cap := { c with prev := t.lines.map BitVec.toNat
                           edgeMain := d.cap.edgeMain + 1, edgeFast := d.cap.edgeFast + 1 } }

/-- The capture edges of the last microsecond, 250 ticks (02 R89). -/
def Die.recentEdges (d : Die) : List (Nat × Nat) := d.cap.edges.filter fun e => decide (d.u.since e.1 ≤ usT 1)

/-- What the clock itself tells at a capture edge: its time and period, and that it runs (02 R78-R80, R89). -/
def Die.clockEdge (d : Die) (t : Taps) : Die :=
  { d with cap := { d.cap with
      edges := d.recentEdges ++ [(d.u.clk, t.period.toNat)], edgeAt := some (d.u.clk, d.u.tb.now)
      lastPer := t.period.toNat, loss := false, fresh := [] } }

/-- Taps held for a latch on the AON oscillator that are older than the AON cycle before the present one are counted; those
of that cycle and of the present one still wait (02 R79). -/
def Die.countWaiting (d : Die) : Die :=
  let due := fun (p : Nat × Taps) => decide (p.1 + 1 < d.u.clk)
  let e := ((d.cap.waitTaps.filter due).map Prod.snd).foldl Die.countEdge d
  { e with cap := { e.cap with waitTaps := d.cap.waitTaps.filter fun p => !due p } }

/-- Every tap held is counted: after the latch (02 R79). -/
def Die.countHeld (d : Die) : Die :=
  (d.cap.waitTaps.map Prod.snd).foldl Die.countEdge { d with cap := { d.cap with waitTaps := [] } }

/-- CAPTURE_EDGE: every tap is sampled (03 R93-R96), and held first while the latch runs from the AON oscillator (02 R79). -/
def Die.captureEdge (d : Die) (t : Taps) : Die :=
  if !d.u.capRuns then d
  else
    let d := d.clockEdge t
    if d.cap.aon = some true then
      let d := d.countWaiting
      { d with cap := { d.cap with waitTaps := d.cap.waitTaps ++ [(d.u.clk, t)] } }
    else d.countEdge t

/-! ### Sensor channels -/

/-- A sensor channel with no result (03 R102): its format is the configured one. -/
def Die.sensor (d : Die) (ch : Nat) : Sensor :=
  Tab.getD d.cap.sens ch ⟨0, fieldOf (tapSensor (d.u.sec 1) ch) 11 8, none, none⟩

/-- Age of a result in microseconds, saturating (03 R102). -/
def Die.sensAge (d : Die) (s : Sensor) : Nat :=
  match s.last with
  | some c => min 65535 (d.u.since c / 250)
  | none => 0

/-- A sensor channel as a latch sees it: a result with no capture edge and no AON edge between it and the latch comes at the
latch edge, and is not in that snapshot (03 R100). Mark: DEDUCED (log entry 53, unsafe). -/
def Die.latchSensor (d : Die) (ch : Nat) : Sensor :=
  match Tab.find ch d.cap.fresh with
  | some (c, s) => if c = d.u.clk then s else d.sensor ch
  | none => d.sensor ch

/-- Sensor entry of a channel at a latch (03 R112). -/
def Die.sensEntry (d : Die) (ch : Nat) : Nat :=
  let s := d.latchSensor ch
  s.value.toNat + d.sensAge s * 2 ^ 32 + s.fmt * 2 ^ 48 + b2n s.last.isSome * 2 ^ 52

/-- A result of a channel arrives (03 R99, R101); what stood before it is kept for a latch at the same edge (03 R100). -/
def Die.sensResult (d : Die) (ch : Nat) (s : Sensor) : Die :=
  let before := match Tab.find ch d.cap.fresh with
    | some p => if p.1 = d.u.clk then p.2 else d.sensor ch
    | none => d.sensor ch
  { d with cap := { d.cap with sens := Tab.put ch s d.cap.sens, fresh := Tab.put ch (d.u.clk, before) d.cap.fresh } }

/-- Start the conversions of a group (03 R99): a channel still converting drops the start.
Mark: DEDUCED (log entry 53, unsafe). -/
def Die.convert (d : Die) (group : Nat) : Die :=
  if !d.u.capRuns then d
  else
    (List.range 224).foldl
      (fun (d : Die) ch =>
        let e := tapSensor (d.u.sec 1) ch
        if bitAt e 0 && fieldOf e 23 16 == group then
          let s := d.sensor ch
          if s.conv.isSome then d.onU fun u => (u.count Reg.capConvbusy).err Reg.capErr 3
          else { d with cap := { d.cap with sens := Tab.put ch { s with conv := some d.u.clk } d.cap.sens } }
        else d) d

/-- CONVERSION_COMPLETE: the result replaces the channel's value (03 R99). -/
def Die.conversionDone (d : Die) (ch : Nat) (v : Word) : Die :=
  let s := d.sensor ch
  if d.u.capRuns && s.conv.isSome then
    let f := fieldOf (tapSensor (d.u.sec 1) ch) 11 8
    d.sensResult ch ⟨v, f, some d.u.clk, none⟩
  else d

/-- SENSOR_WRITE: the host sensor port (03 R101); format code 0 BF16, 1 FP32. -/
def Die.sensorWrite (d : Die) (ch fmt : Nat) (v : Word) : Die :=
  if !d.u.capRuns then d
  else if ch < 224 ∨ fmt > 1 ∨ (fmt = 0 ∧ fieldOf v 31 16 ≠ 0) then
    d.onU fun u => (u.count Reg.capSenserr).err Reg.capErr 4
  else d.sensResult ch ⟨v, 3 + fmt, some d.u.clk, none⟩

/-! ### The latch -/

/-- A summing counter at a latch that covers it (03 R106): the counter, its delta, OVF. -/
def Counter.take (c : Counter) : Counter × Nat × Bool :=
  let w2 := decide (c.wrap ≥ 2) || (decide (c.wrap = 1) && decide (c.raw ≥ c.prev))
  let delta := if w2 then 2 ^ 48 - 1 else (c.raw + 2 ^ 48 - c.prev) % 2 ^ 48
  ({ raw := c.raw, prev := c.raw, cum := (c.cum + delta) % 2 ^ 64, wrap := 0 }, delta, w2)

/-- A mark counter at a latch (03 R107): its mark, and the restart. -/
def Counter.takeMark (c : Counter) (lwm : Bool) : Counter × Nat × Bool :=
  ({ raw := if lwm then 0xFFFFFFFF else 0, prev := 0, cum := c.raw, wrap := 0 }, c.raw, false)

/-- A general counter at a latch that covers it. -/
def CntEnt.take (e : CntEnt) (c : Counter) : Counter × Nat × Bool :=
  if e.isMark then c.takeMark (e.mode == 6) else c.take

/-- What a latch collects from the counters: states, deltas by CAP_SEL index, saturations in ascending index. -/
structure Taken where
  gen : Tab Counter
  prod : Tab Counter
  delta : Tab Nat
  ovf : List Nat

/-- The latch of the general counters that `cov` covers (03 R106-R109). -/
def takeGens (cov : Nat → Bool) (c : Cap) (a : Taken) (e : CntEnt) : Taken :=
  if cov e.idx then
    let r := e.take (c.ctr e)
    { a with gen := Tab.put e.idx r.1 a.gen, delta := Tab.put e.idx r.2.1 a.delta
             ovf := if r.2.2 then a.ovf ++ [e.idx] else a.ovf }
  else a

/-- The latch of the production counters that `cov` covers. -/
def takeProds (cov : Nat → Bool) (c : Cap) (a : Taken) (j : Nat) : Taken :=
  if cov (2048 + j) then
    let r := (c.pctr j).take
    { a with prod := Tab.put j r.1 a.prod, delta := Tab.put (2048 + j) r.2.1 a.delta
             ovf := if r.2.2 then a.ovf ++ [2048 + j] else a.ovf }
  else a

/-- Every counter that a latch covers: all of them at a main latch, the fast set at a fast one (03 R109). -/
def Die.takeAll (d : Die) (isMain : Bool) : Taken :=
  let cnt := d.u.sec 2
  let fs := cntFastSet cnt
  let cov := fun i => isMain || fs.contains i
  let a := (cntOn cnt).foldl (takeGens cov d.cap) ⟨d.cap.gen, d.cap.prod, [], []⟩
  (List.range 64).foldl (takeProds cov d.cap) a

/-- Saturations (03 R108): the status bits, the count. -/
def Unit.noteOvf (u : Unit) (l : List Nat) : Unit :=
  if l.isEmpty then u
  else l.foldl (fun (u : Unit) i => u.wrBit Reg.capAtStat 0 true i) ((u.countBy Reg.capOvfcnt l.length).err Reg.capErr 0)

/-! ### Snapshot RAM -/

/-- Main slots in force (03 R110). -/
def Die.mainSlots (d : Die) : Nat := if d.u.bit Reg.timCtrl 1 then cntMainSlots (d.u.sec 2) else 16

/-- A slot is held (03 R117). -/
def Die.held (d : Die) (s : Nat) : Bool := d.u.bit Reg.snpHold s

/-- Places that the writer may take, lowest first (03 R110, R116). -/
def Die.freePlaces (d : Die) (fast : Bool) : List Nat :=
  let n := d.mainSlots
  let used := fun k => d.cap.slots.any fun p => p.1 == k
  let slotUsed := fun s => d.cap.slots.any fun p => p.1 / 16 == s
  let mainIn := fun s => d.cap.slots.any fun p => p.1 / 16 == s && !p.2.img.fast
  if fast then
    (((List.range 16).filter fun s => decide (n ≤ s) && !d.held s && !mainIn s).map fun s =>
      ((List.range 16).map fun k => s * 16 + k).filter fun k => !used k).flatten
  else ((List.range n).filter fun s => !d.held s && !slotUsed s).map fun s => s * 16

/-- The image whose record the next one's differences start from: the latest of its kind still in its layout (03
R113, R114, R122). Mark: DEDUCED (log entry 53, unsafe). -/
def Cap.baseOf (c : Cap) (fast : Bool) : Option Image :=
  (c.slots.foldl
    (fun (b : Option Image) (p : Nat × Slot) =>
      if p.2.img.fast == fast && p.2.lay == c.lay && (p.2.state == 3 || !p.2.built) then
        match b with
        | some i => if i.icnt < p.2.img.icnt then some p.2.img else b
        | none => some p.2.img
      else b) none)

/-- First 4 bytes of M, and INSGEN (03 R113, 16 R523). -/
def Unit.patm (u : Unit) : Nat := match u.pat.meas with | some m => m.toNat % 2 ^ 32 | none => 0

/-- What a latch carries besides the counters. -/
structure LatchInfo where
  fired : Fired
  tq : Nat
  clkstop : Bool
  late : Bool
  ofs : Int
  capMain : Nat
  capFast : Nat
  patm : Nat
  insgen : Nat

/-- The header of an image (03 R113). -/
def Die.imgHead (d : Die) (fast : Bool) (i : LatchInfo) (ovf : List Nat) (base : Option Image) (icnt seq : Nat) :
    ImgHead :=
  let per := if fast then i.fired.epfu else i.fired.epu
  let edges := if fast then i.capFast else i.capMain
  let span := match base with | some b => clampI 1 (2 ^ 32 - 1) ((icnt : Int) - b.icnt) | none => 1
  let flags := if fast then d.cap.flagFast else d.cap.flagMain
  let gap := (if fast then d.cap.gapFast else d.cap.gapMain)
    || (base.isSome && decide (span > 1) && !flags.testBit 3) || (!fast && i.fired.resumed)
  let cnt := d.u.sec 2
  { seq := seq
    status := ((b2n i.clkstop + 2 * b2n i.late + 4 * b2n i.fired.step + 32 * b2n gap
      + 64 * b2n (!ovf.isEmpty)) ||| (flags &&& 0x18))
    tq := i.tq
    epn := (if fast then i.fired.fast else i.fired.main).getD 0
    time := i.fired.time
    lateofs := if i.late then i.ofs else 0
    per := per, capedge := min edges (2 ^ 32 - 1)
    stretch := clampS 32 ((per * 10 * d.u.fld Reg.timCapnom 31 0 : Nat) - (edges : Int))
    span := span.toNat
    ovfcnt := min ovf.length 0xFFFF, ovffirst := ovf.headD 0xFFFF
    ngen := if fast then 0 else (cntSnapSet cnt).length
    nfast := (cntFastSet cnt).length
    patm := i.patm, insgen := i.insgen }

/-- Cumulative value of a CAP_SEL index. Mark: DEDUCED (log entry 53, unsafe). -/
def Cap.cumOf (c : Cap) (i : Nat) : Nat :=
  if i < 2048 then (match Tab.find i c.gen with | some x => x.cum | none => 0) else (c.pctr (i - 2048)).cum

/-- The image of a latch (03 R111-R113). -/
def Die.image (d : Die) (fast : Bool) (h : ImgHead) (sens : List Nat) (icnt : Nat) : Image :=
  let cnt := d.u.sec 2
  let set := if fast then cntFastSet cnt else cntSnapSet cnt
  let marks := (cntOn cnt).filter CntEnt.isMark
  { fast := fast, head := h
    prod := if fast then [] else (List.range 64).map fun j => (d.cap.pctr j).cum
    sens := if fast then [] else sens
    vals := set.map d.cap.cumOf
    marks := set.map fun i => marks.any fun e => e.idx == i
    items := recfmtItems (d.u.sec 10) fast
    icnt := icnt }

/-- The snapshot writer takes the lowest FREE place for an image, or skips it (03 R116). The boolean answers that it
was skipped. -/
def Die.writeImage (d : Die) (fast : Bool) (i : LatchInfo) (ovf : List Nat) (sens : List Nat) : Die × Bool :=
  let icnt := if fast then i.fired.fcnt else i.fired.mcnt
  match (d.freePlaces fast).head? with
  | none =>
    let d := d.onU fun u => (u.count Reg.snpSkipcnt).err Reg.snpErr 0
    (if fast then { d with cap := { d.cap with gapFast := true } }
     else { d with cap := { d.cap with gapMain := true } }, true)
  | some k =>
    let seq := (d.cap.seq + 1) % 2 ^ 32
    let h := d.imgHead fast i ovf (d.cap.baseOf fast) icnt seq
    let s : Slot := ⟨1, d.image fast h sens icnt, false, d.cap.lay, d.u.scores, 0⟩
    let c := { d.cap with slots := Tab.put k s d.cap.slots, seq := seq }
    ({ d with cap := if fast then { c with flagFast := 0, gapFast := false }
                     else { c with flagMain := 0, gapMain := false } }, false)

/-- The slot of a kind that `p` picks, the earliest instant first. -/
def Cap.pick (c : Cap) (fast : Bool) (p : Slot → Bool) : Option (Nat × Slot) :=
  c.slots.foldl
    (fun (b : Option (Nat × Slot)) (x : Nat × Slot) =>
      if x.2.img.fast == fast && p x.2 then
        match b with
        | some y => if x.2.img.icnt < y.2.img.icnt then some x else b
        | none => some x
      else b) none

/-- The fast image of the same latch is still being written: it comes first (03 R119). -/
def Cap.fastFirst (c : Cap) (s : Slot) : Bool :=
  c.slots.any fun p => p.2.state == 1 && p.2.img.fast && p.2.img.head.time == s.img.head.time

/-- Snapshot RAM with an image whole in its place (03 R110, R111): what it covers shows no more. -/
def Cap.ramPut (c : Cap) (k : Nat) (i : Image) : List (Nat × Image) :=
  (k, i) :: c.ram.filter fun p => !(if i.fast then p.2.fast && p.1 == k else p.1 / 16 == k / 16)

/-- IMAGE_COMPLETE: the writer completes an image (03 R119). -/
def Die.imageComplete (d : Die) (fast : Bool) : Die :=
  match d.cap.pick fast fun s => s.state == 1 with
  | none => d
  | some (k, s) =>
    if !fast && d.cap.fastFirst s then d
    else
    let c := { d.cap with slots := Tab.put k { s with state := 2 } d.cap.slots, ram := d.cap.ramPut k s.img }
    let c := if fast then { c with latestFast := some k } else { c with latestMain := some k }
    { d with cap := c }.onU fun u => u.wrN Reg.snpWrcnt s.img.head.seq

/-- Header bytes of an image (03 R113). -/
def headBytes (fast : Bool) (h : ImgHead) : List Byte :=
  leBytes 4 h.seq ++ leBytes 1 (b2n fast) ++ leBytes 1 h.status ++ leBytes 1 h.tq ++ zeros 1 ++ leBytes 8 h.epn
    ++ leBytes 10 h.time ++ leBytes 2 (wrapN 16 h.lateofs) ++ leBytes 4 h.per ++ leBytes 4 h.capedge
    ++ leBytes 4 (wrapN 32 h.stretch) ++ leBytes 4 h.span ++ leBytes 2 h.ovfcnt ++ leBytes 2 h.ovffirst
    ++ leBytes 2 h.ngen ++ leBytes 2 h.nfast ++ leBytes 4 h.patm ++ leBytes 4 h.insgen
    ++ zeros (if fast then 4 else 196)

/-- All bytes of an image in its place (03 R111, R113). -/
def imageBytes (i : Image) : List Byte :=
  let w8 := fun (l : List Nat) => (l.map (leBytes 8)).flatten
  if i.fast then headBytes true i.head ++ w8 i.vals ++ zeros (960 - 8 * i.vals.length)
  else headBytes false i.head ++ w8 i.prod ++ w8 i.sens ++ w8 i.vals ++ zeros (13568 - 8 * i.vals.length)

/-- The difference a record carries for a value (03 R114): the mark itself for a mark counter. -/
def diff64 (cum base : Nat) (mark : Bool) : Nat := if mark then cum else (cum + 2 ^ 64 - base) % 2 ^ 64

/-- The bytes of one RECFMT item (16 R530). -/
def itemBytes (i : Image) (base : Option Image) (it : Word) : List Byte :=
  let first := fieldOf it 11 0
  let n := fieldOf it 23 12
  let kind := fieldOf it 27 24
  let of := fun (l : List Nat) (p : Nat) => l.getD p 0
  if kind = 0 then slice (headBytes i.fast i.head) first n
  else if kind = 1 then
    ((List.range n).map fun k =>
      leBytes 8 (diff64 (of i.prod (first + k)) (match base with | some b => of b.prod (first + k) | none => 0) false)).flatten
  else if kind = 2 then ((slice' i.sens first n).map (leBytes 8)).flatten
  else
    ((List.range n).map fun k =>
      leBytes 8 (diff64 (of i.vals (first + k)) (match base with | some b => of b.vals (first + k) | none => 0)
        (i.marks.getD (first + k) false))).flatten
where
  /-- Elements `o` to `o + n - 1`. -/
  slice' (l : List Nat) (o n : Nat) : List Nat := (l.drop o).take n

/-- RECORD_BUILD: the next image of a kind becomes a record and enters BASE (03 R114, R122); none while the record DMA is
halted (15 R509). -/
def Die.recordBuild (d : Die) (fast : Bool) : Die :=
  match d.cap.pick fast fun s => s.state == 2 && !s.built && !d.u.bit Reg.rasDmastat 0 with
  | none => d
  | some (k, s) =>
    let base := (d.cap.pick fast fun x => x.state == 3 && x.lay == s.lay).map fun p => p.2.img
    let pl := (s.img.items.map (itemBytes s.img base)).flatten
    let slots := d.cap.slots.map fun (p : Nat × Slot) =>
      if p.1 = k then (k, { s with state := 3, built := true })
      else if p.2.img.fast == fast && p.2.state == 3 then (p.1, { p.2 with state := 2 })
      else p
    { d with cap := { d.cap with slots := slots } }.onU fun u =>
      u.submit ⟨if fast then 2 else 1, 2 * b2n (s.img.head.status.testBit 0), .record, s.img.head.time, s.img.head.tq,
        pl, none⟩

/-- The Riddle reads an image until the features of its latch are ready (03 R114, R115; 05 R179).
Mark: DEDUCED (log entry 53, unsafe). -/
def Die.reading (d : Die) (s : Slot) : Bool :=
  s.read && d.u.scoRuns && d.u.sco.vecs.any fun v =>
    !v.ready && (v.isMain || v.isFast) && v.head.time == s.img.head.time

/-- SLOT_RELEASE: an image whose record is built, and that nothing keeps, becomes FREE (03 R114, R115, R117). -/
def Die.slotRelease (d : Die) (k : Nat) : Die :=
  match Tab.find k d.cap.slots with
  | some s =>
    if s.built && decide (s.state = 2) && !d.held (k / 16) && !d.reading s then
      { d with cap := { d.cap with slots := Tab.del k d.cap.slots } }
    else d
  | none => d

/-- A write of SNP_HOLD (03 R117). -/
def Die.holdWrite (d : Die) (mask : Nat) : Die :=
  let m := mask % 65536
  if popCount m 16 > 4 then d.onU fun u => (u.err Reg.snpErr 2).count Reg.glbAccerr
  else
    let holds := (List.range 16).foldl
      (fun (t : Tab Nat) s =>
        if !m.testBit s then Tab.del s t else if d.held s then t else Tab.put s d.u.clk t) d.cap.holds
    { d with cap := { d.cap with holds := holds } }.onU fun u => u.wrN Reg.snpHold m

/-- HOLD_TIMEOUT: a hold has lasted SNP_HOLDTO ms (03 R117). -/
def Die.holdTimeout (d : Die) (s : Nat) : Die :=
  match Tab.find s d.cap.holds with
  | some c =>
    if d.held s && decide (d.u.since c ≥ msT (d.u.fld Reg.snpHoldto 15 0)) then
      { d with cap := { d.cap with holds := Tab.del s d.cap.holds } }.onU fun u =>
        (u.wrBit Reg.snpHold s false).err Reg.snpErr 1
    else d
  | none => d

/-! ### Change of configuration, power -/

/-- A counter whose configuration changes restarts at 0 (03 R121). Mark: DEDUCED (log entry 26, unsafe). -/
def Die.resetCtr (d : Die) (i : Nat) : Die :=
  { d with cap := { d.cap with gen := Tab.del i d.cap.gen } }.onU fun u => u.wrBit Reg.capAtStat 1 true i

/-- Indices of the counters whose configuration two CNT sections give differently (03 R121).
Mark: DEDUCED (log entry 26, unsafe). -/
def cntChanged (old new : List Byte) : List Nat :=
  let a := cntEnts old
  let b := cntEnts new
  let key := fun (l : List CntEnt) (i : Nat) =>
    (match l[i]? with | some e => (e.cfg, e.src0, e.src1) | none => (0, 0, 0) : Word × Word × Word)
  (List.range (max a.length b.length)).filter fun i => decide (key a i ≠ key b i)

/-- The replacement of CNT takes effect directly after the latch at its edge (03 R121, R122). The images of the old layout,
the one of that latch among them, go on as they would: their records are built on their own base. -/
def Die.cntEffect (d : Die) (old new : List Byte) : Die :=
  let ch := cntChanged old new
  let d := ch.foldl Die.resetCtr d
  let f := if ch.isEmpty then 0 else 16
  let relay := decide (cntSnapSet old ≠ cntSnapSet new) || decide (cntFastSet old ≠ cntFastSet new)
    || decide (cntMainSlots old ≠ cntMainSlots new)
  { d with cap := { d.cap with lay := if relay then d.cap.lay + 1 else d.cap.lay, flagMain := d.cap.flagMain ||| f, flagFast := d.cap.flagFast ||| f } }

/-- The CAP island powers up again (03 R102, R120): an LWM counter starts as in any epoch, and sampling down-counters,
queued sampling requests and the counts of capture edges stand as they stood.
Mark: DESIGN CHOICE (log entry 62, unsafe). -/
def Die.capResume (d : Die) : Die :=
  let z := fun (t : Tab Counter) (lwm : Nat → Bool) =>
    t.map fun (p : Nat × Counter) =>
      (p.1, { p.2 with raw := (ctr0 (lwm p.1)).raw, prev := 0, wrap := 0 })
  let lw := (cntOn (d.u.sec 2)).filter fun e => e.mode == 6
  { d with cap := { d.cap with
      gen := z d.cap.gen fun i => lw.any fun e => e.idx == i
      prod := z d.cap.prod fun _ => false
      prev := [], sens := [], fresh := [], waitTaps := [], flagMain := d.cap.flagMain ||| 8, flagFast := d.cap.flagFast ||| 8 } }

/-! ### Performance sampling -/

/-- Counters with sampling enabled. -/
def Cap.sampling (c : Cap) : Nat := c.psi.length

/-- A write of CAP[sel].PSICFG (03 R125, R126). -/
def Die.psiCfg (d : Die) (i : Nat) (v : Word) : Die :=
  if i ≥ 2048 then d
  else if !bitAt v 0 then
    { d with cap := { d.cap with psi := Tab.del i d.cap.psi } }.onU fun u => u.wrN Reg.capAtPsicfg (v.toNat % 64) i
  else if (Tab.find i d.cap.psi).isNone && decide (d.cap.sampling ≥ 64) then d.onU fun u => u.err Reg.capErr 2
  else
    let psi := match Tab.find i d.cap.psi with
      | some _ => d.cap.psi
      | none => Tab.put i (d.u.rdN Reg.capAtPsiper i : Int) d.cap.psi
    { d with cap := { d.cap with psi := psi } }.onU fun u => u.wrN Reg.capAtPsicfg (v.toNat % 64) i

/-- A write of CAP[sel].PSIPER: the down-counter is loaded from it (03 R123). -/
def Die.psiPer (d : Die) (i : Nat) (v : Word) : Die :=
  if i ≥ 2048 then d
  else
    let psi := match Tab.find i d.cap.psi with
      | some _ => Tab.put i (v.toNat : Int) d.cap.psi
      | none => d.cap.psi
    { d with cap := { d.cap with psi := psi } }.onU fun u => u.wr Reg.capAtPsiper v i

/-- Queue of a core. -/
def Cap.coreQ (c : Cap) (core : Nat) : List SampReq := Tab.getD c.psiQ core []

/-- PSI_CROSSING: a down-counter reached 0 (03 R123, R125). -/
def Die.psiCrossing (d : Die) (i : Nat) : Die :=
  let per := d.u.rdN Reg.capAtPsiper i
  match Tab.find i d.cap.psi with
  | some n =>
    if n ≤ 0 ∧ per ≠ 0 then
      let d := { d with cap := { d.cap with psi := Tab.put i (n + (per : Int)) d.cap.psi } }
      let core := d.u.fld Reg.capAtPsicfg 5 1 i
      let q := d.cap.coreQ core
      if (d.cap.psiQ.any fun c => c.2.any fun r => r.ctr == i) || decide (q.length ≥ 8) then
        d.onU fun u => (u.count Reg.capSamplost).err Reg.capErr 5
      else
        let d := { d with cap := { d.cap with psiQ := Tab.put core (q ++ [⟨i, d.u.tb.now, d.u.tb.tq⟩]) d.cap.psiQ } }
        if q.isEmpty then d.onU fun u => u.emit (.pin (.psiReq core) 1) else d
    else d
  | none => d

/-- PSI_ACK: the core took the interrupt; the sample record is committed (03 R124, 09 R338). -/
def Die.psiAck (d : Die) (core skid addr : Nat) : Die :=
  match d.cap.coreQ core with
  | [] => d
  | r :: q =>
    let d := { d with cap := { d.cap with psiQ := Tab.set [] core q d.cap.psiQ } }
    let pl := leBytes 2 r.ctr ++ leBytes 1 core ++ zeros 1 ++ leBytes 4 skid ++ leBytes 8 addr
    d.onU fun u =>
      let u := if skid > 32 then u.err Reg.capErr 1 else u
      let u := if q.isEmpty then u.emit (.pin (.psiReq core) 0) else u
      u.submit ⟨0x03, 16 * b2n (decide (skid > 0)), .record, r.time, r.tq, pl, none⟩

/-! ### Registers -/

/-- Raw value, or sensor value with AGE, FMT and VALID, of a CAP_SEL index (03 R103, R126): LIVEL and LIVEH. -/
def Die.live (d : Die) (i : Nat) : Nat × Nat :=
  if i < 2048 then
    match (cntOn (d.u.sec 2)).find? fun e => e.idx == i with
    | some e => ((d.cap.ctr e).raw % 2 ^ 32, (d.cap.ctr e).raw / 2 ^ 32)
    | none => (0, 0)
  else if i < 2112 then ((d.cap.pctr (i - 2048)).raw % 2 ^ 32, (d.cap.pctr (i - 2048)).raw / 2 ^ 32)
  else
    let s := d.sensor (i - 2112)
    (s.value.toNat, d.sensAge s + s.fmt * 65536 + b2n s.last.isSome * 2 ^ 20)

/-- CAP[sel].CFG (03 R127, R128). -/
def Die.capCfg (d : Die) (i : Nat) : Nat :=
  if i < 2048 then (match (cntEnts (d.u.sec 2))[i]? with | some e => e.cfg.toNat / 2 ^ 23 * 2 ^ 23 | none => 0)
  else if i < 2112 then 2 ^ 31 + 4 * 2 ^ 28
  else
    let e := tapSensor (d.u.sec 1) (i - 2112)
    b2n (bitAt e 0) * 2 ^ 31 + fieldOf e 11 8 * 256 + (if i < 2336 then fieldOf e 23 16 else 0)

/-- CAP registers that the counters and sections hold (03 R126). -/
def Die.capView (d : Die) (ofs i : Nat) : Option Word :=
  let w := fun (n : Nat) => some (BitVec.ofNat 32 n)
  let cnt := d.u.sec 2
  if ofs = Reg.capStat then
    w (b2n (decide (d.u.power < 2)) + 2 * b2n (!(d.u.sec 1).isEmpty && !cnt.isEmpty) + 4 * (cntSnapSet cnt).length
      + 8192 * (cntFastSet cnt).length + 2 ^ 20 * d.cap.sampling)
  else if ofs = Reg.capAtCfg then w (d.capCfg i)
  else if ofs = Reg.capAtSrc0 then w (match (cntEnts cnt)[i]? with | some e => e.src0.toNat | none => 0)
  else if ofs = Reg.capAtSrc1 then w (match (cntEnts cnt)[i]? with | some e => e.src1.toNat | none => 0)
  else if ofs = Reg.capAtLivel then w (d.live i).1
  else if ofs = Reg.capAtLiveh then w (d.live i).2
  else if ofs = Reg.capAtCuml then w (if i < 2112 then d.cap.cumOf i else 0)
  else if ofs = Reg.capAtCumh then w (if i < 2112 then d.cap.cumOf i / 2 ^ 32 else 0)
  else if ofs = Reg.capAtStat then
    let set := cntSnapSet cnt
    let pos := set.findIdx fun x => x == i
    let inset := i < 2048 && decide (pos < set.length)
    w (d.u.fld Reg.capAtStat 1 0 i + 4 * b2n inset + 8 * b2n ((cntFastSet cnt).contains i)
      + (if inset then pos * 65536 else 0))
  else none

/-- The image that SNP[sel].STATE and EPN show: the main image, or a fast slot's latest sub-slot (03 R129). -/
def Die.shown (d : Die) (s : Nat) : Option Slot :=
  d.cap.slots.foldl
    (fun (b : Option Slot) (p : Nat × Slot) =>
      if p.1 / 16 = s then
        match b with
        | some x => if x.img.head.epn ≤ p.2.img.head.epn then some p.2 else b
        | none => some p.2
      else b) none

/-- SNP registers that the slots hold (03 R129). -/
def Die.snpView (d : Die) (ofs s : Nat) : Option Word :=
  let w := fun (n : Nat) => some (BitVec.ofNat 32 n)
  if ofs = Reg.snpCfg then w d.mainSlots
  else if ofs = Reg.snpLatest then
    w ((match d.cap.latestMain with | some k => k / 16 + 2 ^ 31 | none => 0)
      + (match d.cap.latestFast with | some k => k / 16 * 16 + k % 16 * 256 + 2 ^ 30 | none => 0))
  else if ofs = Reg.snpAtState then
    let subs := ((d.cap.slots.filter fun p => p.1 / 16 == s && p.2.img.fast).map fun p => 2 ^ (p.1 % 16)).sum
    w ((match d.shown s with | some x => x.state | none => 0) + 4 * b2n (d.held s)
      + 8 * b2n (decide (d.mainSlots ≤ s)) + 65536 * subs)
  else if ofs = Reg.snpAtEpnl then w (match d.shown s with | some x => x.img.head.epn | none => 0)
  else if ofs = Reg.snpAtEpnh then w (match d.shown s with | some x => x.img.head.epn / 2 ^ 32 | none => 0)
  else none

/-- A 64-bit word of snapshot RAM as the images written whole have left it (03 R110, R111). -/
def Cap.ramWord (c : Cap) (ofs : Nat) : Nat :=
  match c.ram.find? fun p => if p.2.fast then p.1 == ofs / 0x400 else p.1 / 16 == ofs / 0x4000 with
  | some p => leAt (imageBytes p.2) (ofs - p.1 * 0x400) 8
  | none => Config.snapRam (ofs / 8) % 2 ^ 64

/-- How far the writer has got with an image in WRITING: further than it was known to be by any whole number of its 64-byte
writes, a free value (03 R118, R119; log entry 3); not begun while the fast image of the latch is written. -/
def Die.written (d : Die) (s : Slot) : Nat × Die :=
  if !s.img.fast && d.cap.fastFirst s then (0, d)
  else
    let r := d.u.draw
    let len := if s.img.fast then 16 else 256
    (max s.done (r.1 % (len + 1) * 64), { d with u := r.2 })

/-- Eight bytes of the snapshot image window (03 R118): the image of a place in VALID or BASE; in WRITING its bytes as far as
the writer has got, and beyond them, as in a FREE place, what snapshot RAM held. Mark: DEDUCED (log entry 53, unsafe). -/
def Die.imageWord (d : Die) (ofs : Nat) : Nat × Die :=
  let s := ofs / 0x4000
  let sub := s * 16 + ofs % 0x4000 / 0x400
  let key := match Tab.find (s * 16) d.cap.slots with
    | some x => if x.img.fast then sub else s * 16
    | none => sub
  match Tab.find key d.cap.slots with
  | none => (d.cap.ramWord ofs, d)
  | some x =>
    let o := if x.img.fast then ofs % 0x400 else ofs % 0x4000
    if x.state = 1 then
      let r := d.written x
      let e := { r.2 with cap := { r.2.cap with slots := Tab.put key { x with done := r.1 } r.2.cap.slots } }
      (if o < r.1 then leAt (imageBytes x.img) o 8 else d.cap.ramWord ofs, e)
    else (leAt (imageBytes x.img) o 8, d)

end Sys2Proof.Machine
end

