-- ==== Sys2Proof/Machine/Witness.lean ====
section
/-! DEFINITION. The tile witness (07_witness): deterministic sampling (R255-R258), the exchange and its comparison
(R251-R260), condition keys (R262-R265), the condition table (R266-R269), margin actions (R270-R273) and witness records
(R275). -/

namespace Sys2Proof.Machine

/-- Apply a function to the witness of a die unit. -/
def Die.onW (d : Die) (f : Wit → Wit) : Die := { d with wit := f d.wit }

/-! ### Sampling -/

/-- One turn of the draw's register with a bit fed in (R255). -/
def drawBit (s : Nat) (b : Bool) : Nat :=
  let fb := s.testBit 63 != b
  let s := s * 2 % 2 ^ 64
  if fb then s ^^^ 0x1b else s

/-- The 16-bit draw of a tile (R255). Mark: DEDUCED (log entry 47, unsafe). -/
def tileDraw (seed tile : Nat) : Nat :=
  let s := seed ^^^ (bitsOf tile 63 40 * 2 ^ 16)
  let s := (List.range 64).foldl (fun s b => drawBit s (tile.testBit b)) s
  let s := (List.range 16).foldl (fun s _ => drawBit s false) s
  bitsOf s 63 48

/-- A draw selects the tile at rate 2^-r (R255). Mark: DEDUCED (log entry 47, unsafe). -/
def drawn (u r : Nat) : Bool := decide (r = 0) || decide (u / 2 ^ (16 - r) = 0)

/-! ### Keys -/

/-- Temperature of an engine: the latest result of its channel, when the map and the channel are valid (R262). -/
def Die.engTemp (d : Die) (eng : Nat) : Option Nat :=
  let m := d.u.rd (Reg.witEngmap + 4 * eng)
  let s := d.sensor (fieldOf m 7 0)
  if bitAt m 8 && s.last.isSome then some s.value.toNat else none

/-- Temperature band (R262). -/
def tempBand (t : Option Nat) : Nat :=
  match t with
  | none => 31
  | some x => if sext 32 x < 0 then 0 else min 15 (x / (8 * 65536))

/-- Condition key of an engine now (R264). -/
def Die.witKey (d : Die) (eng : Nat) : Nat :=
  eng * 2 ^ 13 + tempBand (d.engTemp eng) * 2 ^ 8 + d.u.fld Reg.witLsnow 7 0

/-- A key whose band is 31 (R262). -/
def keyInv (key : Nat) : Bool := bitsOf key 12 8 == 31

/-- A key computed with no valid temperature sets TEMPINV (R262). -/
def Die.noteKey (d : Die) (key : Nat) : Die := if keyInv key then d.onU fun u => u.err Reg.witErr 10 else d

/-- The condition entry that holds a key. -/
def Wit.condOf (w : Wit) (key : Nat) : Option (Nat × WitCond) := w.cond.find? fun c => c.2.key == key

/-- Exponent r at an ANNOUNCE (R256). -/
def Die.witRate (d : Die) (key : Nat) : Nat :=
  let rb := d.u.fld Reg.witRate 4 0
  match d.wit.condOf key with
  | some (_, c) => if c.state = 2 ∨ c.state = 4 then 0 else min rb (d.u.fld Reg.witRate 12 8)
  | none => rb

/-- Witness milliseconds (R266). -/
def Unit.witMs (u : Unit) : Nat := timeMs u.tb.now % 2 ^ 32

/-! ### Witness records -/

/-- What a witness record says (R275). -/
structure WitRec where
  event : Nat
  flags : Nat
  kstate : Nat
  mstep : Nat
  key : Nat
  tile : Nat
  engs : List Nat
  temp : Nat
  sigs : List Nat
  nmis : Nat
  rused : Nat

/-- A record with no field that applies. -/
def witRec0 (event : Nat) : WitRec := ⟨event, 0, 0, 0, 0, 0, [0xFF, 0xFF, 0xFF, 0xFF], 0, [0, 0, 0], 0, 0⟩

/-- Commit a witness record (R275; TYPE 0x14 of 09 R336). -/
def Unit.witRecord (u : Unit) (alarm : Bool) (r : WitRec) : Unit :=
  let pl := leBytes 1 r.event ++ leBytes 1 r.flags ++ leBytes 1 r.kstate ++ leBytes 1 r.mstep ++ leBytes 4 r.key
    ++ leBytes 8 r.tile ++ (r.engs.map (leBytes 1)).flatten ++ leBytes 4 r.temp ++ (r.sigs.map (leBytes 8)).flatten
    ++ leBytes 2 r.nmis ++ leBytes 1 r.rused ++ zeros 1 ++ leBytes 4 u.witMs ++ zeros 8
  u.record 0x14 (if alarm then .alarm else .record) pl

/-- MSTEP of an entry. -/
def WitCond.mstep (c : WitCond) : Nat := c.vstep + 16 * c.fstep

/-- KEYSTATE: an entry changed state (R275). -/
def Unit.keyState (u : Unit) (c : WitCond) (state : Nat) : Unit :=
  u.witRecord (state == 2) { witRec0 4 with
    flags := 2 * b2n (keyInv c.key), kstate := state, mstep := if state = 0 then 0 else c.mstep, key := c.key, nmis := c.nmis }

/-- PROPOSE: the die is proposed for expulsion (R274). -/
def Unit.witPropose (u : Unit) (c : WitCond) : Unit :=
  u.witRecord true { witRec0 6 with
    flags := 2 * b2n (keyInv c.key), kstate := 4, mstep := c.mstep, key := c.key
    engs := [0xFF, 0xFF, 0xFF, c.key / 2 ^ 13], nmis := c.nmis }

/-- Engines and signatures of an exchange. -/
def WitPend.exRec (p : WitPend) (event : Nat) : WitRec :=
  let a := match p.first with | some x => (x.eng, x.sig) | none => (p.eng, 0)
  let b := match p.second with | some x => (x.eng, x.sig) | none => (0xFF, 0)
  { witRec0 event with
    flags := b2n p.targeted, tile := p.tile, engs := [a.1, b.1, 0xFF, 0xFF], sigs := [a.2, b.2, 0], rused := p.r }

/-! ### Die witness state, margin -/

/-- Severity rank of a state (R269). -/
def witSeverity (s : Nat) : Nat := if s = 4 then 4 else if s = 2 then 3 else if s = 3 then 2 else s

/-- The die witness state: the most severe among the entries (R269). -/
def Wit.state (w : Wit) : Nat :=
  w.cond.foldl (fun (m : Nat) c => if witSeverity c.2.state > witSeverity m then c.2.state else m) 0

/-- Interrupt of a change of the die witness state (18 R597). -/
def Die.witNote (d : Die) (old : Nat) : Die := if d.wit.state = old then d else d.onU fun u => u.irq 5

/-- The kinds that count as exhausted, voltage and clock: refused, or forbidden by MORDER (R272). -/
def Wit.exhausted (w : Wit) (order : Nat) : Bool × Bool := (w.exhV || order == 3, w.exhF || order == 2)

/-- MORDER in force (R270). -/
def Die.morder (d : Die) : Nat := d.u.fld Reg.witCtrl 5 4

/-- The requested levels (R270); an exhausted kind is held at the level last acknowledged (R272). -/
def Wit.want (w : Wit) (order : Nat) : Nat × Nat :=
  let v := w.cond.foldl (fun (m : Nat) c => max m c.2.vstep) w.healthV
  let f := w.cond.foldl (fun (m : Nat) c => max m c.2.fstep) w.healthF
  let x := w.exhausted order
  (if x.1 then w.ackV else v, if x.2 then w.ackF else f)

/-- The entry that took a step still demands it. -/
def Wit.holds (w : Wit) (s : WitStep) : Bool :=
  w.cond.any fun c => c.2.key == s.key && decide (s.count ≤ if s.volt then c.2.vstep else c.2.fstep)

/-- MG_ENG: the engine of the latest entry step that raised a level among the changes carried, 0xFF when none did (R270).
Mark: DEDUCED (log entry 47, unsafe). -/
def Wit.engine (w : Wit) : Nat := match (w.steps.filter w.holds).getLast? with | some s => s.key / 2 ^ 13 | none => 0xFF

/-- A step of an entry that raised a requested level is named by the next request (R270). -/
def Wit.stepped (w : Wit) (old new : Nat × Nat) (c : WitCond) : Wit :=
  if new.1 > old.1 then { w with steps := w.steps ++ [⟨c.key, true, c.vstep⟩] }
  else if new.2 > old.2 then { w with steps := w.steps ++ [⟨c.key, false, c.fstep⟩] }
  else w

/-- The kinds that MORDER allows, in order: true is voltage (R270). -/
def morder (m : Nat) : List Bool := if m = 0 then [true, false] else if m = 1 then [false, true] else if m = 2 then [true] else [false]

/-- The next step of an entry, if one remains (R270, R272). -/
def Wit.nextStep (w : Wit) (order : Nat) (c : WitCond) : Option WitCond :=
  let x := w.exhausted order
  ((morder order).find? fun k => if k then !x.1 && decide (c.vstep < 8) else !x.2 && decide (c.fstep < 8)).map
    fun k => if k then { c with vstep := c.vstep + 1, judge := 0 } else { c with fstep := c.fstep + 1, judge := 0 }

/-- An entry's latest step awaits acknowledgement (R270). -/
def Wit.awaits (w : Wit) (c : WitCond) : Bool := decide (c.vstep > w.ackV) || decide (c.fstep > w.ackF)

/-- Put an entry. -/
def Wit.put (w : Wit) (i : Nat) (c : WitCond) : Wit := { w with cond := Tab.put i c w.cond }

/-- Free an entry; with none left, no kind is exhausted (R268, R272). -/
def Wit.free (w : Wit) (i : Nat) : Wit :=
  let t := Tab.del i w.cond
  { w with cond := t, exhV := w.exhV && !t.isEmpty, exhF := w.exhF && !t.isEmpty }

/-- MARGIN_REQUEST: a changed demand is driven as one request (R270, R272, R273). -/
def Die.marginRequest (d : Die) : Die :=
  let w := d.wit
  let x := w.want d.morder
  if !d.paired || w.req.isSome || decide (x = (w.sentV, w.sentF)) || !d.u.capRuns then d
  else
    (d.onW fun w => { w with req := some ⟨x.1, x.2, d.u.clk⟩, sentV := x.1, sentF := x.2, steps := [] }).onU fun u =>
      u.emit (.margin x.1 x.2 w.engine)

/-- Entries' step counts of exhausted kinds are lowered to the level last acknowledged (R272). -/
def Wit.lower (w : Wit) (x : Bool × Bool) : Wit :=
  { w with cond := w.cond.map fun (p : Nat × WitCond) =>
      (p.1, { p.2 with vstep := if x.1 then min p.2.vstep w.ackV else p.2.vstep
                       fstep := if x.2 then min p.2.fstep w.ackF else p.2.fstep }) }

/-- A refused request exhausts the kinds it raised (R272). Mark: DEDUCED (log entry 47, unsafe). -/
def Wit.refuse (w : Wit) (r : MarginReq) : Wit :=
  let x := (decide (r.v > w.ackV), decide (r.f > w.ackF))
  { w with
    exhV := w.exhV || x.1, exhF := w.exhF || x.2
    sentV := if x.1 then w.ackV else w.sentV, sentF := if x.2 then w.ackF else w.sentF }.lower x

/-- What follows in the witness from what a command changed: a kind that MORDER forbids from now on is exhausted (R272);
a timebase stepped back sweeps the seconds that it reaches again (R268); with every change sent, no step waits (R270). -/
def Die.witSettle (x y : Die) : Die :=
  let y := if x.morder = y.morder then y else y.onW fun w => w.lower (w.exhausted y.morder)
  let y := if x.u.tb.now ≤ y.u.tb.now then y else y.onW fun w => { w with swept := (y.u.tb.now + 2 ^ 32 - 1) / 2 ^ 32 - 1 }
  if !y.wit.steps.isEmpty && y.wit.req.isNone && decide (y.wit.want y.morder = (y.wit.sentV, y.wit.sentF)) then
    y.onW fun w => { w with steps := [] }
  else y

/-- The MARGIN record (R275). -/
def Unit.marginRecord (u : Unit) (r : MarginReq) (ok timeout : Bool) : Unit :=
  u.witRecord false { witRec0 5 with flags := 8 * b2n ok + 16 * b2n timeout, mstep := r.v + 16 * r.f }

/-- MARGIN_ANSWER (R271, R272); with no request outstanding it is ignored. Mark: DEDUCED (log entry 47, unsafe). -/
def Die.marginAnswer (d : Die) (ok : Bool) : Die :=
  match d.wit.req with
  | none => d
  | some r =>
    let d := d.onU fun u => u.marginRecord r ok false
    if ok then d.onW fun w => { w with req := none, ackV := r.v, ackF := r.f }
    else (d.onW fun w => { w with req := none }.refuse r).onU fun u => u.err Reg.witErr 7

/-- MARGIN_TIMEOUT: no answer after WIT_MACKTO µs (R272). -/
def Die.marginTimeout (d : Die) : Die :=
  match d.wit.req with
  | none => d
  | some r =>
    if d.u.since r.since < usT (d.u.fld Reg.witMackto 15 0) then d
    else
      let d := d.onU fun u => u.marginRecord r false true
      (d.onW fun w => { w with req := none }.refuse r).onU fun u => u.err Reg.witErr 8

/-! ### The condition table -/

/-- Replace an entry whose state changed; the record of the change (R275). -/
def Die.condSet (d : Die) (i : Nat) (c : WitCond) (old : Nat) : Die :=
  let d := d.onW fun w => w.put i c
  if c.state = old then d else d.onU fun u => u.keyState c c.state

/-- Enter PROPOSED (R274). -/
def Die.condPropose (d : Die) (i : Nat) (c : WitCond) (old : Nat) : Die :=
  let c := { c with state := 4 }
  (d.condSet i c old).onU fun u => u.witPropose c

/-- Take the next margin step, or enter PROPOSED when none remains (R267). -/
def Die.condStep (d : Die) (i : Nat) (c : WitCond) (old : Nat) : Die :=
  match d.wit.nextStep d.morder c with
  | some c' =>
    let x := d.wit.want d.morder
    (d.condSet i { c' with state := 2 } old).onW fun w => w.stepped x (w.want d.morder) c'
  | none =>
    if old ≠ 1 then d.condPropose i c old
    else
      let d := d.condSet i { c with state := 2 } 1
      d.condPropose i { c with state := 2 } 2

/-- Where a mismatch under a key is filed: its entry, the lowest FREE one, the ALERT entry to evict, or none (R267). -/
def Wit.place (w : Wit) (key now : Nat) : Option (Nat × Option WitCond) :=
  match w.condOf key with
  | some (i, c) => some (i, some c)
  | none =>
    match Tab.freeFrom w.cond 0 256 with
    | some i => some (i, none)
    | none =>
      (w.cond.foldl
        (fun (b : Option (Nat × WitCond)) (c : Nat × WitCond) =>
          if c.2.state = 1 then
            let age := fun (x : WitCond) => (now + 2 ^ 32 - (x.times.getLastD now)) % 2 ^ 32
            match b with
            | some y => if age c.2 > age y.2 then some c else b
            | none => some c
          else b) none).map fun c => (c.1, none)

/-- The entry after a mismatch joins its times (R267). Mark: DEDUCED (log entry 47, unsafe). -/
def WitCond.join (c : WitCond) (now : Nat) : WitCond :=
  { c with times := lastN 3 (c.times ++ [now]), nmis := min 255 (c.nmis + 1) }

/-- What the state machine does with a mismatch that has joined (R267.2 to R267.5). -/
def Die.condReact (d : Die) (i : Nat) (c : WitCond) (now : Nat) : Die :=
  let win := d.u.fld Reg.witWin 15 0 * 1000
  if c.state = 1 then
    let span := (now + 2 ^ 32 - c.times.headD now) % 2 ^ 32
    if c.times.length = 3 ∧ span ≤ win then d.condStep i { c with judge := 0 } 1 else d
  else if c.state = 2 then (if d.wit.awaits c then d else d.condStep i c 2)
  else if c.state = 3 then d.condStep i c 3
  else d

/-- MISMATCH_FILE (R267): the record of the mismatch and what follows it. Mark: DEDUCED (log entry 47, unsafe). -/
def Die.fileMismatch (d : Die) (p : WitPend) (c : WitSig) (blame : WitSig) : Die :=
  let now := d.u.witMs
  let key := blame.key
  let base := p.exRec 1
  let r := { base with
    flags := base.flags + 2 * b2n (keyInv key), key := key, temp := blame.temp
    engs := [base.engs.getD 0 0, base.engs.getD 1 0, c.eng, blame.eng], sigs := [base.sigs.getD 0 0, base.sigs.getD 1 0, c.sig] }
  let old := d.wit.state
  let d := d.onU fun u => u.count Reg.witMiscnt
  match d.wit.place key now with
  | none =>
    d.onU fun u => ((u.err Reg.witErr 4).alarm .ctFull).witRecord false { r with flags := r.flags + 4 }
  | some (i, held) =>
    let d := match held, Tab.find i d.wit.cond with
      | none, some ev => (d.onU fun u => (u.count Reg.witEvictcnt).keyState ev 0).onW fun w => w.free i
      | _, _ => d
    let e := (match held with | some x => x | none => ⟨key, 1, [], 0, 0, 0, 0⟩).join now
    let d' := (d.onW fun w => w.put i e).condReact i e now
    let after := match Tab.find i d'.wit.cond with | some x => x | none => e
    let m := d.onU fun u => u.witRecord false { r with kstate := after.state, mstep := after.mstep, nmis := after.nmis }
    ((m.onW fun w => w.put i e).condReact i e now).witNote old

/-- A MATCH counts toward JUDGE of the entries that hold a key of A or B (R260, R269). -/
def Die.judge (d : Die) (a b : Nat) : Die :=
  let old := d.wit.state
  let r := d.wit.cond.foldl
    (fun (d : Die) (p : Nat × WitCond) =>
      let c := p.2
      if (c.key == a || c.key == b) && c.state == 2 && !d.wit.awaits c then
        let n := c.judge + 1
        if n ≥ d.u.fld Reg.witJudgen 15 0 then d.condSet p.1 { c with judge := n, state := 3 } 2
        else d.onW fun w => w.put p.1 { c with judge := n }
      else d) d
  r.witNote old

/-- CONDITION_SWEEP: at a whole second, ALERT entries older than the window are freed (R268). -/
def Die.condSweep (d : Die) : Die :=
  let sec := d.u.tb.now / 2 ^ 32
  if sec ≤ d.wit.swept then d
  else
    let now := d.u.witMs
    let win := d.u.fld Reg.witWin 15 0 * 1000
    let old := d.wit.state
    let d := d.onW fun w => { w with swept := sec }
    let r := d.wit.cond.foldl
      (fun (d : Die) (p : Nat × WitCond) =>
        if p.2.state = 1 ∧ (now + 2 ^ 32 - p.2.times.getLastD now) % 2 ^ 32 > win then
          (d.onU fun u => u.keyState p.2 0).onW fun w => w.free p.1
        else d) d
    r.witNote old

/-- CONDITION_CLEAR: a write of 1 to WIT[sel].CLEAR frees the entry (R268). -/
def Die.condClear (d : Die) (i : Nat) : Die :=
  match Tab.find i d.wit.cond with
  | none => d
  | some c => ((d.onU fun u => u.keyState c 0).onW fun w => w.free i).witNote d.wit.state

/-! ### The exchange -/

/-- Answer an ANNOUNCE (R251). -/
def Die.answer (d : Die) (tag : Option Nat) : Die := d.onU fun u => u.emit (.sample tag)

/-- ANNOUNCE (R255-R258). -/
def Die.announce (d : Die) (tile eng : Nat) : Die :=
  if !d.u.capRuns then d
  else
    let d := d.onU fun u => u.count Reg.witAnncnt
    match d.wit.seed with
    | none => d.answer none
    | some seed =>
      if !d.u.bit Reg.witCtrl 0 then d.answer none
      else
        let key := d.witKey eng
        let d := d.noteKey key
        let r := d.witRate key
        if !drawn (tileDraw seed tile) r then d.answer none
        else match Tab.freeFrom d.wit.pend 0 4096 with
          | none => (d.onU fun u => (u.count Reg.witFullcnt).err Reg.witErr 3).answer none
          | some tag =>
            let p : WitPend := ⟨tile, eng, r, decide (r < d.u.fld Reg.witRate 4 0), key, d.u.clk, none, none, none⟩
            ((d.onW fun w => { w with pend := Tab.put tag p w.pend }).onU fun u => u.count Reg.witSampcnt).answer (some tag)

/-- Discard a signature transaction (R253). -/
def Die.witDiscard (d : Die) (bit : Nat) : Die := d.onU fun u => (u.count Reg.witDisccnt).err Reg.witErr bit

/-- Free a pending entry. -/
def Wit.freePend (w : Wit) (tag : Nat) : Wit := { w with pend := Tab.del tag w.pend }

/-- The signature of an engine at this edge (R265). -/
def Die.witSig (d : Die) (eng sig : Nat) : WitSig :=
  ⟨eng, sig, d.witKey eng, match d.engTemp eng with | some t => t | none => 0⟩

/-- Compare when both signatures are held (R260). -/
def Die.compare (d : Die) (tag : Nat) (p : WitPend) : Die :=
  match p.first, p.second with
  | some a, some b =>
    if a.sig = b.sig then
      let d := ((d.onW fun w => w.freePend tag).onU fun u => u.count Reg.witMatchcnt).judge a.key b.key
      if d.u.bit Reg.witCtrl 1 then d.onU fun u => u.witRecord false (p.exRec 0) else d
    else
      (d.onW fun w => { w with pend := Tab.put tag { p with xreq := some d.u.clk } w.pend }).onU fun u =>
        u.emit (.thirdReq tag p.tile a.eng b.eng)
  | _, _ => d.onW fun w => { w with pend := Tab.put tag p w.pend }

/-- The entry's timeout has run out: a signature that arrives now is discarded under BADTAG (R259). -/
def Die.pendDue (d : Die) (p : WitPend) : Bool :=
  match p.xreq with
  | none => decide (usT (d.u.fld Reg.witPendto 15 0) ≤ d.u.since p.since)
  | some x => decide (usT (d.u.fld Reg.witThirdto 15 0) ≤ d.u.since x)

/-- FIRST (R251, R253, R260). -/
def Die.witFirst (d : Die) (tag tile eng sig : Nat) : Die :=
  if !d.u.capRuns then d
  else match Tab.find tag d.wit.pend with
    | none => d.witDiscard 1
    | some p =>
      if p.tile ≠ tile || d.pendDue p then d.witDiscard 1
      else if p.eng ≠ eng then d.witDiscard 0
      else if p.first.isSome then d.witDiscard 2
      else
        let s := d.witSig eng sig
        (d.noteKey s.key).compare tag { p with first := some s }

/-- SECOND (R251, R253, R260). -/
def Die.witSecond (d : Die) (tag tile eng sig : Nat) : Die :=
  if !d.u.capRuns then d
  else match Tab.find tag d.wit.pend with
    | none => d.witDiscard 1
    | some p =>
      if p.tile ≠ tile || d.pendDue p then d.witDiscard 1
      else if p.eng = eng then d.witDiscard 0
      else if p.second.isSome then d.witDiscard 2
      else
        let s := d.witSig eng sig
        (d.noteKey s.key).compare tag { p with second := some s }

/-- NOVOTE: the three signatures all differ (R260). -/
def Die.witNovote (d : Die) (p : WitPend) (c : WitSig) : Die :=
  let r := p.exRec 2
  d.onU fun u =>
    ((u.count Reg.witNovotecnt).err Reg.witErr 6).witRecord true { r with
      engs := [r.engs.getD 0 0, r.engs.getD 1 0, c.eng, 0xFF], sigs := [r.sigs.getD 0 0, r.sigs.getD 1 0, c.sig] }

/-- THIRD (R251, R253, R260): the die, and whether the result is NOVOTE. -/
def Die.witThird (d : Die) (tag tile eng sig : Nat) : Die × Bool :=
  if !d.u.capRuns then (d, false)
  else match Tab.find tag d.wit.pend with
    | none => (d.witDiscard 1, false)
    | some p =>
      match p.first, p.second, p.xreq with
      | some a, some b, some _ =>
        if p.tile ≠ tile || d.pendDue p then (d.witDiscard 1, false)
        else if eng = a.eng ∨ eng = b.eng then (d.witDiscard 0, false)
        else
          let c := d.witSig eng sig
          let d := (d.noteKey c.key).onW fun w => w.freePend tag
          if sig = a.sig then (d.fileMismatch p c b, false)
          else if sig = b.sig then (d.fileMismatch p c a, false)
          else (d.witNovote p c, true)
      | _, _, _ => (d.witDiscard 1, false)

/-- PENDING_TIMEOUT (R259). -/
def Die.pendTimeout (d : Die) (tag : Nat) : Die :=
  match Tab.find tag d.wit.pend with
  | some p =>
    if p.xreq.isNone ∧ d.u.since p.since ≥ usT (d.u.fld Reg.witPendto 15 0) then
      (d.onW fun w => w.freePend tag).onU fun u => (u.count Reg.witTocnt).err Reg.witErr 5
    else d
  | none => d

/-- THIRD_TIMEOUT: UNDECIDED (R259, R260). -/
def Die.thirdTimeout (d : Die) (tag : Nat) : Die :=
  match Tab.find tag d.wit.pend with
  | some p =>
    match p.xreq with
    | some x =>
      if d.u.since x ≥ usT (d.u.fld Reg.witThirdto 15 0) then
        (d.onW fun w => w.freePend tag).onU fun u => (u.count Reg.witTocnt).witRecord false (p.exRec 3)
      else d
    | none => d
  | none => d

/-- Every pending entry is abandoned (R276). -/
def Die.witAbandon (d : Die) : Die :=
  let n := d.wit.pend.length
  let d := d.onW fun w => { w with pend := [] }
  if n = 0 then d.onU fun u => u.err Reg.witErr 9 else d.onU fun u => (u.countBy Reg.witAbncnt n).err Reg.witErr 9

/-- A write of WIT_SEEDH sets the seed (R257). -/
def Die.seedWrite (d : Die) (high : Word) : Die :=
  (d.onU fun u => u.wr Reg.witSeedh high).onW fun w => { w with seed := some (d.u.rdN Reg.witSeedl + high.toNat * 2 ^ 32) }

/-! ### Registers -/

/-- WIT registers that the witness state gives (R277, R278). -/
def Die.witView (d : Die) (ofs i : Nat) : Option Word :=
  let w := fun (n : Nat) => some (BitVec.ofNat 32 n)
  let x := d.wit
  let ex := x.exhausted d.morder
  let req := x.want d.morder
  let c := Tab.find i x.cond
  if ofs = Reg.witStat then
    w (x.pend.length + 65536 * b2n x.seed.isSome + 2 ^ 17 * x.state + 2 ^ 20 * b2n ex.1 + 2 ^ 21 * b2n ex.2
      + 2 ^ 23 * x.cond.length)
  else if ofs = Reg.witMarglvl then
    w (x.ackV + 256 * x.ackF + 65536 * req.1 + 2 ^ 24 * req.2 + 2 ^ 31 * b2n x.req.isSome)
  else if ofs = Reg.witAtKey then w (match c with | some e => e.key + 2 ^ 31 | none => 0)
  else if ofs = Reg.witAtState then
    w (match c with
       | some e => e.state + 8 * b2n (keyInv e.key) + 16 * b2n (x.awaits e) + 256 * e.vstep + 4096 * e.fstep + 2 ^ 24 * e.nmis
       | none => 0)
  else if ofs = Reg.witAtLast then w (match c with | some e => e.times.getLastD 0 | none => 0)
  else if ofs = Reg.witAtOldest then w (match c with | some e => e.times.headD 0 | none => 0)
  else if ofs = Reg.witAtJudge then w (match c with | some e => e.judge | none => 0)
  else none

end Sys2Proof.Machine
end

