-- ==== Sys2Proof/Machine/Delivery.lean ====
section
/-! DEFINITION. The die unit's side of the delivery guarantee (09_records_delivery): sending to both heads (R345-R348),
release (R350), spill and its read-back (R341, R506), held ALARM records (R615), and the DIGEST of either part (R360). -/

namespace Sys2Proof

/-- SEQ `a` is later than `b`, modulo 2^48 (09 R339). -/
def seqLater (a b : Seq) : Bool :=
  let d := (a - b).toNat
  decide (1 ≤ d) && decide (d < 2 ^ 47)

end Sys2Proof

namespace Sys2Proof.Machine

/-- Nothing sent to a head yet. -/
def hstream0 : HeadStream := ⟨none, 0, 0, false, 0⟩

/-- A head not heard from. -/
def head0 : Head := ⟨0, false, false, []⟩

/-- A head of the die unit. -/
def Die.head (d : Die) : Side → Head
  | .a => d.headA
  | .b => d.headB

/-- Put a head. -/
def Die.setHead (d : Die) (s : Side) (h : Head) : Die :=
  match s with
  | .a => { d with headA := h }
  | .b => { d with headB := h }

/-- A stream toward a head. -/
def Head.stream (h : Head) (cls : Nat) : HeadStream := Tab.getD h.streams cls hstream0

/-- Put a stream toward a head. -/
def Die.setHs (d : Die) (s : Side) (cls : Nat) (x : HeadStream) : Die :=
  let h := d.head s
  d.setHead s { h with streams := Tab.put cls x h.streams }

/-- SRC and SEQ of a log entry. -/
def LogEnt.id (e : LogEnt) (own : Node) : Node × Seq :=
  match e.body with
  | .rcd r => (r.src, r.seq)
  | .void n => (own, n)

/-- A head has journaled a log entry of the part's present series (R347, R350). -/
def Head.has (h : Head) (cls : Nat) (own : Node) (e : LogEnt) : Bool :=
  match (h.stream cls).jseq with
  | some j => decide ((e.id own).1 = own) && !seqLater (e.id own).2 j
  | none => false

/-- Index of the first entry of a log that a head has not journaled. -/
def Die.firstOpen (d : Die) (s : Side) (cls : Nat) : Nat :=
  let l := (d.u.stream cls).log
  (l.findIdx? fun e => !(d.head s).has cls d.u.node e).getD l.length

/-- Resend a stream to a head from its JSEQ + 1 (R348). -/
def Die.resend (d : Die) (s : Side) (cls : Nat) : Die :=
  let x := (d.head s).stream cls
  let i := d.firstOpen s cls
  let d' := d.setHs s cls { x with next := i, ofs := 0, since := d.u.clk }
  if x.next > i ∨ x.ofs > 0 then d'.onU fun u => u.count Reg.recAtReplaycnt cls else d'

/-- Class numbers of a die unit's streams (R339). -/
def dieStreams : List Nat := [0, 3, 4]

/-- Heads that count for the release (R350). -/
def Die.reachable (d : Die) : List Head := [d.headA, d.headB].filter Head.reach

/-- Move a head's place in a log by entries that left its front. -/
def Head.shift (h : Head) (cls n : Nat) : Head :=
  let x := h.stream cls
  { h with streams := Tab.put cls { x with next := x.next - n, ofs := if x.next < n then 0 else x.ofs } h.streams }

/-- Release the entries of a stream that every reachable head has journaled (R350). A unit that has never completed the
handshake with an aggregator pair keeps its records (00_scope R1). -/
def Die.releaseOf (d : Die) (cls : Nat) : Die :=
  let st := d.u.stream cls
  let n := (st.log.takeWhile fun e => d.reachable.all fun h => h.has cls d.u.node e).length
  if d.reachable.isEmpty || n == 0 || !d.paired then d
  else
    { d.onU fun u => u.setStream cls { st with log := st.log.drop n } with
        headA := d.headA.shift cls n, headB := d.headB.shift cls n }

/-- Release what every reachable head has journaled (R350). -/
def Die.release (d : Die) : Die := dieStreams.foldl Die.releaseOf d

/-- A frame from a head has arrived: the head is reachable, and one that was not gets its streams again (R348, R350). -/
def Die.heard (d : Die) (s : Side) : Die :=
  let h := d.head s
  let d' := d.setHead s { h with seen := d.u.clk, reach := true }
  if h.reach then d' else dieStreams.foldl (fun (d : Die) c => d.resend s c) d'

/-- The head that an address names; none for another part's address. -/
def headOf (n : Node) : Option Side :=
  let k := bitsOf n.toNat 23 22
  if k = 1 then some .a else if k = 2 then some .b else none

/-- HEAD_TIMEOUT: no frame from a head for REC_HEADTO µs (R350). -/
def Die.headTimeout (d : Die) (s : Side) : Die :=
  let h := d.head s
  if h.reach && decide (d.u.since h.seen ≥ usT (d.u.fld Reg.recHeadto 15 0)) then
    ((d.setHead s { h with reach := false }).onU fun u => u.err Reg.recErr 3).release
  else d

/-- What an ACK says of one stream (R346): its JSEQ, NACK and NOBASE. A head that answers NOBASE holds no entry, so that
what it journaled before counts no longer (R347, R350). -/
def Die.ackStream (d : Die) (s : Side) (cls : Nat) (j : Seq) (nack nobase : Bool) : Die :=
  let x := (d.head s).stream cls
  if nobase then
    (d.setHs s cls { x with jseq := none, next := 0, ofs := 0, restart := true, since := d.u.clk }).onU fun u =>
      (u.err Reg.recErr 4).count Reg.recAtReplaycnt cls
  else
    let st := d.u.stream cls
    let news := match x.jseq with
      | some o => seqLater j o
      | none => decide (j ≠ 0xFFFFFFFFFFFF)
    let d := if news && st.used && !seqLater j (st.next - 1) then
        d.setHs s cls { x with jseq := some j, since := d.u.clk, restart := false } else d
    if nack then (d.onU fun u => u.err Reg.recErr 1).resend s cls else d

/-- ACK_RECEIVE (R346, R348, R350). -/
def Die.ackReceive (d : Die) (s : Side) (a : Ack) : Die :=
  if !d.u.raceUp s.ix then d
  else
  let d := (d.heard s).onU fun u => (u.raceRx s.ix 1 44).addrs [a.dest]
  if addrEff a.dest ≠ d.u.node ∨ d.u.nodeOk = false then d
  else
    let f := fun (k : Nat) => a.aflags.toNat.testBit k
    let was := (d.head s).full
    let d := d.ackStream s 0 a.jseqA (f 0) (f 4)
    let d := d.ackStream s 3 a.jseqR (f 1) (f 5)
    let d := d.ackStream s 4 a.jseqB (f 2) (f 6)
    let d := d.setHead s { d.head s with full := f 3 }
    let d := if was && !f 3 then (d.resend s 3).resend s 4 else d
    d.release

/-- Records of a stream are sent to a head and not journaled there. -/
def Die.outstanding (d : Die) (s : Side) (cls : Nat) : Bool := decide (d.firstOpen s cls < ((d.head s).stream cls).next)

/-- ACK_TIMEOUT (R348). -/
def Die.ackTimeout (d : Die) (s : Side) (cls : RecClass) : Die :=
  let c := cls.code
  let h := d.head s
  if h.reach && d.outstanding s c && !(h.full && cls != .alarm)
      && decide (d.u.since (h.stream c).since ≥ usT (d.u.fld Reg.recAckto 15 0)) then
    (d.onU fun u => u.err Reg.recErr 2).resend s c
  else d

/-- The LNK island runs (18 R569, 15 R510). -/
def Unit.lnkRuns (u : Unit) : Bool := decide (u.power < 3) && !u.inReset 3

/-- A frame of a class may start on a port now (04 R149; 10 R371). -/
def Unit.raceReady (u : Unit) (p cls bytes : Nat) : Bool :=
  let x := u.rport p
  x.state == 2 && x.credit cls (unitsOf bytes) && !x.withholds cls && !x.before cls none

/-- Send the next segment of a log entry toward a head (R345; 10 R377). -/
def Die.sendEntry (d : Die) (s : Side) (cls : RecClass) (e : LogEnt) : Die :=
  let c := cls.code
  let x := (d.head s).stream c
  let x := if d.outstanding s c then x else { x with since := d.u.clk }
  match e.body with
  | .void n =>
    (d.setHs s c { x with next := x.next + 1, ofs := 0 }).onU fun u => u.raceOwn s.ix c 24 (.restart s.ix cls true n)
  | .rcd r =>
    let b := r.bytes
    let seg := slice b x.ofs (if c = 0 then 48 else 2048)
    let o := x.ofs + seg.length
    let last := decide (o ≥ b.length)
    let x' := if last then { x with next := x.next + 1, ofs := 0 } else { x with ofs := o }
    (d.setHs s c x').onU fun u =>
      u.raceOwn s.ix c (16 + seg.length) (.recseg s.ix r.src cls r.seq x.ofs (x.ofs == 0) last seg)

/-- RECORD_SEND: the next segment, void or RESTART marker of a stream goes out of a Race port (R345, R348, R349). A record
is sent from the buffer only (R341), and none before the unit has completed the handshake with an aggregator pair
(00_scope R1). -/
def Die.recordSend (d : Die) (cls : RecClass) (s : Side) : Die :=
  let c := cls.code
  let x := (d.head s).stream c
  if !d.u.nodeOk || !d.paired || !d.u.lnkRuns || !d.u.raceReady s.ix c (if c = 0 then 64 else 2064) then d
  else if x.restart then
    (d.setHs s c { x with restart := false }).onU fun u => u.raceOwn s.ix c 24 (.restart s.ix cls false 0)
  else match (d.u.stream c).log[x.next]? with
    | some e => if e.spill then d else d.sendEntry s cls e
    | none => d

/-! ### Spill -/

/-- The oldest spilled entry of a stream. -/
def Unit.spilled (u : Unit) (cls : Nat) : Option (Nat × LogEnt) :=
  let l := (u.stream cls).log
  match l.findIdx? LogEnt.spill with
  | some i => l[i]?.map fun e => (i, e)
  | none => none

/-- Replace an entry of a stream's log. -/
def Unit.setEntry (u : Unit) (cls i : Nat) (e : LogEnt) : Unit :=
  let s := u.stream cls
  u.setStream cls { s with log := s.log.set i e }

/-- SPILL_READBACK: the oldest spilled record of a stream comes back into the buffer when it fits (R341, R342); none while
the read-back channel is halted (15 R509). -/
def Unit.spillReadback (u : Unit) (cls : RecClass) : Unit :=
  match (if u.bit Reg.rasDmastat 2 then none else u.spilled cls.code) with
  | some (i, e) =>
    let lim := if cls = .alarm then bufSize else bufSize - 32768
    if u.bufFill + e.size ≤ lim then u.setEntry cls.code i { e with spill := false } else u
  | none => u

/-- ALARM_HELD_COMMIT: held ALARM records are committed in ascending TYPE as room allows, ALARMHELD before the record of a
TYPE that displaced others (R615). Mark: DEDUCED (log entry 55, unsafe). -/
def Unit.alarmHeld (u : Unit) : Unit :=
  u.recs.held.foldl
    (fun (u : Unit) (p : Nat × Draft × Nat) =>
      let d := p.2.1
      let fits := fun (u : Unit) => (u.room .alarm (32 + d.payload.length)).isSome
      if !fits u || !u.nodeOk || u.hostOff then u
      else
        let u := if p.2.2 = 0 then u
          else
            let u := u.event 0x030 [BitVec.ofNat 32 p.1, BitVec.ofNat 32 p.2.2]
            { u with recs := { u.recs with held := Tab.put p.1 (d, 0) u.recs.held } }
        match u.room .alarm (32 + d.payload.length) with
        | some sp =>
          let v := u.accept d d.payload false false sp
          { v with recs := { v.recs with held := Tab.del p.1 v.recs.held } }
        | none => u) u

/-! ### DIGEST -/

/-- The 56 bytes of a stream in a DIGEST (R360). -/
def Unit.digestStream (u : Unit) (cls : Nat) : List Byte :=
  let s := u.stream cls
  let on := s.used && !(u.isDie && cls == 2)
  leBytes 6 (if on then (s.next - 1).toNat else 0) ++ leBytes 1 (b2n on) ++ zeros 1 ++ leBytes 48 s.chain.toNat

/-- Commit a DIGEST (R360): the device key signs the SHA-384 of bytes 0x00-0xE7. -/
def Unit.digest (u : Unit) : Unit :=
  let body := leBytes 8 (u.recs.dign + 1) ++ ([0, 2, 3, 4].map u.digestStream).flatten
  let v := u.commit (u.draft 0x30 .record (body ++ Config.sign u.deviceKey (Config.sha384 body)))
  if (v.stream 3).next = (u.stream 3).next then v
  else { v with recs := { v.recs with dign := u.recs.dign + 1 } }

/-- The command DIGEST: DIGEN is 1, and no deferral of 18 R573 holds. -/
def Unit.digestDue (u : Unit) : Unit :=
  if u.bit Reg.recCtrl 1 && u.nodeOk && !u.hostOff then u.digest else u

/-- A void takes the place of a record of the log that is lost (R349; 15 R506). -/
def Unit.loseRecord (u : Unit) (cls i : Nat) : Unit :=
  match (u.stream cls).log[i]? with
  | some ⟨.rcd r, n, sp⟩ => u.setEntry cls i ⟨.void r.seq, n, sp⟩
  | _ => u

/-! ### Registers -/

/-- REC registers that the streams hold (R363); class `c` is the one selected. -/
def Unit.recView (u : Unit) (ofs c : Nat) : Option Word :=
  let w := fun (n : Nat) => some (BitVec.ofNat 32 n)
  let off := c == 1 || (c == 2 && u.isDie)
  let s := u.stream c
  if ofs = Reg.recAtNextl then w (if off then 0 else s.next.toNat)
  else if ofs = Reg.recAtNexth then w (if off then 0 else s.next.toNat / 2 ^ 32)
  else if ofs = Reg.recAtRetcnt then w (if off then 0 else s.log.length)
  else if u.isAgg then none
  else if ofs = Reg.recSpilluse then w (u.spillFill / 1024)
  else none

/-- REC registers that the die unit's heads give (R363). -/
def Die.recView (d : Die) (ofs c : Nat) : Option Word :=
  let w := fun (n : Nat) => some (BitVec.ofNat 32 n)
  let j := fun (h : Head) => ((h.stream c).jseq.map fun (x : Seq) => x.toNat).getD 0
  if ofs = Reg.recStat then
    w (b2n d.headA.reach + 2 * b2n d.headB.reach + 4 * b2n (decide (d.u.spillFill > 0)) + 8 * b2n d.u.recs.refusing
      + 16 * b2n (d.headA.full || d.headB.full) + 256 * (d.u.bufFill / 4096 % 256))
  else if ofs = Reg.recAtAckal then w (j d.headA)
  else if ofs = Reg.recAtAckah then w (j d.headA / 2 ^ 32)
  else if ofs = Reg.recAtAckbl then w (j d.headB)
  else if ofs = Reg.recAtAckbh then w (j d.headB / 2 ^ 32)
  else d.u.recView ofs c

/-- Byte of the retention readout window (R344): the records of the buffer lie one after another, streams in class order;
where they lie is not stated, so a byte's place is the model's choice. Mark: DEDUCED (log entry 55, unsafe). -/
def Unit.bufBytes (u : Unit) : List Byte :=
  (u.recs.streams.vals.map fun s => (s.log.map fun e =>
    match e.body with
    | .rcd r => if e.spill then [] else r.bytes
    | .void _ => []).flatten).flatten

end Sys2Proof.Machine
end

