-- ==== Sys2Proof/Machine/Lanes.lean ====
section
/-! DEFINITION. Plans and lanes (04_runner_reduction, R130-R147): PLAN entries, the identity of a lane, the fold of an
item, the merge of two partial lanes, and the bytes of a lane. -/

namespace Sys2Proof.Machine

/-- A lane descriptor (04 R133). -/
structure LaneD where
  op : Nat
  km1 : Nat
  src : Nat
  signed : Bool
  neg : Bool
  shift : Nat
  nm1 : Nat
  phase : Nat
  start : Nat
  deriving DecidableEq, Repr

/-- A lane descriptor from its 64-bit word. -/
def parseLaneD (w : Nat) : LaneD :=
  ⟨bitsOf w 3 0, bitsOf w 7 4, bitsOf w 11 8, w.testBit 12, w.testBit 13, bitsOf w 18 14, bitsOf w 27 20,
    bitsOf w 31 28, bitsOf w 47 32⟩

/-- A plan (04 R131). -/
structure Plan where
  id : Nat
  pver : Nat
  trig : Nat
  scope : Nat
  owner : Nat
  strag : Bool
  every : Nat
  lofs : Nat
  /-- DLP (0.1 µs), DLT, DLG, DLS (µs). -/
  dl : List Nat
  sthr : Nat
  sk : Nat
  sn : Nat
  lanes : List LaneD
  /-- The 24 header bytes (04 R167). -/
  head : List Byte
  deriving DecidableEq, Repr

/-- `n` plans from PLAN bytes. -/
def parsePlans : Nat → List Byte → List Plan
  | 0, _ => []
  | n + 1, b =>
    let nl := leAt b 2 1
    let m := leAt b 3 1
    let p : Plan :=
      { id := leAt b 0 1, pver := leAt b 1 1, trig := m % 2, scope := bitsOf m 2 1, owner := bitsOf m 3 3
        strag := m.testBit 4, every := leAt b 4 2, lofs := leAt b 6 2
        dl := [leAt b 8 2, leAt b 10 2, leAt b 12 2, leAt b 14 2]
        sthr := leAt b 16 4, sk := leAt b 20 1, sn := leAt b 21 1
        lanes := (wordsOf 8 nl (b.drop 24)).map parseLaneD, head := b.take 24 }
    p :: parsePlans n (b.drop (24 + 8 * nl))

/-- The plans of a PLAN section. -/
def planList (b : List Byte) : List Plan := parsePlans (secCount b) (secBody b)

/-- The plan of a PLAN section with a number. -/
def planIn (b : List Byte) (n : Nat) : Option Plan := (planList b).find? fun p => p.id == n

/-- The plan in force with a number. -/
def Unit.plan? (u : Unit) (n : Nat) : Option Plan := planIn (u.sec 9) n

/-- Bytes of a lane (04 R147). -/
def laneSize (op km1 : Nat) : Nat :=
  if op = 9 then 16 + 16 * (km1 + 1) else if op = 10 then 272 else if op = 11 then 4112 else 16

/-- Bytes of a plan's runner frame (04 R145). -/
def Plan.frameSize (p : Plan) : Nat := 36 + (p.lanes.map fun d => laneSize d.op d.km1).sum

/-- Value of a lane at launch (04 R139). -/
def laneIdentity (op : Nat) : BitVec 64 :=
  if op = 1 then 0x7FFFFFFFFFFFFFFF else if op = 2 then 0x8000000000000000
  else if op = 3 ∨ op = 7 then 0xFFFFFFFFFFFFFFFF else 0

/-- A lane as the launching aggregator writes it (04 R139, R148). -/
def LaneD.identity (d : LaneD) : Lane :=
  { op := d.op, km1 := d.km1, signed := d.signed, sat := false, clamp := false, void := false, ovfin := false
    aux := if d.op = 8 then 0xFFFFFFFF else 0, value := laneIdentity d.op, tops := [], counts := [] }

/-- The order of ARGMAX and TOPK entries (04 R142): `a` comes before `b`. -/
def topBefore (signed : Bool) (a b : TopEnt) : Bool :=
  let v := fun (e : TopEnt) => if signed then e.value.toInt else (e.value.toNat : Int)
  decide (v b < v a) || (decide (v a = v b) &&
    (decide (a.addr.toNat < b.addr.toNat) || (decide (a.addr = b.addr) && decide (a.item.toNat < b.item.toNat))))

/-- Insert an entry in order (04 R142). -/
def topInsert (signed : Bool) (e : TopEnt) : List TopEnt → List TopEnt
  | [] => [e]
  | x :: t => if topBefore signed e x then e :: x :: t else x :: topInsert signed e t

/-- The lane with its entries; an ARGMAX lane shows its entry in VALUE and AUX (04 R146). -/
def withTops (l : Lane) (ts : List TopEnt) : Lane :=
  if l.op = 8 then
    match ts with
    | [] => { l with tops := [], value := 0, aux := 0xFFFFFFFF }
    | e :: _ => { l with tops := [e], value := e.value, aux := BitVec.ofNat 32 (e.addr.toNat + e.item.toNat * 2 ^ 24) }
  else { l with tops := ts.take (l.km1 + 1) }

/-- The exact 96-bit sum of a SUM64 lane (04 R140). -/
def laneSum (l : Lane) : Int := sext 96 (l.value.toNat + l.aux.toNat * 2 ^ 64)

/-- A SUM64 lane with a new sum (04 R140). -/
def withSum (l : Lane) (s : Int) : Lane :=
  let n := wrapN 96 s
  { l with value := BitVec.ofNat 64 n, aux := BitVec.ofNat 32 (n / 2 ^ 64) }

/-- The scalar operators SMIN to UMAX, OR and AND on two values (04 R139). -/
def scalarOp (op : Nat) (a b : BitVec 64) : BitVec 64 :=
  if op = 1 then (if b.toInt < a.toInt then b else a)
  else if op = 2 then (if a.toInt < b.toInt then b else a)
  else if op = 3 then (if b.toNat < a.toNat then b else a)
  else if op = 4 then (if a.toNat < b.toNat then b else a)
  else if op = 6 then a ||| b
  else a &&& b

/-- Count of a bucket. -/
def bucket (c : List (Nat × Nat)) (k : Nat) : Nat := match c.find? fun p => p.1 == k with | some p => p.2 | none => 0

/-- Add to a bucket, kept in ascending order. -/
def bucketPut (k n : Nat) : List (Nat × Nat) → List (Nat × Nat)
  | [] => [(k, n)]
  | (j, m) :: t => if j = k then (k, n) :: t else if k < j then (k, n) :: (j, m) :: t else (j, m) :: bucketPut k n t

/-- A bucket count adds with saturation, which sets SAT (04 R141). -/
def bucketAdd (l : Lane) (k n : Nat) : Lane :=
  let s := bucket l.counts k + n
  { l with counts := bucketPut k (min s 0xFFFFFFFF) l.counts, sat := l.sat || decide (s > 0xFFFFFFFF) }

/-- Floor of log2 of a positive number. -/
def log2f (v : Nat) : Nat := Nat.log2 v

/-- The HIST64 bucket of a shifted value, and whether it clamps (04 R143). -/
def histBucket (v : Int) : Nat × Bool :=
  if v < 0 then (0, true) else if v = 0 then (0, false) else (min 63 (log2f v.toNat + 1), false)

/-- The largest j in 0..31 with m^32 ≥ 2^(992 + j) (04 R144). -/
def sketchJ (m : Nat) : Nat := ((List.range 32).filter fun j => decide (2 ^ (992 + j) ≤ m ^ 32)).foldl max 0

/-- The SKETCH bucket of a shifted value, and whether it clamps (04 R144). -/
def sketchBucket (v : Int) : Nat × Bool :=
  if v < 1 then (0, true)
  else if v ≥ 2 ^ 32 then (1023, true)
  else
    let n := v.toNat
    let e := log2f n
    (32 * e + sketchJ (n * 2 ^ (31 - e)), false)

/-- Fold of one item into a lane (04 R138-R144): `x` is the item before NEG. -/
def foldItem (d : LaneD) (l : Lane) (x0 : BitVec 64) (addr : Node) (item : Nat) : Lane :=
  let x := if d.neg then 0 - x0 else x0
  if l.op = 0 then withSum l (laneSum l + x.toInt)
  else if l.op = 5 then { l with value := l.value + 1 }
  else if l.op < 8 then { l with value := scalarOp l.op l.value x }
  else if l.op < 10 then
    let l' := if l.op = 9 then { l with value := l.value + 1 } else l
    withTops l' (topInsert l.signed ⟨x, addr, BitVec.ofNat 8 item⟩ l.tops)
  else
    let v := asr (if l.signed then x.toInt else (x.toNat : Int)) d.shift
    let b := if l.op = 10 then histBucket v else sketchBucket v
    let l := { l with value := l.value + 1 }
    let l := if b.2 then { l with clamp := true, aux := satInc l.aux } else l
    bucketAdd l b.1 1

/-- Merge of two partial lanes of one operator (04 R139): the fold of every item of `b` into `a`. -/
def mergeLane (a b : Lane) : Lane :=
  let a := { a with sat := a.sat || b.sat, clamp := a.clamp || b.clamp, void := a.void || b.void
                    ovfin := a.ovfin || b.ovfin }
  if a.op = 0 then withSum a (laneSum a + laneSum b)
  else if a.op = 5 then { a with value := a.value + b.value }
  else if a.op < 8 then { a with value := scalarOp a.op a.value b.value }
  else if a.op < 10 then
    let a' := if a.op = 9 then { a with value := a.value + b.value } else a
    withTops a' (b.tops.foldl (fun (l : List TopEnt) e => topInsert a.signed e l) a.tops)
  else
    let a := { a with value := a.value + b.value, aux := satAdd a.aux b.aux.toNat }
    b.counts.foldl (fun (l : Lane) p => bucketAdd l p.1 p.2) a

/-- Merge of two lists of lanes. -/
def mergeLanes (a b : List Lane) : List Lane := (a.zip b).map fun (p : Lane × Lane) => mergeLane p.1 p.2

/-- A lane as a result delivers it: SUM64 saturated to 64 bits (04 R140). -/
def deliverLane (l : Lane) : Lane :=
  if l.op = 0 then
    let s := laneSum l
    let c := clampI (-(2 ^ 63)) (2 ^ 63 - 1) s
    { withSum l c with sat := l.sat || decide (c ≠ s) }
  else l

/-- Bytes of a lane (04 R146, R147). -/
def laneBytes (l : Lane) : List Byte :=
  let ctrl := l.op + 16 * l.km1 + 256 * b2n l.signed + 512 * b2n l.sat + 1024 * b2n l.clamp + 2048 * b2n l.void
    + 4096 * b2n l.ovfin
  let ent := fun (e : TopEnt) => leBytes 8 e.value.toNat ++ leBytes 3 e.addr.toNat ++ leBytes 1 e.item.toNat ++ zeros 4
  let empty := zeros 8 ++ leBytes 3 0xFFFFFF ++ leBytes 1 0xFF ++ zeros 4
  let cnt := fun (n : Nat) => ((List.range n).map fun k => leBytes 4 (bucket l.counts k)).flatten
  leBytes 4 ctrl ++ leBytes 4 l.aux.toNat ++ leBytes 8 l.value.toNat
    ++ (if l.op = 9 then (l.tops.map ent).flatten ++ (List.replicate (l.km1 + 1 - l.tops.length) empty).flatten
        else if l.op = 10 then cnt 64 else if l.op = 11 then cnt 1024 else [])

/-- The value of an item of a delivered lane, for a lane feature (05 R174); none when the lane has no such item. An empty
ARGMAX lane has VALUE 0 (04 R146). -/
def laneItem (l : Lane) (k : Nat) : Option Nat :=
  if l.op = 9 then (l.tops[k]?).map fun e => e.value.toNat
  else if l.op = 10 then (if k < 64 then some (bucket l.counts k) else none)
  else if l.op = 11 then (if k < 1024 then some (bucket l.counts k) else none)
  else some (deliverLane l).value.toNat

end Sys2Proof.Machine
end

