-- ==== Sys2Proof/Machine/PartsFleet.lean ====
section
/-! DEFINITION. The state of the aggregator's fleet side: the fleet ports and the Sluice (11), the journal (09), the
roles (01) and the vote (08), the hang assembly (12). Plain data throughout. -/

namespace Sys2Proof.Machine

/-- A frame in a transmit queue (11, "The Sluice"). -/
structure TxFrame where
  cls : Nat
  dest : Node
  /-- DEST is a collector's index. -/
  col : Bool
  lat : Bool
  /-- Payload bytes. -/
  len : Nat
  msg : FleetMsg
  /-- Stream of an FREC or FVOID frame, by JRN index. -/
  stream : Option Nat
  /-- Timebase reading when it was queued. -/
  at_ : Nat
  deriving DecidableEq, Repr

/-- MACsec of a port (11 R403-R405). -/
structure MSec where
  /-- MKA is live; a key is installed. -/
  live : Bool
  keyed : Bool
  xpn : Bool
  an : Nat
  /-- Transmit packet number. -/
  pn : Nat
  /-- A rekey is pending. -/
  rekey : Bool
  deriving DecidableEq, Repr

/-- A fleet port (11 R391-R405, R413). -/
structure FPort where
  /-- 0 DOWN, 1 TRAINING, 2 UP. -/
  state : Nat
  speed : Nat
  fec : Nat
  cfgErr : Bool
  an : Bool
  pseq : Nat
  /-- Timebase reading at which the frame in progress ends. -/
  busy : Nat
  /-- Queues by class, head first. -/
  queues : Tab (List TxFrame)
  msec : MSec
  /-- Last PSEQ per sender: 2^24 for a collector, plus its address. -/
  seen : Tab Nat
  deriving DecidableEq, Repr

/-- A gate control list that runs or is to run (11 R407, R408): masks and intervals in ns, base time, and the instant
at which it takes over. -/
structure Gcl where
  ents : List (Nat × Nat)
  base : Nat
  start : Nat
  deriving DecidableEq, Repr

/-- Queue samples of a class (11 R412): running values, and those of the last epoch. -/
structure QStat where
  maxd : Nat
  sum : Nat
  maxh : Nat
  n : Nat
  cmaxd : Nat
  csum : Nat
  cmaxh : Nat
  cn : Nat
  deriving DecidableEq, Repr

/-- The Sluice of a port (11 R407-R412, R415). -/
structure SluPort where
  /-- Administrative entries that differ from the reset entry. -/
  adm : Tab (Nat × Nat)
  pend : Option Gcl
  oper : Option Gcl
  /-- Operative entry whose gates apply. -/
  cur : Nat
  /-- The operative list fails the check at the rate in force: all gates are open (R409). -/
  open_ : Bool
  /-- Queue samples by class. -/
  q : Tab QStat
  deriving DecidableEq, Repr

/-- An entry of a journal stream (09 R347, R349, R340). -/
inductive JEnt where
  | rcd (r : Rec)
  | void (seq : Seq)
  /-- A new series begins here; the last SEQ journaled of the old one (R340). -/
  | reset (last : Seq)
  deriving DecidableEq, Repr

/-- A stream of the journal (09 R347-R356). -/
structure JStream where
  src : Node
  cls : RecClass
  /-- Journal entry valid. -/
  valid : Bool
  /-- Last journaled, last sink-acknowledged, last sent SEQ. -/
  jseq : Option Seq
  sseq : Option Seq
  sent : Option Seq
  /-- Bytes already queued of the record after `sent`. -/
  sofs : Nat
  /-- A RESTART marker has arrived: the next record starts or continues the entry. -/
  base : Bool
  /-- The next ACK carries NACK; ACKs carry NOBASE. -/
  nack : Bool
  nobase : Bool
  /-- CHK of the record of SEQ 0 of the series. -/
  first : Option Word
  /-- Journaled and not yet acknowledged by a collector, oldest first; empty for the aggregator's own streams. -/
  ents : List JEnt
  fwd : Bool
  /-- SYNC sent, at this oscillator count, and not yet answered. -/
  sync : Option Nat
  /-- JRN_SINK index in use, fleet port in use. -/
  sink : Nat
  port : Option Nat
  /-- Oscillator count of the last SACK progress. -/
  progress : Nat
  /-- JSEQ or SSEQ changed since the last JSTATE. -/
  changed : Bool
  deriving DecidableEq, Repr

/-- The journal and its seals (09 R347-R362). -/
structure Jrn where
  ready : Bool
  /-- Forwarding for the partner (R352). -/
  take : Bool
  /-- Flush to flash running, started by the power-fail warning at this oscillator count (R359). -/
  warn : Option Nat
  flushing : Bool
  flushed : Bool
  afterLoss : Bool
  /-- Streams by JRN index. -/
  streams : Tab JStream
  /-- Partner's JSTATE. -/
  partner : List JPair
  /-- Records and voids whose journal write has not completed, oldest first, by JRN index. -/
  writes : List (Nat × LogBody)
  /-- Records being reassembled: the bytes so far, by ORIG and class as a JRN index (10 R378). -/
  parts : Tab (List Byte)
  /-- FULL was set in the last ACKs. -/
  full : Bool
  /-- Oscillator count of the last ACK per die (32P + D), and of the last full JSTATE, JSTATE. -/
  acked : Tab Nat
  fullState : Nat
  lastState : Nat
  /-- H of the latest SEAL part, in flash (R362). -/
  prev : Option Digest
  /-- Last BLOCK sealed. -/
  block : Option Nat
  /-- Highest SEQ covered by earlier blocks, by JRN index. -/
  covered : Tab Nat
  /-- Entries forwarded that earlier blocks have not covered, each with the number of the block in which it was forwarded;
  a collector may already have acknowledged them (R361). -/
  uncovered : Tab (List (Nat × JEnt))
  /-- Entries flushed to flash (R356, R359): SRC, CLASS, FIRST, LAST. -/
  flash : List (Node × RecClass × Seq × Seq)
  deriving DecidableEq, Repr

/-- What a side holds about a die of its tray (08 R286). -/
structure DieVote where
  /-- ENS, WIT, NOVOTE, DRIFT, MARGIN as the latest HEALTH record gives them. -/
  comps : List Nat
  lscore : Nat
  hard : Nat
  /-- The verdict EXPEL with cause WIT was reported: the witness state is PROPOSED. -/
  proposed : Bool
  /-- SILENT from this side (R284). -/
  silent : Bool
  comp : Nat
  since : Tab Nat
  cause : Nat
  score : Nat
  deriving DecidableEq, Repr

/-- A verdict in force for a subject (08 R301, R304). -/
structure InForce where
  verd : Nat
  decid : Nat
  governed : Bool
  deriving DecidableEq, Repr

/-- A proposal that this side repeats (08 R303). -/
structure Proposing where
  p : Proposal
  /-- Oscillator count of the last sending; resends so far. -/
  at_ : Nat
  n : Nat
  deriving DecidableEq, Repr

/-- A proposal that the decider holds (08 R304). -/
structure Held where
  src : Node
  p : Proposal
  /-- Not yet decided upon. -/
  new : Bool
  deriving DecidableEq, Repr

/-- A decision that waits for its COMMIT (08 R305, R306). -/
structure Decision where
  f : Fence
  props : List Proposal
  /-- System scope: decided by the system pair. -/
  sys : Bool
  /-- Group decider of a system-scoped decision: after the COMMIT it is escalated. -/
  escalate : Bool
  escalated : Bool
  at_ : Nat
  n : Nat
  deriving DecidableEq, Repr

/-- A published fence that waits for FACKs (08 R307). -/
structure Published where
  f : Fence
  sys : Bool
  /-- Receivers that have not answered, and the fence as each gets it. -/
  dst : List (Node × Fence)
  at_ : Nat
  n : Nat
  deriving DecidableEq, Repr

/-- A watch group instance that an aggregator holds or owns (08 R288-R294). -/
structure WGroup where
  wgid : Nat
  gen : Nat
  /-- Member trays (G and T) with eight die masks each; of another's group only the own tray's. -/
  trays : List (Nat × List Nat)
  /-- Next FSEQ, from the fences published or received (R297, R312). -/
  next : Nat
  from_ : Nat
  until_ : Option Nat
  /-- It is spanning: its owner is the system-root pair (R289). -/
  span : Bool
  deriving DecidableEq, Repr

/-- A chain command in flight (08 R318, R319). -/
structure InFlight where
  port : Nat
  cmd : ChainCmd
  /-- Masks of the own and of the partner's copy. -/
  own : Option Nat
  other : Option Nat
  at_ : Nat
  reissued : Bool
  deriving DecidableEq, Repr

/-- A subject of the governed queue (08 R316). -/
structure Governed where
  subj : Node
  score : Nat
  at_ : Nat
  deriving DecidableEq, Repr

/-- A role of the pair (01 R39-R42; 08 R311, R312). -/
structure Role where
  held : Bool
  /-- Its term, when held. -/
  term : Nat
  /-- Oscillator count from which a vacancy counts: the last claim heard, the last own claim of a role given up, or the
  fleet join; and that of the winning own claim. -/
  heard : Option Nat
  won : Nat
  /-- Tray address of the holder last heard. -/
  holder : Node
  /-- Quiet period runs. -/
  quiet : Bool
  isolated : Bool
  /-- Oscillator count of the last claim sent. -/
  sent : Option Nat
  deriving DecidableEq, Repr

/-- Admission of a repaired tray (08 R322, R323). -/
structure Admission where
  state : Nat
  wgid : Nat
  /-- Sweep periods ended, and the oscillator count of the start of the one in course. -/
  step : Nat
  at_ : Nat
  failed : Bool
  /-- WIT_RATE.RBASE of the dies before the sweep, as read, by 32P + D. -/
  rbase : Tab Nat
  deriving DecidableEq, Repr

/-- The vote engine and the roles (01, 08). -/
structure Vote where
  /-- By 32P + D. -/
  dies : Tab DieVote
  /-- Levels of the aggregator's own ensembles and dense outputs: key of the output, scope 0 package or 1 tray, scope
  address, level (R281). -/
  ens : List (Nat × Nat × Nat × Nat)
  /-- By subject address. -/
  inforce : Tab InForce
  props : Tab Proposing
  held : List Held
  decisions : Tab Decision
  pubs : List Published
  /-- Oscillator count of the last TRAY_BEAT by sender address, of the last GROUP_BEAT by sender address. -/
  beats : Tab Nat
  gbeats : Tab Nat
  /-- Admission state and candidacy bits of the partner, from its latest TRAY_BEAT. -/
  padm : Nat
  pcand : Nat
  /-- Governor log: subject, TF, HARD. -/
  log : List (Node × Nat × Bool)
  governed : List Governed
  /-- Subjects whose decision was refused: the next repeat is decided afresh (R305). -/
  void : List Node
  /-- Next decision number. -/
  decn : Nat
  groups : List WGroup
  /-- Fences of the instances held, as this tray got them, for dies that ask again (R297). -/
  fences : List Fence
  /-- ADMIT fences whose instant has not come (R324). -/
  admits : List Fence
  /-- Metrics in DRIFT by the drift records of the tray's dies: 32P + D, metric (R323). -/
  drift : List (Nat × Nat)
  /-- Next GEN: the system root's counter, in flash (R288). -/
  gens : Nat
  group : Role
  system : Role
  /-- Next CSEQ per downstream port. -/
  cseq : Tab Nat
  flights : List InFlight
  adm : Admission
  deriving DecidableEq, Repr

/-- A die's latest WAITFOR record (12 R440, R442). -/
structure DieGraph where
  /-- Source agent, target agent, target die. -/
  edges : List (Nat × Nat × Node)
  power : Bool
  time : Nat
  deriving DecidableEq, Repr

/-- An assembly that a decider runs (12 R444). -/
structure Assembly where
  asmn : Nat
  /-- Oscillator count of its start. -/
  at_ : Nat
  closed : Bool
  /-- Trays, or groups, that answered; cycles; exits; answers to the queries. -/
  from_ : List Node
  cycles : List HangCycle
  exits : List (Word × Word)
  rsps : List WalkRsp
  /-- Queries sent and not answered: queried vertices. -/
  asked : List Word
  deriving DecidableEq, Repr

/-- The hang assembly of an aggregator (12). -/
structure Hang where
  dies : Tab DieGraph
  /-- The group's and the system's assembly in course. -/
  group : Option Assembly
  system : Option Assembly
  /-- The last completed group assembly, from which a group decider answers the system decider. -/
  kept : Option Assembly
  /-- Vertices that the system decider has asked of this group and that are not yet answered. -/
  wanted : List Word
  /-- Vertices that it has asked of trays for them. -/
  probes : List Word
  /-- Cycles of the last completed group and system assembly. -/
  lastGroup : List HangCycle
  lastSystem : List HangCycle
  /-- Number of the last assembly instant acted on (08 R325). -/
  period : Option Nat
  lastAsmn : Nat
  lastCycles : Nat
  lastExits : Nat
  deriving DecidableEq, Repr

end Sys2Proof.Machine
end

