-- ==== Sys2Proof/Machine/PartsAgg.lean ====
section
/-! DEFINITION. The state that only the aggregator has. Plain data throughout. -/

namespace Sys2Proof.Machine

/-- Status of a chain as a head sees it (01 R29-R34, R47). -/
inductive ChainStatus where
  | empty | complete | split | miswired
  deriving DecidableEq, Repr

/-- A downstream port (01 R29-R34). -/
structure Chain where
  len : Nat
  status : ChainStatus
  /-- Last D reached when split. -/
  last : Nat
  /-- Status and last D before the latest change, and the oscillator count of the change (04 R153). -/
  oldStatus : ChainStatus
  oldLast : Nat
  changed : Nat
  /-- Oscillator count of the start of an enumeration in course. -/
  enumAt : Option Nat
  /-- GMASK of the last completed enumeration, until SETGEN is issued (10 R367). -/
  gmask : Option Nat
  /-- Side B: oscillator count at which its B pass was sent on a chain whose A pass it does not have (01 R33, R34). -/
  bAt : Option Nat
  /-- Side B: an A pass has been started since the head hop came up, as far as this side can tell (01 R34). -/
  aSent : Bool
  deriving DecidableEq, Repr

/-- An entry of the reduction engine (04 R155-R160). -/
structure RdxEnt where
  key : RdxKey
  /-- Instant of its epoch, and TQ when it was allocated. -/
  time : Nat
  tq : Nat
  deadline : Nat
  /-- Contributors above package scope: those expected, those that arrived, and whether all came COMPLETE. -/
  expect : List Nat
  got : List Nat
  /-- Contributors whose own result came LOST or SKIPPED: they have not arrived, and no more comes from them (R161). -/
  lostBy : List Nat
  allOk : Bool
  nexp : Nat
  ngot : Nat
  contrib : Nat
  sref : Nat
  rept : Bool
  lanes : Option (List Lane)
  /-- STATUS once completed; the entry then waits to be freed. -/
  done : Option Nat
  /-- PLAN section in force at its epoch. -/
  plans : List Byte
  deriving DecidableEq, Repr

/-- An epoch that fired on an aggregator (04 R148): kind, number, instant, and the PLAN section in force at it. -/
structure AggEpoch where
  fast : Bool
  num : Nat
  time : Nat
  plans : List Byte
  deriving DecidableEq, Repr

/-- The reduction engine (04). -/
structure AggRdx where
  ents : List RdxEnt
  /-- Highest number of entries since RDX_FULLCNT was read. -/
  high : Nat
  /-- Latest completed EPN by plan, scope and scope address (R160). -/
  marks : List (Nat × Nat × Nat × Nat)
  /-- Results with the instants of their epochs, latest first: those of the last 66 ms, and the latest of each plan, scope and
  scope address (05 R174). -/
  results : List (Nat × RdxResult)
  /-- Epochs fired whose launch instants may still come, latest first (R148). -/
  recent : List AggEpoch
  /-- Instant of the last epoch whose launch instant has passed here: 8 × plan + port. -/
  launched : Tab Nat
  /-- Launched and not known to have arrived: 8 × plan + port; EPN and package deadline (R150). -/
  flight : Tab (Nat × Nat)
  /-- Owner's or handed-over SREF value: 8 × plan + port; EPN and value (R163). -/
  sref : Tab (Nat × Nat)
  /-- SREF of the previous runner of the plan on the port (R163 REPEAT). -/
  prevSref : Tab Nat
  /-- Straggler histories: 256 × plan + 32 × port + die; newest last (R164). -/
  hist : Tab (List Bool)
  /-- Per plan: EPN, STATUS and NGOT of the last entry completed. -/
  last : Tab (Nat × Nat × Nat)
  deriving DecidableEq, Repr

/-- The pair handshake (18 R590). -/
structure Pair where
  /-- Partner's HELLO. -/
  hello : Option Hello
  /-- The handshake is complete; the side proceeds alone; the last HELLO failed it. -/
  done : Bool
  alone : Bool
  failed : Bool
  /-- Oscillator count of the start, and of the last HELLO sent. -/
  since : Nat
  sent : Option Nat
  deriving DecidableEq, Repr

/-- The CRU mirror (17 R568): the latest LIVE, READING, LOGENT and IDENT frames. -/
structure Mirror where
  /-- Oscillator count of the last good frame. -/
  seen : Option Nat
  stat : Nat
  emj : Nat
  efrac : Nat
  time : Nat
  vlast : Nat
  ilast : Nat
  /-- RSEQ, REVCNT, OVRCNT and PARCRC of the latest reading. -/
  rseq : Option Nat
  revcnt : Nat
  ovrcnt : Nat
  parcrc : Nat
  logn : Nat
  swid : Nat
  swcrc : Nat
  mid : Nat
  pars : List Word
  /-- Log entries received, by number. -/
  log : Tab (List Byte)
  /-- EMJ of the previous ENERGY record of EKIND 0 (R567). -/
  last : Option Nat
  deriving DecidableEq, Repr

/-- What the pair does with a register of a die that it reads for itself: the field that it then writes, and the value, or
none for the field as it was before the sweep (08 R322; 13 R459). -/
structure PxEdit where
  die : Nat
  ofs : Nat
  hi : Nat
  lo : Nat
  value : Option Nat
  deriving DecidableEq, Repr

/-- A proxy access of a slot that is not yet answered (01 R49-R51; 10 R375). -/
structure PxReq where
  /-- Oscillator count of its sending. -/
  at_ : Nat
  write : Bool
  wide : Bool
  /-- Which 32-bit word of the answer a read fills. -/
  word : Nat
  /-- The target holds no address: the access fails in its turn (01 R50, R51). -/
  bad : Bool
  /-- The pair's own read, whose answer no port gets. -/
  edit : Option PxEdit
  deriving DecidableEq, Repr

/-- The aggregator. Mark: DESIGN CHOICE (log entry 1, safe). -/
structure Agg where
  /-- The core supplies are in range and power-on reset is released (18 R587, R589). -/
  powered : Bool
  /-- SYS_RST_N fell while the power-fail sequence ran: the system reset waits for the flush (19 R608). -/
  resetDue : Bool
  u : Unit
  /-- Downstream ports 0-7. -/
  chains : Tab Chain
  /-- Oscillator count of the last frame of each die unit that is reachable from this head (10 R379), by 32P + D. -/
  heard : Tab Nat
  /-- Oscillator count at which a die unit ceased to be reachable from this head (08 R284), by 32P + D. -/
  lostAt : Tab Nat
  pair : Pair
  /-- Node override in flash: G and T (01 R37; 16 R541). -/
  ovr : Option Nat
  /-- Connectivity association keys in flash, by fleet port: CKN and the key as it was wrapped (11 R404; 16 R541). -/
  cak : Tab (Nat × List Byte)
  /-- The aggregator has joined the fleet (01 R37, 18 R592). -/
  joined : Bool
  /-- Oscillator count of the fleet join (08 R326). -/
  joinAt : Nat
  /-- The partner is heard and has joined. -/
  partner : Bool
  rdx : AggRdx
  /-- Proxy accesses in flight by slot, oldest first. -/
  px : Tab (List PxReq)
  /-- Fleet ports 0-7 and their Sluice. -/
  ports : Tab FPort
  slu : Tab SluPort
  /-- Main epoch whose end the queue samples were last copied at (11 R412). -/
  sluEpoch : Nat
  jrn : Jrn
  vote : Vote
  hang : Hang
  cru : Mirror
  /-- The Crucible is fused off (17 R566). -/
  cruOff : Bool
  deriving DecidableEq, Repr

end Sys2Proof.Machine
end

