-- ==== Sys2Proof/Machine/Sluice.lean ====
section
/-! DEFINITION. Fleet ports and the Sluice (11_fleet_ports_sluice): frames and their lengths, the transmit queues and the
choice of port (R393-R401), arrival and discard (R24, R26, R396, R402), MACsec packet numbers (R403-R405), the gate
control lists and the choice of a frame (R407-R411), queue sampling (R412). -/

namespace Sys2Proof

/-- Bytes of a chain operation's arguments (10 R380; 08 R295; 16 R534; 18 R591). The spec lays out no argument of SETGEN:
a generation and an instant are taken. Mark: DEDUCED (log entry 49, unsafe). -/
def ChainOp.alen : ChainOp → Nat
  | .fence f => 48 + f.ext.length
  | .setgen _ _ => 11
  | .patBegin _ _ => 8
  | .patChunk _ _ b => 8 + b.length
  | .patEnd _ => 4
  | .pairUp u => 8 + u.cert.length
  | .powerFail => 0
  | .wake _ => 4

/-- Bytes of a graph message's body (12 R443). -/
def HangGraph.len (g : HangGraph) : Nat := 16 + (g.cycles.map fun c => 4 + 4 * c.verts.length).sum + 8 * g.exits.length

/-- Bytes of a vote message's body (08 R302, 12 R443, 18 R590). -/
def VoteBody.len : VoteBody → Nat
  | .trayBeat _ => 12
  | .propose _ => 24
  | .decide f ps => 48 + f.ext.length + 24 * ps.length
  | .commit _ _ => 12
  | .escalate f ps => 48 + f.ext.length + 24 * ps.length
  | .fence f => 48 + f.ext.length
  | .fack _ _ _ _ => 16
  | .groupBeat _ _ => 8
  | .relay fs => (fs.map fun f => 48 + f.ext.length).sum
  | .trayGraph g => g.len
  | .entryQ _ ws => 12 + 4 * ws.length
  | .entryRsp _ _ _ rs => 12 + (rs.map fun r => 12 + 4 * r.path.length).sum
  | .groupGraph g => g.len
  | .hello _ => 48

/-- Bytes of a fleet payload (11 R396, R397, R399). -/
def FleetMsg.len : FleetMsg → Nat
  | .vote _ b => 16 + b.len
  | .role _ _ _ => 12
  | .jstate l => 8 + 16 * l.length
  | .cmdHand _ c => 4 + 20 + c.op.alen
  | .maskRet _ _ _ => 16
  | .srefHand _ _ _ _ => 20
  | .frec _ _ _ _ _ _ d => 8 + d.length
  | .fvoid _ _ _ => 12
  | .sync l => 4 + 12 * l.length
  | .streamReset l => 4 + 12 * l.length
  | .frun _ r => 32 + (r.lanes.map fun l => Machine.laneSize l.op l.km1).sum
  | .mgmt b => b.length
  | .delayReq => 44

/-- FTYPE of a fleet frame (11 R396); a PTP frame is none. -/
def FleetMsg.ftype : FleetMsg → Nat
  | .frec _ _ _ _ _ _ _ => 0x20
  | .sync _ => 0x22
  | .streamReset _ => 0x24
  | .frun _ _ => 0x25
  | .vote _ _ => 0x26
  | .role _ _ _ => 0x27
  | .jstate _ => 0x28
  | .cmdHand _ _ => 0x28
  | .maskRet _ _ _ => 0x28
  | .srefHand _ _ _ _ => 0x28
  | .mgmt _ => 0x29
  | .fvoid _ _ _ => 0x2A
  | .delayReq => 0

/-- FVOTE frames of DECIDE, COMMIT, ESCALATE, RELAY and PAIRHELLO, and FPAIR and FROLE frames, set LAT (11 R396;
18 R590). -/
def FleetMsg.lat : FleetMsg → Bool
  | .vote _ (.decide _ _) => true
  | .vote _ (.commit _ _) => true
  | .vote _ (.escalate _ _) => true
  | .vote _ (.relay _) => true
  | .vote _ (.hello _) => true
  | .role _ _ _ => true
  | .jstate _ => true
  | .cmdHand _ _ => true
  | .maskRet _ _ _ => true
  | .srefHand _ _ _ _ => true
  | _ => false

end Sys2Proof

namespace Sys2Proof.Machine

/-- Apply a function to the common part of an aggregator. -/
def Agg.onU (a : Agg) (f : Unit → Unit) : Agg := { a with u := f a.u }

/-- A port's MACsec at reset. -/
def msec0 : MSec := ⟨false, false, false, 0, 0, false⟩

/-- A fleet port at reset: down. -/
def port0 : FPort := ⟨0, 0, 0, false, false, 0, 0, [], msec0, []⟩

/-- A port's Sluice at reset. -/
def slu0 : SluPort := ⟨[], none, none, 0, false, []⟩

/-- Samples restarted. -/
def qstat0 : QStat := ⟨0, 0, 0, 0, 0, 0, 0, 0⟩

/-- A fleet port. -/
def Agg.port (a : Agg) (p : Nat) : FPort := Tab.getD a.ports p port0

/-- Put a fleet port. -/
def Agg.setPort (a : Agg) (p : Nat) (x : FPort) : Agg := { a with ports := Tab.put p x a.ports }

/-- The Sluice of a port. -/
def Agg.sluice (a : Agg) (p : Nat) : SluPort := Tab.getD a.slu p slu0

/-- Put the Sluice of a port. -/
def Agg.setSlu (a : Agg) (p : Nat) (x : SluPort) : Agg := { a with slu := Tab.put p x a.slu }

/-- A fleet port is up. -/
def Agg.portUp (a : Agg) (p : Nat) : Bool := (a.port p).state == 2

/-- Ports of a mask that are up, ascending. -/
def Agg.upPorts (a : Agg) (mask : Nat) : List Nat := (bitList mask 8).filter a.portUp

/-- Bytes of a frame on the wire without the overhead of R409: header, fill and MACsec (R393, R409). -/
def Agg.frameBytes (a : Agg) (p len : Nat) : Nat :=
  max 64 (14 + 4 * b2n (a.u.bit Reg.fltAtCfg 23 p) + 16 + len + 4) + 32 * b2n (a.u.bit Reg.fltAtMsecctl 0 p)

/-- Rate of a SPEED, Gb/s (R391). -/
def speedRate (s : Nat) : Nat := if s = 1 then 100 else if s = 2 then 50 else 25

/-- Bytes of a frame on the wire without the overhead of R409. A Delay_Req of 44 bytes has neither fleet header nor VLAN tag
and bypasses MACsec (R406). Mark: PRESUMED (log entry 52, unsafe). -/
def Agg.wireLen (a : Agg) (p : Nat) (f : TxFrame) : Nat :=
  match f.msg with
  | .delayReq => 64
  | _ => a.frameBytes p f.len

/-- Transmission time of some bytes, FRAC units (R409). -/
def Agg.timeOf (a : Agg) (p bytes : Nat) : Nat :=
  let n := bytes + a.u.fld Reg.sluAtMode 15 8 p
  let d := speedRate (a.port p).speed * 1000000000
  (n * 8 * 2 ^ 32 + d - 1) / d

/-- Transmission time of a payload (R409). -/
def Agg.txTime (a : Agg) (p len : Nat) : Nat := a.timeOf p (a.frameBytes p len)

/-- Largest payload of a class (R407). -/
def Agg.maxPayload (a : Agg) (p cls : Nat) : Nat := if cls = 2 then 8704 else a.u.fld Reg.fltAtSegmax 13 0 p + 8

/-- Capacity of a class's queue, bytes (11, "The Sluice"). -/
def queueCap (cls : Nat) : Nat := nth [16384, 32768, 65536, 131072, 131072] cls 0

/-- Queue of a class. -/
def FPort.queue (x : FPort) (cls : Nat) : List TxFrame := Tab.getD x.queues cls []

/-- Depth of a queue, bytes. -/
def Agg.depth (a : Agg) (p cls : Nat) : Nat := (((a.port p).queue cls).map fun f => a.wireLen p f).sum

/-- QDISC register of a class. -/
def qdisc (cls : Nat) : Nat := Reg.sluAtQdisc0 + 32 * cls

/-- Queue a frame on a port; false when it finds its queue full. -/
def Agg.enqueue (a : Agg) (p : Nat) (f : TxFrame) : Agg × Bool :=
  if a.depth p f.cls + a.wireLen p f ≤ queueCap f.cls then
    let x := a.port p
    (a.setPort p { x with queues := Tab.put f.cls (x.queue f.cls ++ [f]) x.queues }, true)
  else (a, false)

/-- Send a message to an aggregator or a multicast address: the lowest up port of FLT_CTLMASK, each resend one port on
(R400). Without a port it is not sent. Mark: DEDUCED (log entry 52, unsafe). -/
def Agg.send (a : Agg) (dest : Node) (cls : Nat) (m : FleetMsg) (resends : Nat) : Agg :=
  let ps := a.upPorts (a.u.fld Reg.fltCtlmask 7 0)
  match ps[resends % max 1 ps.length]? with
  | none => a
  | some p =>
    let r := a.enqueue p ⟨cls, dest, false, m.lat, m.len, m, none, a.u.tb.now⟩
    if r.2 then r.1 else a.onU fun u => u.count (qdisc cls) p

/-- Ports that a collector's entry allows (R400, R413). -/
def Agg.colMask (a : Agg) (col : Nat) : Nat := a.u.fld Reg.fltColmach 23 16 col

/-- A collector table entry is valid. -/
def Agg.colValid (a : Agg) (col : Nat) : Bool := a.u.bit Reg.fltColmach 31 col

/-- Send a control message to a collector on a port. -/
def Agg.sendCol (a : Agg) (p col : Nat) (m : FleetMsg) : Agg :=
  let r := a.enqueue p ⟨1, BitVec.ofNat 24 col, true, m.lat, m.len, m, none, a.u.tb.now⟩
  if r.2 then r.1 else a.onU fun u => u.count (qdisc 1) p

/-- Control address of a group (08 R290). -/
def groupCtl (g : Nat) : Node := BitVec.ofNat 24 (0xE00000 + g % 64 * 2 ^ 14)

/-- Control address of the system (08 R290). -/
def systemCtl : Node := 0xF00000

/-- Address of a side of the tray with a G and T field (01 R25). -/
def sideAddr (gt : Nat) (s : Side) : Node := BitVec.ofNat 24 (2 ^ 22 * (s.ix + 1) + gt % 4096 * 1024)

/-- The address that the straps and the node override give (01 R37): G and T of a valid override in place of the straps',
KIND of SIDE_B alone. -/
def Agg.identity (a : Agg) : Node :=
  sideAddr ((a.ovr).getD (a.u.fld Reg.glbStraps 5 0 * 64 + a.u.fld Reg.glbStraps 11 6))
    (if a.u.bit Reg.glbStraps 12 then .b else .a)

/-- Watch-group address of a WGID (08 R290). -/
def wgAddr (w : Nat) : Node := BitVec.ofNat 24 (0xC00000 + w % 4096 * 512)

/-! ### Frames -/

/-- The fleet header of a frame (R395). -/
def Agg.fleetHead (a : Agg) (p : Nat) (f : TxFrame) : List Byte :=
  leBytes 1 1 ++ leBytes 1 f.msg.ftype ++ leBytes 1 (f.cls + 8 * b2n f.lat + 16 * b2n f.col) ++ zeros 1
    ++ leBytes 3 f.dest.toNat ++ leBytes 3 a.u.node.toNat ++ leBytes 2 f.len ++ leBytes 4 (a.port p).pseq

/-- MAC address of a node or multicast address, and of a collector's entry (R394). -/
def Agg.macOf (a : Agg) (dest : Node) (col : Bool) : BitVec 48 :=
  let d := dest.toNat
  BitVec.ofNat 48 (if col then a.u.rdN Reg.fltColmacl (d % 256) + 2 ^ 32 * a.u.fld Reg.fltColmach 15 0 (d % 256)
    else if kindOf dest = 3 then 2 ^ 24 * a.u.fld Reg.fltMchi 23 0 + d
    else 2 ^ 24 * a.u.fld Reg.fltMachi 23 0 + d)

/-- What stands before the payload of a frame (R393). -/
def Agg.ethHead (a : Agg) (p : Nat) (f : TxFrame) : EthHead :=
  { dst := a.macOf f.dest f.col
    src := a.macOf a.u.node false
    secTag := a.u.bit Reg.fltAtMsecctl 0 p
    tag := if a.u.bit Reg.fltAtCfg 23 p then
        some (BitVec.ofNat 16 (a.u.fld Reg.fltPcp (3 * f.cls + 2) (3 * f.cls) * 2 ^ 13 + a.u.fld Reg.fltAtVid 11 0 p))
      else none
    etype := BitVec.ofNat 16 (a.u.fld Reg.fltEtype 15 0)
    head := a.fleetHead p f }

/-! ### Arrival -/

/-- The aggregator accepts a frame of a DEST (R396): its own address, its group's and the system's control address, the
address of a watch group that it holds. -/
def Agg.accepts (a : Agg) (dest : Node) : Bool :=
  addrEff dest == a.u.node || addrEff dest == a.identity || dest == groupCtl (bitsOf a.u.node.toNat 21 16)
    || dest == systemCtl || a.vote.groups.any fun g => wgAddr g.wgid == dest

/-- A fleet frame arrives (R24, R26, R396): counts, and what follows unless its DEST is foreign or it carries the receiver's
own address. A port that is not up receives nothing. A part that has not joined holds no address of its own yet (01 R37), so that no frame
carries it. Mark: DEDUCED (log entry 52, unsafe). -/
def Agg.arrive (a : Agg) (i : FleetIn) (k : Agg → Agg) : Agg :=
  let p := i.port.val
  if !a.portUp p then a
  else
    let a := a.onU fun u => u.count Reg.fltAtRxfrm p
    if !a.accepts i.dest then a.onU fun u => (u.count Reg.fltRxdrop).err Reg.fltErr 5
    else if !i.col && a.u.nodeOk && decide (addrEff i.orig = a.u.node) then
      a.onU fun u => (u.count Reg.glbAddrdup).alarm .addrDup
    else
      let a := a.onU fun u => u.addrs (if i.col then [i.dest] else [i.orig, i.dest])
      let n := (addrEff i.orig).toNat
      let x := a.port p
      let gap := match Tab.find n x.seen with
        | some n => decide (i.pseq.toNat ≠ (n + 1) % 2 ^ 32)
        | none => false
      let a := if gap && !i.col then a.onU fun u => u.count Reg.fltAtPseqgap p else a
      k (if i.col then a else a.setPort p { x with seen := Tab.put n i.pseq.toNat x.seen })

/-- A message that carries addresses arrives: the frame, and those addresses (R26). -/
def Agg.arriveVote (a : Agg) (i : FleetIn) (l : List Node) (k : Agg → Agg) : Agg :=
  a.arrive i fun a => k (a.onU fun u => u.addrs l)

/-- FLEET_FRAME_DISCARD (R391, R392, R395, R396, R402, R404, R414). -/
def Agg.discard (a : Agg) (p : Nat) (w : DiscardWhy) : Agg :=
  let drop := fun (u : Unit) => (u.count Reg.fltRxdrop).err Reg.fltErr 5
  a.onU fun u => match w with
    | .pause => (u.count Reg.fltAtPausecnt p).err Reg.fltErr 4
    | .lldp => drop u
    | .badHeader => (u.count Reg.fltAtHdrerr p).err Reg.fltErr 0
    | .foreignDest => drop u
    | .poolFull => drop u
    | .recordClass => drop u
    | .vlan => u
    | .fcs => (u.count Reg.fltAtFcserr p).err Reg.fltErr 1
    | .msec => (u.count Reg.fltAtMsecerr p).err Reg.fltErr 2

/-! ### Gates -/

/-- Cycle time of a list, ns. Mark: DEDUCED (log entry 22, unsafe). -/
def cycleOf (l : List (Nat × Nat)) : Nat := (l.map fun e => e.2).sum

/-- The entry at a position of the cycle, and the ns from there to its end. -/
def entryAt : List (Nat × Nat) → Nat → Nat → Nat × Nat
  | [], i, _ => (i, 0)
  | e :: t, i, pos => if pos < e.2 then (i, e.2 - pos) else entryAt t (i + 1) (pos - e.2)

/-- Whole nanoseconds since a list's base (R407: instants round up to a FRAC unit). -/
def Gcl.ns (g : Gcl) (t : Nat) : Nat := (t - g.base) * 1000000000 / 2 ^ 32

/-- The entry of a list at a time. -/
def Gcl.entry (g : Gcl) (t : Nat) : Nat := (entryAt g.ents 0 (g.ns t % max 1 (cycleOf g.ents))).1

/-- Gate of a class in a mask; the ALARM gate is always open (R408). -/
def gateIn (mask cls : Nat) : Bool := cls == 0 || mask.testBit cls

/-- Nanoseconds for which the gate of a class stays open from entry `i`, which lasts `left` more; none when it never
closes (R410, R411). -/
def openRun (l : List (Nat × Nat)) (cls : Nat) (i left : Nat) : Nat → Option Nat
  | 0 => none
  | fuel + 1 =>
    match l[i % max 1 l.length]? with
    | none => none
    | some e =>
      if !gateIn e.1 cls then some 0
      else
        let j := (i + 1) % max 1 l.length
        (openRun l cls j ((l[j]?.map fun x => x.2).getD 0) fuel).map fun n => n + left

/-- The list that gates a port now; none when every gate is open (R409, R411). -/
def Agg.gating (a : Agg) (p : Nat) : Option Gcl :=
  let s := a.sluice p
  if a.u.bit Reg.sluCtrl 0 && !s.open_ then s.oper else none

/-- The gate of a class is open on a port (R410). -/
def Agg.gateOpen (a : Agg) (p cls : Nat) : Bool :=
  match a.gating p with
  | none => true
  | some g => gateIn ((g.ents[(a.sluice p).cur]?.map fun e => e.1).getD 0x1F) cls

/-- Instant at which the gate of a class closes; none when it does not (R410). A pending list's takeover closes the
gates that its first entry shuts (R408). -/
def Agg.gateClose (a : Agg) (p cls : Nat) : Option Nat :=
  let t := a.u.tb.now
  let c1 := match a.gating p with
    | none => none
    | some g =>
      let x := g.ns t
      let e := entryAt g.ents 0 (x % max 1 (cycleOf g.ents))
      (openRun g.ents cls e.1 e.2 (g.ents.length + 1)).map fun n => g.base + nsUp (x + n)
  let c2 := match (a.sluice p).pend with
    | some g =>
      if a.u.bit Reg.sluCtrl 0 && !(match g.ents.head? with | some e => gateIn e.1 cls | none => true) then some g.start
      else none
    | none => none
  match c1, c2 with
  | some x, some y => some (min x y)
  | some x, none => some x
  | none, y => y

/-- The head frame of a class is eligible (R410). -/
def Agg.eligible (a : Agg) (p cls : Nat) (f : TxFrame) : Bool :=
  let g := a.u.fld Reg.sluAtMode 1 0 p
  match a.gateClose p cls with
  | none => true
  | some c =>
    if g = 0 then true
    else if g = 1 then decide (a.u.tb.now + a.txTime p (a.maxPayload p cls) ≤ c)
    else decide (a.u.tb.now + a.timeOf p (a.wireLen p f) ≤ c)

/-- Last packet number before a key is used up (R405). -/
def pnLimit (xpn : Bool) : Nat := if xpn then 2 ^ 64 - 1 else 0xFFFFFFFF

/-- The port may send protected frames: MACsec off, or a key with packet numbers left (R404, R405). -/
def Agg.maySend (a : Agg) (p : Nat) : Bool :=
  let x := a.port p
  !a.u.bit Reg.fltAtMsecctl 0 p || (x.msec.keyed && decide (x.msec.pn < pnLimit x.msec.xpn))

/-- A PTP frame, which MACsec does not hold (R404, R406). -/
def TxFrame.ptp (f : TxFrame) : Bool := f.msg == .delayReq

/-- The frame that starts: the head of the lowest class whose gate is open and whose head is eligible (R410). -/
def Agg.nextFrame (a : Agg) (p : Nat) : Option TxFrame :=
  (List.range 5).findSome? fun c =>
    match ((a.port p).queue c).head? with
    | some f => if a.gateOpen p c && a.eligible p c f && (a.maySend p || f.ptp) then some f else none
    | none => none

/-- What a frame that starts leaves on the line, and in the counts of its sender: a Delay_Req its egress timestamp (R406), any
other frame PSEQ and, with MACsec, a packet number (R395, R405). -/
def Agg.putOut (a : Agg) (p : Nat) (f : TxFrame) : Agg :=
  if f.ptp then
    let t3 := ((a.u.tb.now : Int) + tslat (a.u.fld Reg.fltAtTslat 15 0 p)).toNat
    a.onU fun u => { u with tb := { u.tb with ptp := { u.tb.ptp with t3 := some t3 } } }.emit (.delayReq p)
  else
    let x := a.port p
    let pn := if a.u.bit Reg.fltAtMsecctl 0 p then x.msec.pn + 1 else x.msec.pn
    (a.onU fun u => u.emit (.fleet p (a.ethHead p f) f.msg)).setPort p
      { x with pseq := (x.pseq + 1) % 2 ^ 32, msec := { x.msec with pn := pn } }

/-- FRAME_START (R410): the port is idle, and a frame is eligible. -/
def Agg.frameStart (a : Agg) (p : Nat) : Agg :=
  if !a.portUp p || !a.u.bit Reg.fltCtrl 0 || decide ((a.port p).busy > a.u.tb.now) then a
  else match a.nextFrame p with
    | none => a
    | some f =>
      let stop := a.u.tb.now + a.timeOf p (a.wireLen p f)
      let beyond := match a.gateClose p f.cls with | some c => decide (c < stop) | none => false
      let a := (a.onU fun u => u.count Reg.fltAtTxfrm p).putOut p f
      let a := if beyond then a.onU fun u => (u.count Reg.sluAtOverrun p).err Reg.sluErr 2 else a
      let x := a.port p
      a.setPort p { x with queues := Tab.put f.cls ((x.queue f.cls).drop 1) x.queues, busy := stop }

/-- The Delay_Req that the servo asks for is queued (R406); its answer comes with its egress timestamp. -/
def Agg.ptpRequest (a : Agg) : Agg :=
  match a.u.tb.ptp.req with
  | none => a
  | some p =>
    let a := a.onU fun u => { u with tb := { u.tb with ptp := { u.tb.ptp with req := none } } }
    let r := a.enqueue p ⟨1, 0, false, false, 44, .delayReq, none, a.u.tb.now⟩
    if r.2 then r.1 else a.onU fun u => u.count (qdisc 1) p

/-! ### Lists -/

/-- The administrative list of a port: ADMNUM entries (R407, R415). Mark: DEDUCED (log entry 22, unsafe). -/
def Agg.admList (a : Agg) (p : Nat) : List (Nat × Nat) :=
  (List.range (a.u.fld Reg.sluAtAdmnum 8 0 p)).map fun i => Tab.getD (a.sluice p).adm i (0x1F, 100000)

/-- Longest open run of a class round the cycle, ns; none when it never closes. -/
def longestRun (l : List (Nat × Nat)) (cls : Nat) : Option Nat :=
  (List.range l.length).foldl
    (fun (m : Option Nat) i =>
      match m, openRun l cls i ((l[i]?.map fun x => x.2).getD 0) (l.length + 1) with
      | some x, some y => some (max x y)
      | _, _ => none) (some 0)

/-- Every class but ALARM has a run that carries its largest frame at the port's rate (R407); of a port that is not up
the rate is not known. Mark: DEDUCED (log entry 52, unsafe). -/
def Agg.runsFit (a : Agg) (p : Nat) (l : List (Nat × Nat)) : Bool :=
  !a.portUp p || [1, 2, 3, 4].all fun c =>
    match longestRun l c with
    | none => true
    | some n => decide (a.txTime p (a.maxPayload p c) ≤ nsUp n)

/-- The list passes R407. -/
def Agg.listOk (a : Agg) (p : Nat) (l : List (Nat × Nat)) : Bool :=
  let cyc := cycleOf l
  decide (1 ≤ l.length) && decide (l.length ≤ 256)
    && l.all (fun e => decide (10 ≤ e.2) && decide (e.2 ≤ 1000000000))
    && decide (1000 ≤ cyc) && decide (cyc ≤ 1000000000) && a.runsFit p l

/-- Arm a list with a base time; false when it is refused (R407, R408). -/
def Agg.armList (a : Agg) (p base : Nat) : Agg × Bool :=
  let l := a.admList p
  if !a.listOk p l then (a.onU fun u => u.err Reg.sluErr 0, false)
  else
    let soon := a.u.tb.now + nsUp 1000
    let cyc := cycleOf l
    let past := decide (base < soon)
    let m := ((soon - base) * 1000000000 + cyc * 2 ^ 32 - 1) / (cyc * 2 ^ 32)
    let start := if past then
        (let x := base + nsUp (m * cyc); if x < soon then base + nsUp ((m + 1) * cyc) else x)
      else base
    let a := if past then a.onU fun u => u.err Reg.sluErr 1 else a
    (a.setSlu p { a.sluice p with pend := some ⟨l, base, start⟩ }, true)

/-- Base time that the administrative registers state. -/
def Agg.admBase (a : Agg) (p : Nat) : Nat :=
  a.u.rdN Reg.sluAtAdmbasef p + 2 ^ 32 * (a.u.rdN Reg.sluAtAdmbases0 p + 2 ^ 32 * a.u.fld Reg.sluAtAdmbases1 15 0 p)

/-- GCL_TAKEOVER (R408). -/
def Agg.gclTakeover (a : Agg) (p : Nat) : Agg :=
  match (a.sluice p).pend with
  | some g =>
    if g.start ≤ a.u.tb.now then
      a.setSlu p { a.sluice p with pend := none, oper := some g, cur := 0, open_ := !a.runsFit p g.ents }
    else a
  | none => a

/-- GCL_ARM (R407, R408). One in the cycle of a takeover arms the next list. -/
def Agg.gclArm (a : Agg) (p : Nat) : Agg :=
  let a := a.gclTakeover p
  (a.armList p (a.admBase p)).1

/-- GCL_CANCEL: a pending list is removed, unless its takeover has come (R408). -/
def Agg.gclCancel (a : Agg) (p : Nat) : Agg :=
  match (a.sluice p).pend with
  | some g => if g.start ≤ a.u.tb.now then a else a.setSlu p { a.sluice p with pend := none }
  | none => a

/-- GATE_ENTRY: the entry of the operative list at this time applies (R410). -/
def Agg.gateEntry (a : Agg) (p : Nat) : Agg :=
  match (a.sluice p).oper with
  | some g => a.setSlu p { a.sluice p with cur := g.entry a.u.tb.now }
  | none => a

/-- The timebase stepped: every gating port places itself anew (R411). -/
def Agg.stepAdj (a : Agg) : Agg :=
  if (List.range 8).any fun p => (a.gating p).isSome then
    ((List.range 8).foldl Agg.gateEntry a).onU fun u => u.err Reg.sluErr 3
  else a

/-- QUEUE_SAMPLE (R412): one sample of every queue; at a main epoch instant the values are copied and restart. -/
def Agg.queueSample (a : Agg) : Agg :=
  let last := decide (a.u.ep.lastMain ≠ a.sluEpoch)
  let sample := fun (p : Nat) (t : Tab QStat) (c : Nat) =>
    let s := Tab.getD t c qstat0
    let d := a.depth p c
    let h := match ((a.port p).queue c).head? with
      | some f => (a.u.tb.now - f.at_) * 1000000000 / 2 ^ 32
      | none => 0
    let s := { s with maxd := max s.maxd d, sum := (s.sum + d) % 2 ^ 64, maxh := max s.maxh h, n := satN 32 (s.n + 1) }
    let s := if last then { qstat0 with cmaxd := s.maxd, csum := s.sum, cmaxh := s.maxh, cn := s.n } else s
    Tab.put c s t
  let a' := (List.range 8).foldl
    (fun (b : Agg) p => b.setSlu p { b.sluice p with q := (List.range 5).foldl (sample p) (b.sluice p).q }) a
  { a' with sluEpoch := a.u.ep.lastMain }

/-! ### Ports -/

/-- A speed and FEC pair of R391, FEC coded as in FLT[sel].CFG; 0 is the default of the speed. -/
def fecOk (speed fec : Nat) : Bool :=
  (decide (speed = 1) || decide (speed = 2)) && decide (fec ≤ 1)
    || decide (speed = 3) && (fec == 0 || fec == 2 || fec == 3 || fec == 4)

/-- FEC in force for a speed and setting (R391). -/
def fecOf (speed fec : Nat) : Nat := if fec ≠ 0 then fec else if speed = 3 then 2 else 1

/-- The configuration of a port names no pair of R391 (R391, R414). -/
def Agg.cfgBad (a : Agg) (p : Nat) : Bool :=
  let s := a.u.fld Reg.fltAtCfg 29 28 p
  let f := a.u.fld Reg.fltAtCfg 26 24 p
  decide (f ≥ 5) || decide (s ≠ 0) && !fecOk s f

/-- A port that is set to a pair outside R391 shows CFGERR (R391, R414). -/
def Agg.cfgCheck (a : Agg) (p : Nat) : Agg :=
  let bad := a.u.bit Reg.fltAtCfg 31 p && a.cfgBad p
  let a := a.setPort p { a.port p with cfgErr := bad }
  if bad then a.onU fun u => u.err Reg.fltErr 7 else a

/-- FLEET_PORT_UP (R391, R409). -/
def Agg.fleetUp (a : Agg) (p speed fec : Nat) : Agg :=
  let s := a.u.fld Reg.fltAtCfg 29 28 p
  let x := a.port p
  if !a.u.bit Reg.fltAtCfg 31 p || !a.u.bit Reg.fltCtrl 0 || x.state == 2 then a
  else if a.cfgBad p then (a.setPort p { x with cfgErr := true }).onU fun u => u.err Reg.fltErr 7
  else if decide (s ≠ 0) && decide (s ≠ speed) || !fecOk speed fec then a
  else
    let a := a.setPort p { x with state := 2, speed := speed, fec := fecOf speed fec, cfgErr := false, an := s == 0
                                  busy := a.u.tb.now }
    match (a.sluice p).oper with
    | some g =>
      if a.runsFit p g.ents then a.setSlu p { a.sluice p with open_ := false }
      else (a.setSlu p { a.sluice p with open_ := true }).onU fun u => (u.err Reg.sluErr 0).alarm .armRej
    | none => a

/-- A fleet port goes down (R401): its CONTROL and RUNNER queues are discarded and counted, and the frames of records
leave its other queues. -/
def Agg.portDrop (a : Agg) (p : Nat) : Agg :=
  let x := a.port p
  let n1 := (x.queue 1).length
  let n2 := (x.queue 2).length
  (a.setPort p { x with state := 0, speed := 0, fec := 0, an := false, queues := [], msec := msec0 }).onU fun u =>
    (((u.countBy (qdisc 1) n1 p).countBy (qdisc 2) n2 p).count Reg.fltAtDowncnt p).err Reg.hltAggerr 2

/-- MKA_KEY_INSTALL (R403, R404): the suite must be one of the two supported. Mark: DEDUCED (log entry 52, unsafe). -/
def Agg.keyInstall (a : Agg) (p : Nat) (suite an : Nat) : Agg :=
  if suite ≥ 2 then a.onU fun u => (u.err Reg.fltErr 6).alarm .keyRej
  else if !a.portUp p || !a.u.bit Reg.fltAtMsecctl 0 p then a
  else
    let x := a.port p
    a.setPort p { x with msec := ⟨true, true, suite == 1, an, 0, false⟩ }

/-- MACSEC_REKEY (R405). Mark: DEDUCED (log entry 52, unsafe). -/
def Agg.macsecRekey (a : Agg) (p : Nat) : Agg :=
  let x := a.port p
  let lim := if x.msec.xpn then 0xC000000000000000 else 0xC0000000
  if x.msec.keyed && decide (x.msec.pn ≥ lim) then a.setPort p { x with msec := { x.msec with rekey := true } } else a

/-- The packet number has reached its limit (R405). -/
def Agg.pnOut (a : Agg) (p : Nat) : Bool :=
  let x := a.port p
  x.msec.keyed && a.portUp p && decide (x.msec.pn ≥ pnLimit x.msec.xpn)

/-! ### Registers -/

/-- FLT registers that the ports' state holds (R413). -/
def Agg.fltView (a : Agg) (ofs p : Nat) : Option Word :=
  let w := fun (n : Nat) => some (BitVec.ofNat 32 n)
  let x := a.port p
  if ofs = Reg.fltStat then
    w (((a.upPorts 0xFF).map fun k => 2 ^ k).sum
      + 256 * (((a.upPorts 0xFF).filter fun k => (a.port k).msec.keyed).map fun k => 2 ^ k).sum)
  else if ofs = Reg.fltAtPstat then
    w (x.state + 4 * x.speed + 16 * x.fec + 128 * b2n x.cfgErr + 256 * b2n x.an)
  else if ofs = Reg.fltAtMsecstat then
    w (x.msec.an + 4 * x.msec.an + 16 * b2n x.msec.live + 32 * b2n x.msec.rekey)
  else if ofs = Reg.fltAtTxpnl then w x.msec.pn
  else if ofs = Reg.fltAtTxpnh then w (if x.msec.xpn then x.msec.pn / 2 ^ 32 else 0)
  else none

/-- SLU queue registers of a class (R415): offset of the register within its class. -/
def Agg.queueReg (a : Agg) (p cls k : Nat) : Option Nat :=
  let q := Tab.getD (a.sluice p).q cls qstat0
  nth [some (a.depth p cls), some q.cmaxd, some q.csum, some (q.csum / 2 ^ 32), some q.cmaxh, some q.cn, none] k none

/-- SLU registers that the Sluice's state holds (R415). `ix` is SLU_GCLIDX. -/
def Agg.sluView (a : Agg) (ofs p : Nat) : Option Word :=
  let w := fun (n : Nat) => some (BitVec.ofNat 32 n)
  let s := a.sluice p
  let ix := a.u.fld Reg.sluGclidx 7 0
  let adm := Tab.getD s.adm ix (0x1F, 100000)
  let ops := match s.oper with | some g => g.ents | none => []
  let op := (ops[ix]?).getD (0, 0)
  if ofs = Reg.sluStat then
    w ((((List.range 8).filter fun k => (a.sluice k).pend.isSome).map fun k => 2 ^ k).sum
      + 256 * (((List.range 8).filter fun k => (a.gating k).isSome).map fun k => 2 ^ k).sum)
  else if ofs = Reg.sluAtAdmgate then w (adm.1 ||| 1)
  else if ofs = Reg.sluAtAdmint then w adm.2
  else if ofs = Reg.sluAtArm then w (4 * b2n s.pend.isSome)
  else if ofs = Reg.sluAtOpnum then w ops.length
  else if ofs = Reg.sluAtOpgate then w (if ops.length ≤ ix then 0 else op.1 ||| 1)
  else if ofs = Reg.sluAtOpint then w op.2
  else if ofs = Reg.sluAtOpcycle then w (cycleOf ops)
  else if ofs = Reg.sluAtCur then
    w (s.cur + 256 * (((List.range 5).filter fun c => a.gateOpen p c).map fun c => 2 ^ c).sum)
  else if inRange ofs Reg.sluAtQdepth0 160 then
    (a.queueReg p ((ofs - Reg.sluAtQdepth0) / 32) ((ofs - Reg.sluAtQdepth0) % 32 / 4)).map fun n => BitVec.ofNat 32 n
  else none

end Sys2Proof.Machine
end

