-- ==== Sys2Proof/Machine/Runner.lean ====
section
/-! DEFINITION. Runners and reduction (04_runner_reduction): the fold of a passing runner at a die unit, phase times,
the launch of runners, the reduction engine's entries, results and straggler histories. -/

namespace Sys2Proof

/-- LBYTES: total bytes of the lanes (04 R145). -/
def Runner.laneBytes (r : Runner) : Nat := (r.lanes.map fun l => Machine.laneSize l.op l.km1).sum

/-- Bytes of a runner frame (04 R145). -/
def Runner.bytes (r : Runner) : Nat := 36 + r.laneBytes

/-- The 32-byte header of a runner frame (04 R145). -/
def Runner.head (r : Runner) : List Byte :=
  open Machine in
  [r.rtype, r.plan] ++ leBytes 1 r.lanes.length ++ leBytes 1 (b2n r.split + 2 * b2n r.repeated + 4 * b2n r.fast)
    ++ leBytes 8 r.epn.toNat ++ leBytes 3 r.orig.toNat ++ [r.hops] ++ leBytes 4 r.contrib.toNat ++ leBytes 4 r.sref.toNat
    ++ leBytes 2 r.laneBytes ++ [r.turnat, r.pver] ++ leBytes 4 r.gen.toNat

/-- CRC-32C of a runner frame's header and lanes; a unit that found it wrong sends it on inverted (04 R145, R155). -/
def Runner.crc (r : Runner) : Word :=
  let c := Machine.crc32c (r.head ++ (r.lanes.map Machine.laneBytes).flatten)
  if r.crcOk then c else ~~~c

/-- A runner frame as its bytes (04 R145-R147). -/
def Runner.wire (r : Runner) : List Byte :=
  r.head ++ (r.lanes.map Machine.laneBytes).flatten ++ Machine.leBytes 4 r.crc.toNat

end Sys2Proof

namespace Sys2Proof.Machine

/-! ### Phase times -/

/-- A step with nothing reported. -/
def phase0 : PhaseStep := ⟨[], [], [], none⟩

/-- Whole nanoseconds of a time difference, 32 bits, saturating (04 R162). -/
def nsSat (d : Nat) : Nat := min (d * 1000000000 / 2 ^ 32) 0xFFFFFFFF

/-- A step is reported: the 8 most recent steps are kept, whatever their numbers (04 R162).
Mark: DEDUCED (log entry 24, unsafe). -/
def DieRdx.putStep (x : DieRdx) (s : Nat) (p : PhaseStep) : DieRdx :=
  let o := x.order.take 8
  let order := if o.contains s then o else (s :: o).take 8
  { x with steps := (Tab.put s p x.steps).filter fun q => order.contains q.1, order := order }

/-- The release that precedes phase `b` of step `s`: that of phase `b - 1`, or for b = 0 the last release of the step
before, STEP_ID having 24 bits (04 R162). -/
def precRelease (t : Tab PhaseStep) (s b : Nat) : Option Nat :=
  if b = 0 then (match Tab.find ((s + 2 ^ 24 - 1) % 2 ^ 24) t with | some p => p.lastRel | none => none)
  else match Tab.find s t with | some p => Tab.find (b - 1) p.rel | none => none

/-- PHASE_ARR: an arrival, stamped from the timebase (04 R162). Mark: DEDUCED (log entry 24, unsafe). -/
def Die.phaseArr (d : Die) (b s : Nat) : Die :=
  let t := d.u.tb.now
  let p := Tab.getD d.rdx.steps s phase0
  let pt := match precRelease d.rdx.steps s b with
    | some r => if r ≤ t then Tab.put b (nsSat (t - r)) p.pt else Tab.del b p.pt
    | none => Tab.del b p.pt
  { d with rdx := d.rdx.putStep s { p with arr := Tab.put b t p.arr, pt := pt } }

/-- PHASE_REL: a release; one with no arrival sets PHASEORDER (04 R162, R166). -/
def Die.phaseRel (d : Die) (b s : Nat) : Die :=
  let t := d.u.tb.now
  let p := Tab.getD d.rdx.steps s phase0
  let d' := if (Tab.find b p.arr).isNone then d.onU fun u => u.err Reg.rdxErr 3 else d
  { d' with rdx := d.rdx.putStep s { p with rel := Tab.put b t p.rel, lastRel := some t } }

/-- Every reported phase of a step is released (04 R162). -/
def PhaseStep.complete (p : PhaseStep) : Bool :=
  !p.arr.isEmpty && p.arr.all fun a => (Tab.find a.1 p.rel).isSome

/-- The latest completed step (04 R162). -/
def Die.latestStep (d : Die) : Option Nat :=
  ((d.rdx.steps.filter fun p => p.2.complete).map fun p => p.1).max?

/-- Phase time of a phase in the latest completed step, for features and metrics (05 R170). -/
def Die.phaseNow (d : Die) (b : Nat) : Option Nat :=
  match d.latestStep with
  | some s => (match Tab.find s d.rdx.steps with | some p => Tab.find b p.pt | none => none)
  | none => none

/-! ### Items of a die unit -/

/-- An item, or why there is none to fold (04 R136, R151): the value, with OVFIN. -/
inductive Item where
  | val (x : BitVec 64) (ovf : Bool)
  | void
  /-- A phase-time item that GEN bars. -/
  | barred
  deriving DecidableEq, Repr

/-- Value of a sensor entry as an item (04 R135, R136). -/
def sensItem (e : Nat) : Item :=
  let v := BitVec.ofNat 32 e
  let fmt := bitsOf e 51 48
  match convSensor v fmt (e.testBit 52) 0 0 with
  | .error _ => .void
  | .ok (n, _) => .val (BitVec.ofInt 64 (if fmt = 1 then (n : Int) else sext 32 n)) false

/-- Item `k` of a lane from a latch (04 R134-R137). -/
def Die.item (d : Die) (l : Latched) (r : Runner) (ln : LaneD) (k : Nat) : Item :=
  let i := ln.start + k
  let num := fun (x : Nat) (idx : Nat) => Item.val (BitVec.ofNat 64 x) (l.ovf.contains idx)
  if ln.src = 0 then (match Tab.find i l.gen with | some x => num x i | none => .void)
  else if ln.src = 1 then num (l.prod.getD i 0) (2048 + i)
  else if ln.src = 2 then
    (match l.fast[k + ln.start]? with
     | some x => num x (l.fastSet.getD i 0)
     | none => .void)
  else if ln.src = 3 then sensItem (l.sens.getD i 0)
  else if ln.src = 4 then
    (if r.gen ≠ 0 ∧ r.gen ≠ d.u.rd Reg.hltGen then .barred
     else match Tab.find r.sref.toNat d.rdx.steps with
       | some p => (match Tab.find ln.phase p.pt with | some t => .val (BitVec.ofNat 64 t) false | none => .void)
       | none => .void)
  else if ln.src = 5 then .val 1 false
  else (match d.latestStep with | some s => .val (BitVec.ofNat 64 s) false | none => .void)

/-- The latch of a runner's epoch (04 R134): of its kind, and of its EPN, among those kept. -/
def Die.latchOf (d : Die) (fast : Bool) (epn : Nat) : Option Latched :=
  (if fast then d.cap.latFast.toList ++ d.cap.pastFast else d.cap.latMain.toList ++ d.cap.pastMain).find? fun l => l.epn == epn

/-- Fold a lane: the lane, the number of void items, and whether an item was folded. -/
def Die.foldLane (d : Die) (l : Latched) (r : Runner) (ln : LaneD) (lane : Lane) : Lane × Nat × Bool :=
  (List.range (ln.nm1 + 1)).foldl
    (fun (a : Lane × Nat × Bool) k =>
      match d.item l r ln k with
      | .val x ovf =>
        let y := foldItem ln a.1 x d.u.node k
        (if ovf then { y with ovfin := true } else y, a.2.1, true)
      | .void => ({ a.1 with void := true }, a.2.1 + 1, a.2.2)
      | .barred => a) (lane, 0, false)

/-- Fold every lane of a runner (04 R151): the lanes, void items, and whether an item was folded. -/
def Die.foldLanes (d : Die) (l : Latched) (r : Runner) (p : Plan) : List Lane × Nat × Bool :=
  ((p.lanes.zip r.lanes).foldl
    (fun (a : List Lane × Nat × Bool) (x : LaneD × Lane) =>
      let y := d.foldLane l r x.1 x.2
      (a.1 ++ [y.1], a.2.1 + y.2.1, a.2.2 || y.2.2)) ([], 0, false))

/-- D of the die unit (01 R25). -/
def Unit.dieNo (u : Unit) : Nat := bitsOf u.node.toNat 6 2

/-- The plan of a runner in a PLAN section: with its number and its version (04 R130, R154). -/
def planOf (b : List Byte) (r : Runner) : Option Plan :=
  match planIn b r.plan.toNat with
  | some p => if p.pver = r.pver.toNat ∧ p.lanes.length = r.lanes.length then some p else none
  | none => none

/-- The fold itself (04 R151, R163), or the runner as it was when the unit does not fold (04 R154). The latch of the epoch
gives the items and the PLAN section that they belong to (03 R121). -/
def Die.foldRunner (d : Die) (r : Runner) : Die × Runner :=
  let r1 := { r with hops := r.hops + 1 }
  let l := d.latchOf r.fast r.epn.toNat
  match planOf (match l with | some x => x.plans | none => d.u.sec 9) r with
  | none => (d.onU fun u => (u.err Reg.rdxErr 1).count Reg.rdxFwdcnt, r1)
  | some p =>
    match l with
    | none => (d.onU fun u => u.count Reg.rdxFwdcnt, r1)
    | some l =>
      if !d.u.nodeOk || decide (d.u.power ≥ 2) then (d.onU fun u => u.count Reg.rdxFwdcnt, r1)
      else
        let f := d.foldLanes l r p
        let miss := p.lanes.any (fun x => x.src == 4) && r.sref != 0xFFFFFF
          && (r.gen == 0 || r.gen == (d.u.rd Reg.hltGen)) && (Tab.find r.sref.toNat d.rdx.steps).isNone
        let d := { d with rdx := { d.rdx with last := Tab.put p.id r.epn.toNat d.rdx.last } }
        let d := d.onU fun u =>
          let u := (u.count Reg.rdxFoldcnt).countBy Reg.rdxAtVoidcnt f.2.1 p.id
          if miss then u.err Reg.rdxErr 2 else u
        (d, { r1 with lanes := f.1, contrib := if f.2.2 then setBit r.contrib d.u.dieNo true else r.contrib })

/-- RUNNER_FOLD: a runner arrives at a port (04 R151-R155). Its bytes pass the fold before its CRC is known, so that one whose
CRC proves wrong goes on folded too, with its recomputed CRC inverted. A unit in HOSTOFF forwards nothing. -/
def Die.runnerFold (d : Die) (from_ : Side) (r : Runner) : Die :=
  let out := fun (d : Die) (s : Side) (r : Runner) => d.onU fun u => u.raceTx s.ix 2 r.bytes (.runner s.ix r) (some from_.ix)
  let bad := fun (d : Die) => d.onU fun u => (u.count Reg.rdxBadcnt).err Reg.rdxErr 0
  if d.u.power = 3 then d
  else
  let d := d.onU fun u =>
    if r.crcOk then u.raceArr from_.ix else ((u.raceBad from_.ix).count Reg.raceAtCrcerr from_.ix).err Reg.raceErr 1
  if r.rtype ≠ 1 ∧ r.rtype ≠ 2 then (bad d).onU fun u => u.giveCredit (some from_.ix) 2 (unitsOf r.bytes)
  else
    let d := if r.crcOk then d else bad d
    if r.rtype = 2 then out d from_.other r
    else
      let f := d.foldRunner r
      if d.u.nodeOk && r.turnat.toNat == d.u.dieNo then out f.1 from_ { f.2 with rtype := 2 }
      else out f.1 from_.other f.2

/-! ### Launch -/

/-- The aggregator's side (01 R25: KIND). -/
def Agg.side (a : Agg) : Side := if a.u.node.toNat / 2 ^ 22 = 2 then .b else .a

/-- A chain with nothing on it. LEN is 32 on every port: the spec gives the default and names neither a register nor a
command that configures another (01 R29). Mark: DESIGN CHOICE (log entry 61, unsafe). -/
def chain0 : Chain := ⟨32, .empty, 0, .empty, 0, 0, none, none, none, false⟩

/-- The chain of a port. -/
def Agg.chain (a : Agg) (port : Nat) : Chain := Tab.getD a.chains port chain0

/-- Status and last D that routes follow: the present ones from 10 µs after they changed (04 R153). -/
def Agg.route (a : Agg) (port : Nat) : ChainStatus × Nat :=
  let c := a.chain port
  if a.u.since c.changed ≥ usT 10 then (c.status, c.last) else (c.oldStatus, c.oldLast)

/-- This aggregator owns a plan's results (04 R131, R161). -/
def Agg.owns (a : Agg) (p : Plan) : Bool := a.joined && (!a.partner || p.owner == a.side.ix)

/-- This aggregator launches a plan on a port, and with what TURNAT (04 R148, R153). -/
def Agg.launches (a : Agg) (p : Plan) (port : Nat) : Option (Nat × Bool) :=
  let r := a.route port
  if !a.joined || decide (r.1 = .empty) || decide (r.1 = .miswired) then none
  else if r.1 = .split then some (r.2, true)
  else if !a.partner then some ((a.chain port).len - 1 - (if a.side = .a then 0 else (a.chain port).len - 1), false)
  else if p.owner = a.side.ix then none
  else some (0xFF, false)

/-- The latest epoch of a plan whose launch instant, t0 + LOFS, has come on a port and is not yet dealt with there, with the
plan as it stood at that epoch (04 R131, R148). -/
def Agg.launchDue (a : Agg) (plan port : Nat) : Option (AggEpoch × Plan) :=
  (a.rdx.recent.findSome? fun e =>
    match planIn e.plans plan with
    | some p =>
      if (p.trig == b2n e.fast) && decide (e.num % p.every = 0) && decide (e.time + nsUp p.lofs ≤ a.u.tb.now) then some (e, p)
      else none
    | none => none).filter fun x => decide (Tab.getD a.rdx.launched (plan * 8 + port) 0 < x.1.time)

/-- An epoch fired on an aggregator is kept until every launch instant of it has come: LOFS is at most 65,535 ns, and the
instants of a step are 1 µs apart (02 R73; 04 R131). -/
def Agg.noteEpoch (a : Agg) (f : Fired) : Agg :=
  let e := fun (fast : Bool) (n : Option Nat) =>
    (n.map fun n => (⟨fast, n, f.time, a.u.sec 9⟩ : AggEpoch)).toList
  { a with rdx := { a.rdx with recent := (e false f.main ++ e true f.fast ++ a.rdx.recent).take 160 } }

/-- Scope address of a package entry: the tray's G and T and the port (04, "The reduction engine"). -/
def Unit.pkgAddr (u : Unit) (port : Nat) : Node :=
  BitVec.ofNat 24 (bitsOf u.node.toNat 21 10 * 1024 + port * 128)

/-- Deadline of a scope level after an epoch instant (04 R131). -/
def Plan.deadline (p : Plan) (scope time : Nat) : Nat :=
  let v := p.dl.getD scope 0
  time + nsUp (if scope = 0 then v * 100 else v * 1000)

/-- A plan's previous runner on a port has not reached this receiving head, nor is its entry completed (04 R150). -/
def Agg.awaits (a : Agg) (plan : Nat) (addr : Node) : Bool :=
  a.rdx.ents.any fun e => e.key.plan.val == plan && e.key.addr == addr && e.key.scope == 0 && e.done.isNone && e.got.isEmpty

/-- Add an entry; the engine holds 16,384 (04 R156). -/
def Agg.addEnt (a : Agg) (e : RdxEnt) : Agg × Bool :=
  if a.rdx.ents.length ≥ 16384 then
    (a.onU fun u => ((u.count Reg.rdxFullcnt).err Reg.rdxErr 4).alarm .rdxFull, false)
  else
    let n := a.rdx.ents.length + 1
    ({ a with rdx := { a.rdx with ents := a.rdx.ents ++ [e], high := max a.rdx.high n } }, true)

/-- Completion mark of a plan, scope and scope address (04 R160). -/
def Agg.markOf (a : Agg) (k : RdxKey) : Option Nat :=
  (a.rdx.marks.find? fun m => m.1 == k.plan.val && m.2.1 == k.scope.val && m.2.2.1 == k.addr.toNat).map
    fun m => m.2.2.2

/-- Raise the completion mark. -/
def setMark (k : RdxKey) (l : List (Nat × Nat × Nat × Nat)) : List (Nat × Nat × Nat × Nat) :=
  let same := fun (m : Nat × Nat × Nat × Nat) => m.1 == k.plan.val && m.2.1 == k.scope.val && m.2.2.1 == k.addr.toNat
  match l.find? same with
  | some m => l.filter (fun x => !same x) ++ [(m.1, m.2.1, m.2.2.1, max m.2.2.2 k.epn.toNat)]
  | none => l ++ [(k.plan.val, k.scope.val, k.addr.toNat, k.epn.toNat)]

/-- A new package entry (04 R155-R157). -/
def Agg.newPkg (a : Agg) (p : Plan) (k : RdxKey) (port time : Nat) (plans : List Byte) : RdxEnt :=
  { key := k, time := time, tq := a.u.tb.tq, deadline := p.deadline 0 time, expect := [], got := [], lostBy := [], allOk := true
    nexp := (a.chain port).len, ngot := 0, contrib := 0, sref := 0xFFFFFF, rept := false, lanes := none, done := none
    plans := plans }

/-- The launched runner (04 R148, R163). -/
def Agg.mkRunner (a : Agg) (p : Plan) (epn sref turnat : Nat) (split rept : Bool) (gen : Word) : Runner :=
  { rtype := 1, plan := BitVec.ofNat 8 p.id, split := split, repeated := rept, fast := decide (p.trig = 1)
    epn := BitVec.ofNat 64 epn, orig := a.u.node, hops := 0, contrib := 0, sref := BitVec.ofNat 24 sref
    turnat := BitVec.ofNat 8 turnat, pver := BitVec.ofNat 8 p.pver, gen := gen
    lanes := p.lanes.map LaneD.identity, crcOk := true }

/-- Put the runner on the wire, with SREF and REPEAT of 04 R163. -/
def Agg.sendRunner (a : Agg) (p : Plan) (port epn time turnat : Nat) (split : Bool) (gen : Word) : Agg :=
  let k := p.id * 8 + port
  let sref := match Tab.find k a.rdx.sref with
    | some (n, v) => if p.strag ∧ n + p.every = epn then v else 0xFFFFFF
    | none => 0xFFFFFF
  let rept := decide (sref ≠ 0xFFFFFF) && (Tab.find k a.rdx.prevSref) == some sref
  let a := { a with rdx := { a.rdx with
      flight := Tab.put k (epn, p.deadline 0 time) a.rdx.flight, prevSref := Tab.put k sref a.rdx.prevSref } }
  let r := a.mkRunner p epn sref turnat split rept gen
  a.onU fun u => u.raceTx port 2 r.bytes (.runner port r) none

/-! ### Completion -/

/-- Status of a completing entry (04 R158). The contributors of a package are its dies, those of CONTRIB. -/
def RdxEnt.status (e : RdxEnt) (skip : Bool) : Nat :=
  let pkg := e.key.scope == 0
  let full := if pkg then popCount e.contrib 32 == e.nexp else e.allOk && e.expect.all e.got.contains
  let none_ := if pkg then e.contrib == 0 else e.got.isEmpty
  if skip then 3 else if none_ then 2 else if full then 0 else 1

/-- Every expected contributor has arrived (04 R157, R158). Mark: DEDUCED (log entry 26, unsafe). -/
def RdxEnt.full (e : RdxEnt) : Bool :=
  if e.key.scope = 0 then popCount e.contrib 32 == e.nexp else e.expect.all e.got.contains

/-- NGOT of an entry (04 R159). -/
def RdxEnt.gotDies (e : RdxEnt) : Nat := if e.key.scope = 0 then popCount e.contrib 32 else e.ngot

/-- Lanes of an entry as its result delivers them; identity lanes when nothing arrived.
Mark: DEDUCED (log entry 26, unsafe). -/
def RdxEnt.outLanes (e : RdxEnt) (p : Plan) : List Lane :=
  (match e.lanes with | some l => l | none => p.lanes.map LaneD.identity).map deliverLane

/-- Payload of a result record (04 R159). -/
def resultPayload (p : Plan) (e : RdxEnt) (st : Nat) : List Byte :=
  let ad := e.key.addr.toNat
  let sc := e.key.scope.val
  leBytes 1 p.id ++ leBytes 1 p.pver ++ leBytes 1 sc ++ leBytes 1 st ++ leBytes 8 e.key.epn.toNat
    ++ leBytes 1 (if sc = 3 then 0xFF else bitsOf ad 21 16) ++ leBytes 1 (if sc ≥ 2 then 0xFF else bitsOf ad 15 10)
    ++ leBytes 1 (if sc ≥ 1 then 0xFF else bitsOf ad 9 7) ++ leBytes 1 p.lanes.length ++ leBytes 4 e.nexp
    ++ leBytes 4 e.gotDies ++ leBytes 4 (if sc = 0 then e.contrib else 0) ++ leBytes 4 e.sref
    ++ ((e.outLanes p).map laneBytes).flatten

/-- The result of an entry as a message. -/
def RdxEnt.result (e : RdxEnt) (p : Plan) (st : Nat) : RdxResult :=
  { key := e.key, pver := BitVec.ofNat 8 p.pver, status := if h : st < 4 then ⟨st, h⟩ else 0
    nexp := BitVec.ofNat 32 e.nexp, ngot := BitVec.ofNat 32 e.gotDies, contrib := BitVec.ofNat 32 e.contrib
    sref := BitVec.ofNat 24 e.sref
    lanes := match e.lanes with | some l => l | none => p.lanes.map LaneD.identity }

/-- Key of a straggler history. -/
def histKey (plan port die : Nat) : Nat := plan * 256 + port * 32 + die

/-- Straggler plans whose histories are kept: the four of lowest number (04 R164). -/
def Unit.stragPlans (u : Unit) : List Nat :=
  (((List.range 64).filter fun n => match u.plan? n with | some p => p.strag | none => false).take 4)

/-- A die is a straggler under a plan (04 R164). -/
def Agg.isStrag (a : Agg) (p : Plan) (port die : Nat) : Bool :=
  let h := Tab.getD a.rdx.hist (histKey p.id port die) []
  decide (((lastN p.sn h).filter id).length ≥ p.sk) && decide (p.sk > 0)

/-- A die is a straggler under any straggler plan. -/
def Agg.straggler (a : Agg) (port die : Nat) : Bool :=
  a.u.stragPlans.any fun n => match a.u.plan? n with | some p => a.isStrag p port die | none => false

/-- Shift the histories of a package (04 R164). -/
def Agg.shiftHist (a : Agg) (p : Plan) (e : RdxEnt) (port : Nat) : Agg :=
  let ls := e.outLanes p
  let v0 := match ls[0]? with | some l => l.value.toNat | none => 0
  let hot := match ls[1]? with
    | some l => (l.tops.filter fun (t : TopEnt) => decide (t.value.toNat > v0 + p.sthr)).map fun (t : TopEnt) => bitsOf t.addr.toNat 6 2
    | none => []
  let hist := (List.range (a.chain port).len).foldl
    (fun (t : Tab (List Bool)) d =>
      let k := histKey p.id port d
      Tab.put k (lastN 32 (Tab.getD t k [] ++ [hot.contains d])) t) a.rdx.hist
  { a with rdx := { a.rdx with hist := hist } }

/-- SREF of the next runner (04 R163): kept, and handed to the partner when the partner launches. -/
def Agg.handSref (a : Agg) (p : Plan) (e : RdxEnt) (port st : Nat) : Agg :=
  let v := if st ≤ 1 then (match (e.outLanes p)[2]? with | some l => l.value.toNat % 2 ^ 24 | none => 0xFFFFFF)
    else 0xFFFFFF
  let a := { a with rdx := { a.rdx with sref := Tab.put (p.id * 8 + port) (e.key.epn.toNat, v) a.rdx.sref } }
  let mine := (a.launches p port).isSome && decide ((a.route port).1 ≠ .split)
  if a.partner && !mine then a.send (sideAddr (a.u.node.toNat / 1024) a.side.other) 1 (.srefHand p.id port e.key.epn (BitVec.ofNat 24 v)) 0
  else a

/-- Straggler bookkeeping of a completed package result (04 R163, R164). -/
def Agg.stragDone (a : Agg) (p : Plan) (e : RdxEnt) (st : Nat) : Agg :=
  if !p.strag || e.key.scope != 0 then a
  else
    let port := bitsOf e.key.addr.toNat 9 7
    let a := a.handSref p e port st
    if st ≤ 1 ∧ !e.rept ∧ e.sref ≠ 0xFFFFFF ∧ a.u.stragPlans.contains p.id then a.shiftHist p e port else a

/-- Keep a result. A feature reads the result of an EPN, and no entry outlives its deadline, at most 65,535 µs after its instant:
an older one goes when a later one of its plan, scope and scope address stands (04 R131; 05 R174).
Mark: DEDUCED (log entry 26, unsafe). -/
def keepResult (now time : Nat) (r : RdxResult) (l : List (Nat × RdxResult)) : List (Nat × RdxResult) :=
  (time, r) :: l.filter fun (x : Nat × RdxResult) =>
    !(x.2.key.plan == r.key.plan && x.2.key.scope == r.key.scope && x.2.key.addr == r.key.addr)
      || (x.2.key.epn != r.key.epn && decide (now < x.1 + nsUp 66000000))

/-- An entry completes (04 R158-R160): its result record, its mark, what follows from it. The boolean answers that it
was SKIPPED. Mark: DEDUCED (log entry 26, unsafe). -/
def Agg.complete (a : Agg) (p : Plan) (e : RdxEnt) (skip : Bool) : Agg :=
  let st := e.status skip
  let e' := { e with done := some st }
  let a := { a with rdx := { a.rdx with
      ents := a.rdx.ents.map fun (x : RdxEnt) => if x.key = e.key then e' else x
      marks := setMark e.key a.rdx.marks
      results := keepResult a.u.tb.now e.time (e.result p st) a.rdx.results
      last := Tab.put p.id (e.key.epn.toNat, st, if e.key.scope = 0 then e.gotDies % 256 else 0) a.rdx.last } }
  let a := a.onU fun u =>
    let u := if st = 3 then u.count Reg.rdxSkipcnt else if st = 2 then u.count Reg.rdxLostcnt
      else if st = 1 then u.count Reg.rdxPartcnt else u
    u.submit ⟨0x10, 0, .runner, e.time, e.tq, resultPayload p e st, none⟩
  a.stragDone p e st

/-- Find an entry. -/
def Agg.ent? (a : Agg) (k : RdxKey) : Option RdxEnt := a.rdx.ents.find? fun e => decide (e.key = k)

/-- Replace an entry. -/
def Agg.setEnt (a : Agg) (e : RdxEnt) : Agg :=
  { a with rdx := { a.rdx with ents := a.rdx.ents.map fun (x : RdxEnt) => if x.key = e.key then e else x } }

/-- Ports that are enabled: those that have a chain (04 R157). -/
def Agg.livePorts (a : Agg) : List Nat := (List.range 8).filter fun q => decide ((a.chain q).status ≠ .empty)

/-- Scope address above package scope: G and T, G, or none. -/
def scopeAddr (addr : Node) (scope : Nat) : Node :=
  let n := addr.toNat
  BitVec.ofNat 24 (if scope = 1 then bitsOf n 21 10 * 1024 else if scope = 2 then bitsOf n 21 16 * 65536 else 0)

/-- What identifies a contributor at the level above: the port, the tray, or the group. -/
def contribId (addr : Node) (scope : Nat) : Nat :=
  if scope = 0 then bitsOf addr.toNat 9 7 else if scope = 1 then bitsOf addr.toNat 15 10 else bitsOf addr.toNat 21 16

/-- The plan of an entry: as it stood when the entry was allocated, else as it is. -/
def Agg.planFor (a : Agg) (k : RdxKey) : Option Plan :=
  match a.ent? k with
  | some e => planIn e.plans k.plan.val
  | none => a.u.plan? k.plan.val

/-- A lower-level result arrives for a tray, group or system entry (04 R156-R161). `expect` lists the contributors
expected when the entry is allocated, `dies` the dies of a tray entry; above, NEXP adds up what the contributors say. One that
is LOST or SKIPPED opens the entry, and counts as no arrival of its contributor. Mark: DEDUCED (log entry 25, safe). -/
def Agg.upArrive (a : Agg) (p : Plan) (r : RdxResult) (expect : List Nat) (dies : Nat) : Agg :=
  let sc := r.key.scope.val + 1
  let k : RdxKey := { r.key with scope := if h : sc < 4 then ⟨sc, h⟩ else 3, addr := scopeAddr r.key.addr sc }
  let who := contribId r.key.addr r.key.scope.val
  let time := instantOf (r.key.epn.toNat * (if p.trig = 1 then a.u.epfu else a.u.epu))
  let late := (a.ent? k).isNone && (match a.markOf k with | some m => decide (r.key.epn.toNat ≤ m) | none => false)
  let e0 : RdxEnt :=
    { key := k, time := time, tq := a.u.tb.tq, deadline := p.deadline sc time, expect := expect, got := []
      lostBy := [], allOk := true, nexp := dies, ngot := 0, contrib := 0, sref := r.sref.toNat, rept := false, lanes := none
      done := none, plans := a.u.sec 9 }
  let done := match a.ent? k with | some e => e.done.isSome | none => false
  if late || done then a.onU fun u => u.count Reg.rdxLatecnt
  else
    let x : Agg × Bool := match a.ent? k with | some _ => (a, true) | none => a.addEnt e0
    if !x.2 then x.1
    else
      let e := (x.1.ent? k).getD e0
      let nexp := if sc < 2 then e.nexp else e.nexp + r.nexp.toNat
      if e.got.contains who || e.lostBy.contains who then x.1.onU fun u => u.count Reg.rdxDupcnt
      else if 2 ≤ r.status.val then x.1.setEnt { e with lostBy := e.lostBy ++ [who], nexp := nexp }
      else
        let e := { e with got := e.got ++ [who], allOk := e.allOk && decide (r.status = 0), ngot := e.ngot + r.ngot.toNat
                          nexp := nexp
                          lanes := some (match e.lanes with | some l => mergeLanes l r.lanes | none => r.lanes) }
        let a := x.1.setEnt e
        if e.full then a.complete p e false else a

/-- Send a result to the owning side of the root pair above (04 R157; 11 R396). -/
def Agg.frunUp (a : Agg) (p : Plan) (r : RdxResult) : Agg :=
  let up := if r.key.scope = 1 then a.vote.group.holder else a.vote.system.holder
  a.send (sideAddr (up.toNat / 1024) (if p.owner = 0 then .a else .b)) 2 (.frun a.u.node r) 0

/-- The pair holds the root above a result of a scope (04 R157). -/
def Agg.rootHere (a : Agg) (scope : Nat) : Bool := if scope = 1 then a.vote.group.held else a.vote.system.held

/-- Contributors expected by an entry that a result of a scope feeds (04 R157): enabled ports, trays of the group heard,
groups whose root is heard. Mark: DEDUCED (log entry 24, unsafe). -/
def Agg.expectOf (a : Agg) (scope : Nat) : List Nat :=
  let heard := fun (t : Tab Nat) => (t.filter fun p => decide (a.u.since p.2 < usT 300)).map fun p => BitVec.ofNat 24 p.1
  if scope = 0 then a.livePorts
  else if scope = 1 then
    (((a.u.node :: heard a.vote.beats).filter fun n => bitsOf n.toNat 21 16 == bitsOf a.u.node.toNat 21 16).map
      fun n => contribId n 1).eraseDups
  else ((a.u.node :: heard a.vote.gbeats).map fun n => contribId n 2).eraseDups

/-- A completed result goes up (04 R157, R161): a package result feeds the tray entry; tray and group results leave for the
root above, or feed its entry where this pair is that root. -/
def Agg.sendUpN (a : Agg) (p : Plan) (k : RdxKey) : Nat → Agg
  | 0 => a
  | n + 1 =>
    match a.ent? k with
    | none => a
    | some e =>
      match e.done with
      | none => a
      | some st =>
        let sc := k.scope.val
        if p.scope ≤ sc then a
        else if sc = 0 || a.rootHere sc then
          let up : RdxKey := { k with scope := if h : sc + 1 < 4 then ⟨sc + 1, h⟩ else 3, addr := scopeAddr k.addr (sc + 1) }
          let was := match a.ent? up with | some t => t.done.isSome | none => false
          let a := a.upArrive p (e.result p st) (a.expectOf sc) ((a.livePorts.map fun q => (a.chain q).len).sum)
          if was then a else a.sendUpN p up n
        else a.frunUp p (e.result p st)

/-- The same for as many scopes as there are. -/
def Agg.sendUp (a : Agg) (p : Plan) (k : RdxKey) : Agg := a.sendUpN p k 4

/-- Watch-group generation of a runner on a port (04 R148): that of the group that a die of the package belongs to, or 0. -/
def Agg.runnerGen (a : Agg) (port : Nat) (groupOf : Nat → Option Word) : Word :=
  ((List.range (a.chain port).len).findSome? fun d => groupOf (32 * port + d)).getD 0

/-- The plan's previous runner on the port is still on its way (04 R150). Where this side receives it, the entry tells; where
it comes back here, so does its arrival; a launcher to whose partner it runs learns of that in no way that the spec gives but
SREFHAND, so that it is free until the package deadline (log entry 3). Mark: DEDUCED (log entry 24, unsafe). -/
def Agg.busy (a : Agg) (p : Plan) (port : Nat) : Bool × Agg :=
  let flying : Bool := match Tab.find (p.id * 8 + port) a.rdx.flight with
    | some (_, dl) => decide (a.u.tb.now < dl)
    | none => false
  match a.launches p port with
  | none => (a.awaits p.id (a.u.pkgAddr port), a)
  | some (t, _) =>
    if t = 0xFF && flying then
      let r := a.u.draw
      (decide (r.1 % 2 = 1), { a with u := r.2 })
    else (flying, a)

/-- One launch instant of a plan on a port (04 R148-R150, R156): the owner's entry, and the runner, or SKIPPED. -/
def Agg.launchOne (a : Agg) (p : Plan) (e : AggEpoch) (port : Nat) (gen : Word) : Agg :=
  let k : RdxKey := ⟨if h : p.id < 64 then ⟨p.id, h⟩ else 0, 0, a.u.pkgAddr port, BitVec.ofNat 64 e.num⟩
  let seen := (a.ent? k).isSome || (match a.markOf k with | some m => decide (e.num ≤ m) | none => false)
  let b := a.busy p port
  let a := { b.2 with rdx := { b.2.rdx with launched := Tab.put (p.id * 8 + port) e.time b.2.rdx.launched } }
  let x : Agg × Bool := if a.owns p && !seen then a.addEnt (a.newPkg p k port e.time e.plans) else (a, false)
  if b.1 then
    match x.1.ent? k with
    | some n => if x.2 then (x.1.complete p n true).sendUp p k else x.1
    | none => x.1
  else
    match a.launches p port with
    | none => x.1
    | some (t, split) => x.1.sendRunner p port e.num e.time t split gen

/-- RUNNER_LAUNCH: the launch instant of a plan on a port (04 R148-R150, R156). Plans of lower number that are due at the same
epoch leave first. -/
def Agg.runnerLaunch (a : Agg) (plan port : Nat) (gen : Word) : Agg :=
  if (a.route port).1 = .empty then a
  else match a.launchDue plan port with
    | none => a
    | some (e, _) =>
      (List.range (plan + 1)).foldl
        (fun (a : Agg) q =>
          match a.launchDue q port with
          | some (e', p) => if e'.num = e.num ∧ e'.fast = e.fast then a.launchOne p e' port gen else a
          | none => a) a

/-- A contribution to a package entry (04 R157-R160). -/
def Agg.pkgArrive (a : Agg) (p : Plan) (port : Nat) (r : Runner) : Agg :=
  let k : RdxKey := ⟨if h : p.id < 64 then ⟨p.id, h⟩ else 0, 0, a.u.pkgAddr port, r.epn⟩
  match a.ent? k with
  | none =>
    (match a.markOf k with
     | some m => if r.epn.toNat ≤ m then a.onU fun u => u.count Reg.rdxLatecnt else a
     | none => a)
  | some e =>
    let who := r.orig.toNat
    if e.done.isSome then a.onU fun u => u.count Reg.rdxLatecnt
    else if e.got.contains who then a.onU fun u => u.count Reg.rdxDupcnt
    else
      let e := { e with got := e.got ++ [who], contrib := e.contrib ||| r.contrib.toNat, sref := r.sref.toNat
                        rept := r.repeated
                        lanes := some (match e.lanes with | some l => mergeLanes l r.lanes | none => r.lanes) }
      let a := a.setEnt e
      if e.full then (a.complete p e false).sendUp p k else a

/-- A runner comes in: from the chain of the port, or in a message from the partner, whose head the other end of a split
chain has (04 R153). -/
def Agg.runnerIn (a : Agg) (port : Nat) (r : Runner) : Agg :=
  let chained := a.u.raceUp port && (decide (r.orig = a.u.node) || decide ((a.route port).1 ≠ .split))
  a.onU fun u => if chained then u.raceRx port 2 r.bytes else u

/-- RUNNER_ARRIVAL: a runner at its receiving head, or the partner's partial of a split chain (04 R153, R155, R158).
Mark: DEDUCED (log entry 25, safe). -/
def Agg.runnerArrival (a : Agg) (port : Nat) (r : Runner) : Agg :=
  let a := a.runnerIn port r
  if r.rtype ≠ 1 ∧ r.rtype ≠ 2 ∨ !r.crcOk then a.onU fun u => (u.count Reg.rdxBadcnt).err Reg.rdxErr 0
  else
    let k : RdxKey := ⟨if h : r.plan.toNat < 64 then ⟨r.plan.toNat, h⟩ else 0, 0, a.u.pkgAddr port, r.epn⟩
    match if r.plan.toNat < 64 then a.planFor k else none with
    | none => a
    | some p =>
      let a := if r.orig = a.u.node then
          { a with rdx := { a.rdx with flight := Tab.del (p.id * 8 + port) a.rdx.flight } } else a
      if a.owns p then a.pkgArrive p port r
      else a.onU fun u => u.emit (.partialRun port r)

/-- NEXP of a group or system entry at its deadline: the dies of a contributor that has not arrived are known to no
rule, so that the number is free (log entry 3). Mark: DEDUCED (log entry 25, safe). -/
def Agg.freeNexp (a : Agg) (e : RdxEnt) : Agg × RdxEnt :=
  if e.key.scope.val < 2 ∨ e.expect.all fun c => e.got.contains c || e.lostBy.contains c then (a, e)
  else
    let r := a.u.draw
    let e := { e with nexp := r.1 % 2 ^ 32 }
    ({ a with u := r.2 }.setEnt e, e)

/-- REDUCTION_DEADLINE: an entry's deadline passes (04 R158). Mark: DEDUCED (log entry 26, unsafe). -/
def Agg.rdxDeadline (a : Agg) (k : RdxKey) : Agg :=
  match a.ent? k, a.planFor k with
  | some e, some p =>
    if e.done.isNone && decide (e.deadline ≤ a.u.tb.now) then
      let r := a.freeNexp e
      (r.1.complete p r.2 false).sendUp p k
    else a
  | _, _ => a

/-- ENTRY_FREE: the result record of a completed entry is committed (04 R156). -/
def Agg.entryFree (a : Agg) (k : RdxKey) : Agg :=
  match a.ent? k with
  | some e =>
    if e.done.isSome then
      { a with rdx := { a.rdx with ents := a.rdx.ents.filter fun x => decide (x.key ≠ k) } }
    else a
  | none => a

/-- FRUN: a tray or group result reaches the root above (04 R157, R160). -/
def Agg.frun (a : Agg) (r : RdxResult) : Agg :=
  let sc := r.key.scope.val
  let up : RdxKey := { r.key with scope := if h : sc + 1 < 4 then ⟨sc + 1, h⟩ else 3, addr := scopeAddr r.key.addr (sc + 1) }
  match a.planFor up with
  | none => a
  | some p =>
    if sc = 0 || decide (p.scope ≤ sc) || decide (p.pver ≠ r.pver.toNat) || !a.rootHere sc || !a.owns p then a
    else
      let was := match a.ent? up with | some t => t.done.isSome | none => false
      let a := a.upArrive p r (a.expectOf sc) 0
      if was then a else a.sendUp p up

/-- SREFHAND: the owner's SREF value for the next launch (04 R163). -/
def Agg.srefhand (a : Agg) (plan port epn sref : Nat) : Agg :=
  let k := plan * 8 + port
  let fl := match Tab.find k a.rdx.flight with
    | some (n, _) => if n ≤ epn then Tab.del k a.rdx.flight else a.rdx.flight
    | none => a.rdx.flight
  { a with rdx := { a.rdx with sref := Tab.put k (epn, sref) a.rdx.sref, flight := fl } }

/-- An insert that replaces PLAN clears the histories of every straggler plan whose header it changes (04 R167). -/
def Agg.planEffect (a : Agg) (old new : List Byte) : Agg :=
  let changed := fun n =>
    (planList old).find? (fun p => p.id == n) |>.any fun p =>
      match (planList new).find? fun q => q.id == n with | some q => decide (q.head ≠ p.head) | none => true
  { a with rdx := { a.rdx with hist := a.rdx.hist.filter fun h => !changed (h.1 / 256) } }

/-! ### Registers -/

/-- RDX registers that plans give (04 R166, R167). -/
def Unit.planView (u : Unit) (ofs inst : Nat) : Option Word :=
  let w := fun (n : Nat) => some (BitVec.ofNat 32 n)
  let pl := u.plan? inst
  let f := fun (g : Plan → Nat) => w (match pl with | some p => g p | none => 0)
  if ofs = Reg.rdxStat then
    w (min (planList (u.sec 9)).length 127 + 128 * b2n (u.section? 9).isSome)
  else if ofs = Reg.rdxAtCfg then
    f fun p => 2 ^ 31 + b2n p.strag * 2 ^ 30 + p.owner * 2 ^ 29 + p.scope * 2 ^ 27 + p.trig * 2 ^ 26
      + (p.lanes.length - 1) * 2 ^ 21 + p.pver * 256
  else if ofs = Reg.rdxAtTimes then f fun p => p.lofs + p.dl.getD 0 0 * 65536
  else if ofs = Reg.rdxAtDltg then f fun p => p.dl.getD 1 0 + p.dl.getD 2 0 * 65536
  else if ofs = Reg.rdxAtDls then f fun p => p.dl.getD 3 0
  else if ofs = Reg.rdxAtSthr then f Plan.sthr
  else if ofs = Reg.rdxAtSkn then f fun p => p.sk + 256 * p.sn
  else none

/-- RDX registers of a die unit that its runners give. -/
def Die.rdxView (d : Die) (ofs inst : Nat) : Option Word :=
  let w := fun (n : Nat) => some (BitVec.ofNat 32 n)
  if ofs = Reg.rdxPhstep then w (match d.latestStep with | some s => s | none => 0xFFFFFF)
  else if ofs = Reg.rdxPhmask then
    w (match d.latestStep with
       | some s => (match Tab.find s d.rdx.steps with | some p => (p.pt.map fun x => 2 ^ x.1).sum | none => 0)
       | none => 0)
  else if ofs = Reg.rdxAtLastl then w (Tab.getD d.rdx.last inst 0)
  else if ofs = Reg.rdxAtLasth then w (Tab.getD d.rdx.last inst 0 / 2 ^ 32)
  else d.u.planView ofs inst

/-- Dies of a port that are stragglers, one bit per D (04 R166). -/
def Agg.stragMap (a : Agg) (port : Nat) : Nat :=
  (((List.range (a.chain port).len).filter fun d => a.straggler port d).map fun d => 2 ^ d).sum

/-- RDX registers of an aggregator that the engine gives. -/
def Agg.rdxView (a : Agg) (ofs inst : Nat) : Option Word :=
  let w := fun (n : Nat) => some (BitVec.ofNat 32 n)
  let last := Tab.getD a.rdx.last inst (0, 0, 0)
  if ofs = Reg.rdxInfl then w (a.rdx.ents.length + 65536 * a.rdx.high)
  else if ofs = Reg.rdxStragcnt then w (((List.range 8).map fun q => popCount (a.stragMap q) 32).sum)
  else if Reg.rdxStragmap ≤ ofs ∧ ofs < Reg.rdxStragmap + 32 then w (a.stragMap ((ofs - Reg.rdxStragmap) / 4))
  else if ofs = Reg.rdxAtLastl then w last.1
  else if ofs = Reg.rdxAtLasth then w (last.1 / 2 ^ 32)
  else if ofs = Reg.rdxAtLastst then w (last.2.1 + 256 * last.2.2)
  else a.u.planView ofs inst

end Sys2Proof.Machine
end

