-- ==== Sys2Proof/Machine/Health.lean ====
section
/-! DEFINITION. The die unit's health (08_health_vote): the score and the verdict (R280-R285, R287), watch-group
membership (R291, R292), fences (R295-R301, R327-R329), acceptance of chain commands (R318) and host links (R320,
R321). -/

namespace Sys2Proof

/-- The fence names a die: its own address, or its tray's aggregator A address (08 R295, R301). -/
def Fence.names (f : Fence) (a : Node) : Bool :=
  decide (f.subj = a) || (kindOf f.subj == 1 && trayOf f.subj == trayOf a)

/-- The fence's die masks list a die (08 R293, R296). -/
def Fence.lists (f : Fence) (a : Node) : Bool :=
  (Machine.leAt f.ext (4 * Machine.bitsOf a.toNat 9 7) 4).testBit (Machine.bitsOf a.toNat 6 2)

/-- The fence makes a die a member: OPEN or ADMIT (08 R293, R324). -/
def Fence.opens (f : Fence) : Bool := f.fkind == 5 || f.fkind == 4

/-- The instance a fence belongs to: WGID and GEN. -/
def Fence.inst (f : Fence) : Nat × Nat := (Machine.bitsOf f.wgid.toNat 11 0, f.gen.toNat)

/-- The fence is an EXPEL or a HARD, which uses a spare (08 R315). -/
def Fence.expels (f : Fence) : Bool := f.fkind == 2 || f.fkind == 3

/-- Two copies of one fence. -/
def Fence.same (f g : Fence) : Bool := decide (f.inst = g.inst) && f.fseq == g.fseq && f.decid == g.decid && f.fkind == g.fkind

/-- Bytes of a fence: the 48-byte descriptor and the extension (08 R295); `late` sets LATEVIS. -/
def Fence.bytes (f : Fence) (late : Bool) : List Byte :=
  [f.fkind, if late then f.fflags ||| 8 else f.fflags] ++ Machine.leBytes 2 f.wgid.toNat
    ++ Machine.leBytes 4 f.gen.toNat ++ Machine.leBytes 4 f.fseq.toNat ++ Machine.leBytes 3 f.subj.toNat ++ [f.cause]
    ++ Machine.leBytes 8 f.decid.toNat ++ Machine.leBytes 10 f.tf.toNat ++ Machine.leBytes 2 f.score.toNat
    ++ Machine.leBytes 4 f.seff.toNat ++ Machine.leBytes 3 f.rdie.toNat ++ Machine.leBytes 1 (f.ext.length / 4)
    ++ Machine.leBytes 2 f.spares.toNat ++ Machine.zeros 2 ++ f.ext

end Sys2Proof

namespace Sys2Proof.Machine

/-- Apply a function to the health unit. -/
def Die.onH (d : Die) (f : Hlt → Hlt) : Die := { d with hlt := f d.hlt }

/-! ### Score and verdict -/

/-- Highest level that the active bank gives (R280 ENS). -/
def Unit.ensLevel (u : Unit) : Nat :=
  let a := u.sco.active
  let t := (u.ensSlots fun _ => true).map fun s => (slotSt u.sco.trees a s).level
  let o := ((u.bank a).models.map fun m => (List.range m.nout).map fun o => (slotSt u.sco.outs a (m.slot * 16 + o)).level)
  (t ++ o.flatten).foldl max 0

/-- Weight of a level, of a state: 0 or one of three fields of 10 bits. -/
def weightOf (w : Word) (k : Nat) : Nat := if k = 0 then 0 else fieldOf w (10 * k - 1) (10 * k - 10)

/-- Contributions ENS, WIT, NOVOTE, DRIFT, MARGIN (R280). -/
def Die.comps (d : Die) : List Nat :=
  let u := d.u
  let ws := d.wit.state
  let n := (u.drf.metrics.filter fun p => p.2.drift).length
  let cls := ([1, 2, 3].filter fun c => decide (u.marginCount c > 0)).length
  [ weightOf (u.rd Reg.hltWens) u.ensLevel,
    if ws = 4 then u.fld Reg.hltWwit1 9 0 else weightOf (u.rd Reg.hltWwit0) ws,
    if d.hlt.nvAt.isSome then u.fld Reg.hltWwit1 19 10 else 0,
    min (u.fld Reg.hltWdrf 9 0 * n) (u.fld Reg.hltWdrf 19 10),
    u.fld Reg.hltWdrf 29 20 * cls ]

/-- Score without STRAG (R280, R285); with HEALTHEN 0 it reads 0 (R327). Mark: DEDUCED (log entry 46, unsafe). -/
def Die.lscore (d : Die) : Nat := if d.u.bit Reg.hltCtrl 0 then min 1023 d.comps.sum else 0

/-- The verdict of R282: hard flags, the witness state PROPOSED, the score against TDER and TEXP.
Mark: DEDUCED (log entry 46, unsafe). -/
def verdictOf (thr : Word) (hard : Nat) (proposed : Bool) (score : Nat) : Nat :=
  if hard ≠ 0 then 3
  else if proposed || decide (score ≥ fieldOf thr 25 16) then 2
  else if score ≥ fieldOf thr 9 0 then 1
  else 0

/-- Index of the greatest of a list, the lower index winning a tie. -/
def argmax (l : List Nat) : Nat := (l.findIdx? fun x => x == l.foldl max 0).getD 0

/-- The lowest set bit of a mask. -/
def lowBit (m : Nat) : Nat := ((bitList m 32).head?).getD 0

/-- The cause of a verdict (R284). -/
def causeOf (verd hard : Nat) (proposed : Bool) (comps : List Nat) : Nat :=
  if hard ≠ 0 then 8 + lowBit hard else if proposed && verd == 2 then 1 else argmax comps

/-- Counts since which a verdict at or below each of 0-3 has been computed (R283). -/
def holdSince (t : Tab Nat) (raw now : Nat) : Tab Nat :=
  (List.range 4).foldl
    (fun (t : Tab Nat) v => if raw ≤ v then (if (Tab.find v t).isNone then Tab.put v now t else t) else Tab.del v t) t

/-- The verdict after the computed one: up at once, down only to one held for the time (R283). -/
def stepVerdict (t : Tab Nat) (cur raw now hold : Nat) : Nat :=
  if raw ≥ cur then raw
  else ((List.range cur).find? fun v =>
    match Tab.find v t with | some c => decide (now - c ≥ hold) | none => false).getD cur

/-- HEALTH record (R285; TYPE 0x15 of 09 R336). -/
def Die.healthRecord (d : Die) (cls : RecClass) : Die :=
  if !d.u.bit Reg.hltCtrl 0 then d
  else
    let c := d.comps
    let pl := leBytes 2 d.lscore ++ leBytes 1 d.hlt.lv ++ leBytes 1 d.hlt.cause ++ (c.map (leBytes 2)).flatten
      ++ leBytes 2 d.hlt.hard
    (d.onU fun u => u.record 0x15 cls pl).onH fun h => { h with told := (d.lscore, d.hlt.lv, d.hlt.hard) }

/-- Margin class `cls` has a metric in DRIFT with DOWN (R287). -/
def Unit.marginDown (u : Unit) (cls : Nat) : Bool :=
  let ms := driftMets (u.sec 8)
  u.drf.metrics.any fun p => p.2.drift && p.2.down && (match ms[p.1]? with | some d => d.mclass == cls | none => false)

/-- The health unit's margin demand (R287). -/
def Die.healthDemand (d : Die) : Die :=
  let m := d.u.rd Reg.hltMarg
  let der := d.hlt.inforce == 1
  let v := max (if der then fieldOf m 3 0 else 0) (if d.u.marginDown 1 then fieldOf m 19 16 else 0)
  let f := max (if der then fieldOf m 11 8 else 0) (if d.u.marginDown 2 then fieldOf m 27 24 else 0)
  d.onW fun w => { w with healthV := v, healthF := f }

/-- Compute the score, the verdict and the demand anew, after an input changed (R280-R284, R287). A rise to EXPEL or
HARD sends its HEALTH record at once (R285). -/
def Die.health (d : Die) : Die :=
  let prop := d.wit.state == 4
  let raw := verdictOf (d.u.rd Reg.hltThr) d.hlt.hard prop d.lscore
  let since := holdSince d.hlt.since raw d.u.clk
  let lv := stepVerdict since d.hlt.lv raw d.u.clk (msT (d.u.fld Reg.hltDownhold 15 0))
  let old := d.hlt.lv
  let cause := causeOf lv d.hlt.hard prop d.comps
  let d := (d.onH fun h => { h with since := since, lv := lv, cause := cause }).healthDemand
  if lv > old ∧ lv ≥ 2 then d.healthRecord .alarm else d

/-- HEALTH_RECORD: other changes, at most one record per main epoch (R285); in SLEEP only when the hard flags changed
(18 R573). -/
def Die.healthReport (d : Die) : Die :=
  let now := (d.lscore, d.hlt.lv, d.hlt.hard)
  let changed := decide (now ≠ d.hlt.told) && (decide (d.u.power < 2) || decide (d.hlt.hard ≠ d.hlt.told.2.2))
  if changed && decide (d.hlt.toldEpoch ≠ some d.u.ep.lastMain) then
    (d.healthRecord .record).onH fun h => { h with toldEpoch := some d.u.ep.lastMain }
  else d

/-- Raise a hard flag of a code (R284). -/
def Die.hardFlag (d : Die) (code : Nat) : Die :=
  (d.onH fun h => { h with hard := h.hard ||| 2 ^ (code - 8) }).health

/-- A NOVOTE enters its window (R280). -/
def Die.novote (d : Die) : Die := (d.onH fun h => { h with nvAt := some d.u.clk }).health

/-- NOVOTE_EXPIRE (R280). -/
def Die.novoteExpire (d : Die) : Die :=
  match d.hlt.nvAt with
  | some c => if d.u.since c ≥ msT (1000 * d.u.fld Reg.hltNvwin 15 0) then (d.onH fun h => { h with nvAt := none }).health else d
  | none => d

/-! ### Host links -/

/-- Commit a LINK record (R320, R321; TYPE 0x16). The phase in progress is the lowest one of the step not released.
Mark: DEDUCED (log entry 46, unsafe). -/
def Die.linkRecord (d : Die) (link us : Nat) (cls : RecClass) : Die :=
  let s := match d.latestStep with | some s => s | none => 0xFFFFFF
  let st := (Tab.find ((s + 1) % 2 ^ 24) d.rdx.steps)
  let arr := match st with | some x => (x.arr.map fun (p : Nat × Nat) => 2 ^ p.1).sum | none => 0
  let ph := match st with
    | some x => ((List.range 16).find? fun k => (Tab.find k x.rel).isNone).getD 15
    | none => 0
  let pl := leBytes 1 link ++ zeros 3 ++ leBytes 4 (s + 1) ++ leBytes 2 arr ++ leBytes 1 ph ++ zeros 1 ++ leBytes 4 us
  d.onU fun u => u.record 0x16 cls pl

/-- LINK_DOWN: a status line falls (R320). The lines read 0 from reset until LINK_UP: HLT_LINK resets to 0 (R327). -/
def Die.linkDown (d : Die) (link : Nat) : Die :=
  if !d.hlt.up.testBit link then d
  else
    let d := (d.onH fun h => { h with up := h.up ^^^ 2 ^ link, down := Tab.put link d.u.clk h.down }).onU fun u => (u.err Reg.hltErr 3).irq 6
    d.linkRecord link 0 .alarm

/-- LINK_DEAD: it stayed down for HLT_LDTO µs (R321). -/
def Die.linkDead (d : Die) (link : Nat) : Die :=
  match Tab.find link d.hlt.down with
  | some c =>
    if d.u.since c ≥ usT (d.u.fld Reg.hltLdto 15 0) && !d.hlt.dead.testBit link then
      (d.onH fun h => { h with dead := h.dead ||| 2 ^ link }).hardFlag 9
    else d
  | none => d

/-- LINK_UP: the line rises; after a fall and before LINKDEAD a LINKUP record follows (R321). -/
def Die.linkUp (d : Die) (link : Nat) : Die :=
  let d := d.onH fun h => { h with up := h.up ||| 2 ^ link }
  match Tab.find link d.hlt.down with
  | some c =>
    let us := satN 32 (d.u.since c / 250)
    let d' := d.onH fun h => { h with down := Tab.del link h.down }
    if d.hlt.dead.testBit link then d' else d'.linkRecord link us .record
  | none => d

/-! ### Fences -/

/-- The instance the die belongs to (R291). -/
def Unit.group (u : Unit) : Option (Nat × Nat) :=
  if u.bit Reg.hltWg 31 then some (u.fld Reg.hltWg 11 0, u.rdN Reg.hltGen) else none

/-- Take up or leave a watch group at an instant (R291, R292). -/
def Die.member (d : Die) (g : Option (Nat × Nat)) (t : Nat) : Die :=
  d.onU fun u =>
    let gen : Word := match g with | some x => BitVec.ofNat 32 x.2 | none => 0
    let u := match g with
      | some x => u.wrN Reg.hltWg (x.1 + 2 ^ 31)
      | none => u.wr Reg.hltWg 0
    { u.wr Reg.hltGen gen with recs := { u.recs with gens := ((t, gen) :: u.recs.gens).take 64 } }

/-- The verdict in force, from a fence that names the die or its tray (R1, R283, R301, R324).
Mark: DEDUCED (log entry 41, unsafe). -/
def Die.takeVerdict (d : Die) (f : Fence) : Die :=
  if !f.names d.u.node || !d.u.nodeOk then d
  else if f.fkind = 4 then (d.onH fun h => { h with inforce := 0, hard := 0, dead := 0 }).health
  else if f.fkind.toNat > 3 then d
  else
    let k := f.fkind.toNat
    if (d.hlt.inforce ≥ 2 ∧ k < d.hlt.inforce) ∨ (k > 0 ∧ !d.paired) then d
    else (d.onH fun h => { h with inforce := k }).healthDemand

/-- Fences held and not yet visible. -/
def Hlt.waitingFences (h : Hlt) : List Fence :=
  ((h.slots.filter fun s => !s.2.visible).map fun s => s.2.f) ++ h.queue

/-- A fence of an instance and number has arrived: visible already, or held (R297). -/
def Die.arrived (d : Die) (inst : Nat × Nat) (fseq : Nat) : Bool :=
  (d.u.group == some inst && decide (fseq ≤ d.u.rdN Reg.hltFseq))
    || (d.hlt.waitingFences.any fun f => decide (f.inst = inst) && f.fseq.toNat == fseq)

/-- The die takes part in the instance of a fence, or will (R291, R293, R324).
Mark: DEDUCED (log entry 41, unsafe). -/
def Die.knows (d : Die) (f : Fence) : Bool :=
  d.u.group == some f.inst || (f.opens && f.lists d.u.node)
    || d.hlt.waitingFences.any fun g => g.opens && decide (g.inst = f.inst)

/-- The fence starts the die's numbering: an OPEN or ADMIT to an instance that it is not a member of (R297, R324).
Mark: DEDUCED (log entry 41, unsafe). -/
def Die.startsAt (d : Die) (f : Fence) : Bool := f.opens && decide (d.u.group ≠ some f.inst)

/-- The predecessor of a fence has arrived (R297). -/
def Die.noGap (d : Die) (f : Fence) : Bool := d.startsAt f || f.fseq == 0 || d.arrived f.inst (f.fseq.toNat - 1)

/-- The fence is the next to become visible (R297). -/
def Die.nextFence (d : Die) (f : Fence) : Bool :=
  d.startsAt f || (d.u.group == some f.inst && f.fseq.toNat == d.u.rdN Reg.hltFseq + 1)

/-- A fence becomes visible (R297, R298): LATEVIS, the HLT interrupt, membership and the verdict in force. -/
def Die.fenceVisible (d : Die) (slot : Nat) (s : FSlot) : Die :=
  let f := s.f
  let d := d.onH fun h => { h with slots := Tab.put slot { s with visible := true, chan := none } h.slots }
  let d := d.onU fun u => ((if s.late then u.err Reg.hltErr 2 else u).wr Reg.hltFseq f.fseq).irq 0
  let t := if s.late then d.u.tb.now else f.tf.toNat
  let d := if f.opens && f.lists d.u.node && decide (d.u.group ≠ some f.inst) then d.member (some f.inst) t
    else if f.fkind == 6 && d.u.group == some f.inst && f.lists d.u.node then d.member none t
    else d
  d.takeVerdict f

/-- Make every due fence that is next visible, a TEARDOWN before any other (R293, R297).
Mark: DEDUCED (log entry 41, unsafe). -/
def Die.advance (d : Die) : Nat → Die
  | 0 => d
  | n + 1 =>
    let c := d.hlt.slots.filter fun s => s.2.due && !s.2.visible && d.nextFence s.2.f
    match (c.find? fun s => s.2.f.fkind == 6), c.head? with
    | some s, _ => (d.fenceVisible s.1 s.2).advance n
    | none, some s => (d.fenceVisible s.1 s.2).advance n
    | none, none => d

/-- Arm the lowest free marked channel for a fence (R298). Mark: DEDUCED (log entry 41, unsafe). -/
def Die.fenceArm (d : Die) (slot : Nat) (f : Fence) : Die :=
  let free := (bitList (d.u.fld Reg.hltFch 15 2 * 4) 16).find? fun ch => !d.u.bit Reg.timAtArm 0 ch
  let tf := f.tf.toNat
  let late : FSlot := ⟨f, none, true, true, false, d.u.clk⟩
  match free with
  | none => d.onH fun h => { h with slots := Tab.put slot late h.slots }
  | some ch =>
    if tf ≤ d.u.tb.now then d.onH fun h => { h with slots := Tab.put slot late h.slots }
    else
      let u := d.u.wrN Reg.timAtCfg (4 + 4 * 16 + slot * 256 + 2 ^ 16) ch
      let u := (((u.wrN Reg.timAtAtf tf ch).wrN Reg.timAtAts0 (tf / 2 ^ 32) ch).wrN Reg.timAtAts1 (tf / 2 ^ 64) ch)
      let r := u.trigArm ch true
      let fired := !r.2.isEmpty
      { d with u := r.1, hlt := { d.hlt with
          slots := Tab.put slot ⟨f, if fired then none else some ch, fired, fired, false, d.u.clk⟩ d.hlt.slots } }

/-- Request a fence that has not arrived (R297, R299). -/
def Die.fenceAsk (d : Die) (inst : Nat × Nat) (fseq : Nat) : Die :=
  d.onU fun u => u.emit (.fenceReq inst.1 inst.2 fseq)

/-- A fence whose predecessor has not arrived sets FENCEGAP, and the predecessor is requested again (R297). -/
def Die.gapCheck (d : Die) (f : Fence) : Die :=
  if d.noGap f then d else (d.onU fun u => u.err Reg.hltErr 4).fenceAsk f.inst (f.fseq.toNat - 1)

/-- Place a fence in a slot (R298). -/
def Die.fencePlace (d : Die) (slot : Nat) (f : Fence) : Die := (d.fenceArm slot f).advance 17

/-- The fence of a list with the highest FSEQ. -/
def topFence (l : List Fence) : Option Fence :=
  l.foldl (fun (b : Option Fence) f => match b with | some g => if f.fseq.toNat > g.fseq.toNat then some f else b | none => some f)
    none

/-- The fence of a list with the lowest FSEQ. -/
def bottomFence (l : List Fence) : Option Fence :=
  l.foldl (fun (b : Option Fence) f => match b with | some g => if f.fseq.toNat < g.fseq.toNat then some f else b | none => some f)
    none

/-- Queue a fence, or discard the one with the highest FSEQ (R298, R299). -/
def Die.fenceQueue (d : Die) (f : Fence) : Die :=
  if d.hlt.queue.length < 64 then d.onH fun h => { h with queue := h.queue ++ [f] }
  else
    let d := d.onU fun u => u.err Reg.hltErr 1
    let held := (d.hlt.slots.map fun s => s.2.f) ++ d.hlt.queue
    let drop := fun (g : Fence) (h : Hlt) => { h with want := h.want ++ [(g.inst.1, g.inst.2, g.fseq.toNat)] }
    if held.all fun g => decide (f.fseq.toNat > g.fseq.toNat) then d.onH (drop f)
    else match topFence d.hlt.queue with
      | some g => d.onH fun h => drop g { h with queue := h.queue.erase g ++ [f] }
      | none => d

/-- FENCE_RECEIVE (R297-R301). A die unit that has never completed the handshake takes no verdict (R1).
Mark: DEDUCED (log entry 41, unsafe). -/
def Die.fenceReceive (d : Die) (f : Fence) : Die :=
  if f.gen = 0 ∨ !d.knows f then d.takeVerdict f
  else if d.arrived f.inst f.fseq.toNat then d
  else
    let d := d.gapCheck f
    match Tab.freeFrom d.hlt.slots 0 16 with
    | some i => if i < 16 then d.fencePlace i f else d.fenceQueue f
    | none => d.fenceQueue f

/-- A TEARDOWN held for the instant of another fence is due with it, so that it acts first (R293). -/
def FSlot.dueWith (g : Fence) (s : FSlot) : FSlot :=
  if s.f.fkind == 6 && !s.visible && decide (s.f.tf = g.tf) then { s with due := true } else s

/-- A FENCE channel fires (R293, R298; 02 R82). Mark: DEDUCED (log entry 41, unsafe). -/
def Die.fenceFire (d : Die) (slot : Nat) : Die :=
  match Tab.find slot d.hlt.slots with
  | some s =>
    if s.visible || s.due then d
    else
      let put := fun (h : Hlt) => Tab.put slot { s with due := true, chan := none } h.slots
      (d.onH fun h => { h with slots := (put h).map fun x => (x.1, x.2.dueWith s.f) }).advance 17
  | none => d

/-- FENCE_DONE: a write of HLT[sel].DONE (R299, R300, R327); one in the cycle of the fence's placement is ignored (R328).
A cycle is one count of the oscillator. Mark: DEDUCED (log entry 41, unsafe). -/
def Die.fenceDone (d : Die) (slot : Nat) : Die :=
  match Tab.find slot d.hlt.slots with
  | some s =>
    if !s.visible || decide (s.at_ = d.u.clk) then d
    else
      let d := d.onH fun h => { h with slots := Tab.del slot h.slots }
      match bottomFence d.hlt.queue with
      | some f =>
        let d := ((d.onH fun h => { h with queue := h.queue.erase f }).gapCheck f).fencePlace slot f
        (match d.hlt.want with
         | x :: t => (d.onH fun h => { h with want := t }).fenceAsk (x.1, x.2.1) x.2.2
         | [] => d)
      | none => d
  | none => d

/-! ### Chain commands -/

/-- `a` is newer than `b`, numbers modulo 2^32 (R318). -/
def newer (a b : Nat) : Bool :=
  let d := (a + 2 ^ 32 - b) % 2 ^ 32
  decide (d ≠ 0) && decide (d < 2 ^ 31)

/-- The oldest of a window. -/
def oldest (w : List Nat) : Option Nat :=
  w.foldl (fun (m : Option Nat) x => match m with | some y => if newer y x then some x else m | none => some x) none

/-- The die unit is a command's addressee: its own address, every unit, or a watch group (R290; 10 R380; 01 R26). -/
def Unit.cmdFor (u : Unit) (c : ChainCmd) : Bool :=
  decide (c.dest = 0xFFFFFF) || (u.nodeOk && decide (addrEff c.dest = u.node))
    || (kindOf c.dest == 3 && !c.dest.toNat.testBit 21)

/-- WGID of a watch-group address (R290). -/
def wgidOf (a : Node) : Nat := bitsOf a.toNat 20 9

/-- Acceptance of a copy (R291, R318): counted, dropped or taken into the window.
Mark: DEDUCED (log entry 49, unsafe). -/
def Die.cmdAccept (d : Die) (c : ChainCmd) : Die :=
  let cs := c.cseq.toNat
  let wg := kindOf c.dest == 3 && decide (c.dest ≠ 0xFFFFFF)
  if wg && decide (d.u.group ≠ some (wgidOf c.dest, c.gen.toNat)) then
    d.onU fun u => (u.count Reg.hltWgdropcnt).err Reg.hltErr 0
  else if d.hlt.window.contains cs then d.onU fun u => u.count Reg.hltCmddup
  else match oldest d.hlt.window with
    | some o =>
      if newer cs o then
        (d.onH fun h =>
          { h with window := if h.window.length ≥ 64 then h.window.erase o ++ [cs] else h.window ++ [cs] }).onU fun u =>
            u.count Reg.hltCmdcnt
      else d.onU fun u => u.err Reg.hltErr 5
    | none => (d.onH fun h => { h with window := [cs] }).onU fun u => u.count Reg.hltCmdcnt

/-! ### Registers -/

/-- Word of the fence in a slot for the register at `ofs` of those from `base`, which show its bytes from `o`. -/
def slotWord (s : Option FSlot) (ofs base o : Nat) : Word :=
  match s with
  | some x => BitVec.ofNat 32 (leAt (x.f.bytes x.late) (o + (ofs - base)) 4)
  | none => 0

/-- HLT registers that the health unit's state holds (R327, R329). -/
def Die.hltView (d : Die) (ofs slot : Nat) : Option Word :=
  let w := fun (n : Nat) => some (BitVec.ofNat 32 n)
  let h := d.hlt
  let c := d.comps
  let s := Tab.find slot h.slots
  if ofs = Reg.hltStat then
    w (d.lscore + 1024 * h.lv + 4096 * h.inforce + 16384 * b2n d.paired + 65536 * h.cause + 2 ^ 20 * h.slots.length)
  else if ofs = Reg.hltComp0 then w (c.getD 0 0 + 1024 * c.getD 1 0 + 2 ^ 20 * c.getD 2 0)
  else if ofs = Reg.hltComp1 then w (c.getD 3 0 + 1024 * (c.getD 4 0 % 1024))
  else if ofs = Reg.hltHard then w h.hard
  else if ofs = Reg.hltLink then
    w (h.up + 65536 * h.dead)
  else if ofs = Reg.hltAtFstat then
    match s with
    | some x =>
      w (256 * (match x.chan with | some k => k | none => 0xFF)
        + 8 * b2n (!x.visible && (x.due || !d.noGap x.f)) + 4 * b2n x.late + 2 * b2n x.visible + 1)
    | none => w 0xFF00
  else if ofs = Reg.hltAtFseq then (match s with | some x => some x.f.fseq | none => w 0)
  else if inRange ofs Reg.hltAtFd 48 then some (slotWord s ofs Reg.hltAtFd 0)
  else if inRange ofs Reg.hltAtFx 132 then some (slotWord s ofs Reg.hltAtFx 48)
  else none

end Sys2Proof.Machine
end

