-- ==== Sys2Proof/Machine/Race.lean ====
section
/-! DEFINITION. The Race link (10_race_link): training, generations and hop failure (R365-R369, R386, R387), frames
relayed by a die unit (R370-R376), BEATs (R379), commands of an aggregator (08 R318; R380, R381), the record load (R385),
and the enumeration of a chain (01 R28-R36). -/

namespace Sys2Proof.Machine

/-! ### Ports -/

/-- Key of the chain generation of a port: a die unit has one chain. -/
def Unit.chainKey (u : Unit) (p : Nat) : Nat := if u.isDie then 0 else p

/-- Chain generation fixed under R367; 0 none. -/
def Unit.chainGen (u : Unit) (p : Nat) : Nat := Tab.getD u.race.gen (u.chainKey p) 0

/-- Generation to which a hop trains: Race-1 until the chain generation is fixed, and again after its retrain failed
(R367, R368). -/
def Unit.trainGen (u : Unit) (p : Nat) : Nat := if u.chainGen p = 0 ∨ u.race.genFail.contains p then 1 else u.chainGen p

/-- This end supports a generation (R365, R388). -/
def Unit.hasGen (u : Unit) (g : Nat) : Bool :=
  decide (1 ≤ g) && decide (g ≤ 3) && (u.isAgg || u.bit Reg.raceGencap (g - 1))

/-- A port loses its connection: DOWN, counted, frames that wait gone (R386, R389). -/
def Unit.portDown (u : Unit) (p cause : Nat) : Unit :=
  let v := (u.rport p).wait.foldl (fun (v : Unit) w => v.giveCredit w.src w.cls w.units) u
  ((v.setRport p { rport0 with since := u.clk }).count Reg.raceAtDowncnt p).wrN Reg.raceAtLastdown cause p

/-- A port went DOWN by itself in this cycle (R388). -/
def Unit.noteFell (u : Unit) (p : Nat) : Unit := { u with race := { u.race with fell := Tab.put p u.clk u.race.fell } }

/-- HOP_TRAIN: a hop detects its peer and runs the training steps (R369). -/
def Unit.hopTrain (u : Unit) (p : Nat) (peer : Peer) : Unit :=
  let x := u.rport p
  if x.state = 2 ∨ u.bit Reg.raceCtrl 0 = false then u
  else u.setRport p { rport0 with state := 1, gen := 1, step := 1, since := if x.state = 1 then x.since else u.clk
                                  peerAgg := peer.agg, peer := peer.node, gens := peer.gens.toNat }

/-- TRAIN_TIMEOUT: a step does not complete within its limit (R369). Mark: DEDUCED (log entry 29, unsafe). -/
def Unit.trainTimeout (u : Unit) (p : Nat) : Unit :=
  let x := u.rport p
  if x.state = 1 ∧ u.since x.since ≥ usT 50 then u.setRport p { rport0 with since := u.clk } else u

/-- TRAIN_RETRY: every 1 ms while RETRAINEN = 1 (R369). -/
def Unit.trainRetry (u : Unit) (p : Nat) : Unit :=
  let x := u.rport p
  if x.state = 0 ∧ u.bit Reg.raceCtrl 0 ∧ u.bit Reg.raceCtrl 1 ∧ u.since x.since ≥ msT 1 then
    u.setRport p { rport0 with state := 1, gen := 1, step := 1, since := u.clk }
  else u

/-- The port enters UP at a generation, with the credits that the peer advertises (R369, R371). -/
def Unit.portUp (u : Unit) (p gen : Nat) : Unit :=
  let x := u.rport p
  u.setRport p { x with state := 2, gen := gen, step := 0, since := u.clk, window := none, started := false
                        cred := creditsFull, credAt := u.clk, wait := [], held := [] }

/-- HOP_UP: LINKUP completes training (R369); both ends support the generation. -/
def Unit.hopUp (u : Unit) (p : Nat) : Unit :=
  let x := u.rport p
  let g := u.trainGen p
  if x.state = 1 ∧ u.hasGen g ∧ x.gens.testBit (g - 1) then u.portUp p g else u

/-- The side of a die unit's port. -/
def sideOfPort (p : Nat) : Side := if p = 0 then .a else .b

/-- HOPDOWN or HOPUP of a port, out of the die unit's other port (R386, R369). A unit without an address sends it with
ORIG 0. -/
def Unit.hopTell (u : Unit) (p : Nat) (up : Bool) (cause : Nat) : Unit :=
  let o := (sideOfPort p).other.ix
  u.raceOwn o 0 28 (.hop o up (sideOfPort p).ix cause u.tb.now)

/-- HOP_UP at a die unit: one that holds an address sends HOPUP (R369). A hop whose retrain to the chain generation failed is
down at that generation, whatever it trains at, and sends none: its chain stays split (R368). -/
def Die.hopUp (d : Die) (p : Nat) : Die :=
  let u := d.u.hopUp p
  if u.raceUp p && !d.u.raceUp p && u.nodeOk && !u.race.genFail.contains p then { d with u := u.hopTell p true 0 } else { d with u := u }

/-- A port of a die unit goes DOWN and the other port reports it (R386). -/
def Unit.dieDown (u : Unit) (p cause : Nat) : Unit :=
  if (u.rport p).state = 0 then u else (u.portDown p cause).hopTell p false cause

/-! ### Chains of an aggregator -/

/-- Change the status of a chain; the route follows 10 µs later (04 R153). -/
def Agg.setStatus (a : Agg) (p : Nat) (st : ChainStatus) (last : Nat) : Agg :=
  let c := a.chain p
  let o := a.route p
  { a with chains := Tab.put p { c with status := st, last := last, oldStatus := o.1, oldLast := o.2
                                        changed := a.u.clk } a.chains }

/-- Change a chain. -/
def Agg.onChain (a : Agg) (p : Nat) (f : Chain → Chain) : Agg :=
  { a with chains := Tab.put p (f (a.chain p)) a.chains }

/-- Key of a die unit of the tray: 32P + D. -/
def dieKey (n : Node) : Nat := bitsOf n.toNat 9 2

/-- The last D of side B on a split chain: the lowest D from which a frame comes within 3 × RACE_BEATPER µs of its B pass
(01 R33, R34). -/
def Agg.lowestD (a : Agg) (k : Nat) : Agg :=
  let c := a.chain (k / 32)
  match c.bAt with
  | some t =>
    if c.status = .split ∧ k % 32 < c.last ∧ a.u.since t < usT (3 * a.u.fld Reg.raceBeatper 7 0) then
      a.setStatus (k / 32) .split (k % 32)
    else a
  | none => a

/-- A frame that a die unit originated arrived at this head (R379; R26); the die is off no longer (18 R578).
Mark: DEDUCED (log entry 31, unsafe). -/
def Agg.heardDie (a : Agg) (n : Node) : Agg :=
  let k := dieKey n
  let a := a.onU fun u => u.addrs [n]
  let a := if a.u.bit (Reg.glbOffmap + 4 * (k / 32)) (k % 32) then
      a.onU fun u => u.wrBit (Reg.glbOffmap + 4 * (k / 32)) (k % 32) false
    else a
  { a with heard := Tab.put k a.u.clk a.heard, lostAt := Tab.del k a.lostAt }.lowestD k

/-- The die unit of a key is reachable from this head (R379). -/
def Agg.reaches (a : Agg) (k : Nat) : Bool := (Tab.find k a.heard).isSome

/-- A die unit is no longer reachable from this head. -/
def Agg.lose (a : Agg) (k : Nat) : Agg :=
  if a.reaches k then { a with heard := Tab.del k a.heard, lostAt := Tab.put k a.u.clk a.lostAt } else a

/-- DIE_UNREACHABLE: no frame within 3 × RACE_BEATPER µs (R379). -/
def Agg.dieUnreachable (a : Agg) (k : Nat) : Agg :=
  match Tab.find k a.heard with
  | some c => if a.u.since c ≥ usT (3 * a.u.fld Reg.raceBeatper 7 0) then a.lose k else a
  | none => a

/-- D numbers of the port's die units that this head reaches. -/
def Agg.reached (a : Agg) (p : Nat) : List Nat := (List.range 32).filter fun k => a.reaches (32 * p + k)

/-- Last D that this head reached: the farthest from side A, the nearest to die 0 from side B; 0x3F none (01 R33, R34).
Mark: DEDUCED (log entry 30, unsafe). -/
def Agg.lastReached (a : Agg) (p : Nat) : Nat :=
  let l := a.reached p
  match a.side with
  | .a => (l.max?).getD 0x3F
  | .b => (l.min?).getD 0x3F

/-- A head hop of an aggregator goes DOWN: the port is SPLIT with no die reached (R387). -/
def Agg.headDown (a : Agg) (p cause : Nat) : Agg :=
  if (a.u.rport p).state = 0 then a
  else
    let a := a.onU fun u => (u.portDown p cause).err Reg.hltAggerr 2
    let s := (a.chain p).status
    let a := a.onChain p fun c => { c with bAt := none, aSent := false }
    if s = .complete ∨ s = .split then a.setStatus p .split 0x3F else a

/-- HOPDOWN_RECEIVE (R387). The failure of a hop in the retraining of a generation switch raises A's ALARM (R368). -/
def Agg.hopdownReceive (a : Agg) (p : Nat) (orig : Node) (port : Side) : Agg :=
  if !a.u.raceUp p then a
  else
    let a := (a.heardDie orig).onU fun u => u.raceRx p 0 28
    let switching := match Tab.find p a.u.race.setgen with
      | some (_, t) => decide (t ≤ a.u.tb.now) && decide (a.u.tb.now ≤ t + nsUp 100000)
      | none => false
    let a := if switching && decide (a.side = .a) then a.onU fun u => u.alarm .genFail else a
    let st := (a.chain p).status
    if port = a.side ∨ (st ≠ .complete ∧ st ≠ .split) then a
    else (a.onChain p fun c => { c with bAt := none }).setStatus p .split (bitsOf orig.toNat 6 2)

/-! ### Commands of an aggregator -/

/-- Send a copy of a command from a head (R380). -/
def Agg.sendCmd (a : Agg) (p : Nat) (c : ChainCmd) : Agg := a.onU fun u => u.raceOwn p 1 (32 + c.op.alen) (.cmd p c)

/-- The partner's address. -/
def Agg.partnerAddr (a : Agg) : Node := sideAddr (a.u.node.toNat / 1024) a.side.other

/-- Hand a command to the partner (08 R318). Mark: DEDUCED (log entry 49, unsafe). -/
def Agg.handCmd (a : Agg) (p : Nat) (c : ChainCmd) (resends : Nat) : Agg :=
  if a.partner then a.send a.partnerAddr 1 (.cmdHand p c) resends else a

/-- The next CSEQ of this side on a port: the pair numbers per port, side A with even values and side B with odd ones, so
that no value is used twice. Mark: DESIGN CHOICE (log entry 49, unsafe). -/
def Agg.nextCseq (a : Agg) (p : Nat) : Nat :=
  let n := Tab.getD a.vote.cseq p 0
  if n % 2 = a.side.ix then n else (n + 1) % 2 ^ 32

/-- A CSEQ seen on a port: the pair's numbering goes on after it (08 R318). -/
def Agg.noteCseq (a : Agg) (p cseq : Nat) : Agg :=
  let n := Tab.getD a.vote.cseq p 0
  if (cseq + 2 ^ 32 - n) % 2 ^ 32 < 2 ^ 31 then
    { a with vote := { a.vote with cseq := Tab.put p ((cseq + 1) % 2 ^ 32) a.vote.cseq } }
  else a

/-- Issue a command to the dies of a chain (08 R318): its CSEQ, the copy from the own head, and the partner's. -/
def Agg.issue (a : Agg) (p : Nat) (dest : Node) (gen : Word) (op : ChainOp) : Agg :=
  let n := a.nextCseq p
  let c : ChainCmd := ⟨BitVec.ofNat 32 n, 0, dest, gen, a.u.node, op⟩
  let f : InFlight := ⟨p, c, none, none, a.u.clk, false⟩
  let a := { a with vote := { a.vote with cseq := Tab.put p ((n + 1) % 2 ^ 32) a.vote.cseq
                                          flights := a.vote.flights ++ [f] } }
  (a.sendCmd p c).handCmd p c 0

/-! ### Generations -/

/-- The highest generation set in a mask and not above a limit (R367). -/
def topGen (mask lim : Nat) : Nat := (([1, 2, 3].filter fun g => mask.testBit (g - 1) && decide (g ≤ lim)).max?).getD 0

/-- GENMAX that both sides allow on a port (R367; 18 R590). -/
def Agg.genLimit (a : Agg) (p : Nat) : Nat :=
  let own := a.u.fld Reg.raceAtGenmax 1 0 p
  match a.pair.hello with
  | some h => if a.pair.done then min own ((h.genmax.getD p 0).toNat) else own
  | none => own

/-- Choose the chain generation of a port and issue SETGEN, with the switch 200 µs on (R367). -/
def Agg.chooseGen (a : Agg) (p mask : Nat) : Agg :=
  let g := topGen mask (a.genLimit p)
  let t := a.u.tb.now + nsUp 200000
  if g = 0 then a
  else
    let a := (a.onChain p fun c => { c with gmask := none }).onU fun u =>
      { u with race := { u.race with setgen := Tab.put p (g, t) u.race.setgen } }
    a.issue p 0xFFFFFF 0 (.setgen (BitVec.ofNat 2 g) (BitVec.ofNat 80 t))

/-- Choose it once the pair handshake has ended or the side proceeds alone (R367; 18 R589). -/
def Agg.offerGen (a : Agg) (p mask : Nat) : Agg :=
  if a.pair.done || a.pair.alone then a.chooseGen p mask else a.onChain p fun c => { c with gmask := some mask }

/-- SETGEN at a die unit (R367); a unit in MISWIRED takes none (01 R32). -/
def Die.setgen (d : Die) (g t : Nat) : Die :=
  if g = 0 || d.u.bit Reg.glbNodeaddr 26 then d
  else d.onU fun u => { u with race := { u.race with setgen := Tab.put 0 (g, t) u.race.setgen } }

/-- GEN_SWITCH on a port: at the switch instant the hop retrains, once (R367), or fails to (R368).
Mark: DEDUCED (log entry 29, unsafe). -/
def Unit.genSwitch (u : Unit) (p : Nat) (failed : Bool) : Unit :=
  match Tab.find (u.chainKey p) u.race.setgen with
  | some (g, t) =>
    if u.tb.now < t ∨ Tab.find p u.race.switched = some t then u
    else
      let fails := failed && (u.rport p).state == 2
      let rest := u.race.genFail.filter fun k => k != p
      let u := { u with race := { u.race with gen := Tab.put (u.chainKey p) g u.race.gen
                                              switched := Tab.put p t u.race.switched
                                              genFail := if fails then rest ++ [p] else rest } }
      if (u.rport p).state ≠ 2 then u
      else if failed then u.err Reg.raceErr 5
      else u.portUp p g
  | none => u

/-- The switch instant of a port's chain has come and the port is UP (R367). -/
def Unit.switchDue (u : Unit) (p : Nat) : Bool :=
  u.raceUp p && match Tab.find (u.chainKey p) u.race.setgen with
    | some x => decide (x.2 ≤ u.tb.now) && decide (Tab.find p u.race.switched ≠ some x.2)
    | none => false

/-- GEN_SWITCH of a die unit. A hop that fails is down, and its HOPDOWN tells the heads (R368, R386). -/
def Die.genSwitch (d : Die) (p : Nat) (failed : Bool) : Die :=
  let u := d.u.genSwitch p failed
  if failed && d.u.switchDue p then { d with u := u.dieDown p 1 } else { d with u := u }

/-- GEN_SWITCH of an aggregator. -/
def Agg.genSwitch (a : Agg) (p : Nat) (failed : Bool) : Agg :=
  let u := a.u.genSwitch p failed
  if failed && a.u.switchDue p then
    let a := { a with u := u }.headDown p 1
    if a.side = .a then a.onU fun u => u.alarm .genFail else a
  else { a with u := u }

/-! ### Frames at a die unit -/

/-- A frame keeps to its row of R370. -/
def frameOk (f : RaceFrame) : Bool :=
  let t := f.ftype.toNat
  let c := f.cls.toNat
  let n := f.len.toNat
  if t = 0x10 then c == 0 && decide (n ≤ 52) || (c == 3 || c == 4) && decide (n ≤ 2052)
  else if t = 0x11 ∨ t = 0x12 ∨ t = 0x13 then c == 1 && decide (n ≤ 244)
  else if t = 0x14 then c == 1 && n == 8
  else if t = 0x15 then c == 3 && n == 8
  else if t = 0x16 then (c == 0 || c == 3 || c == 4) && n == 12
  else if t = 0x17 ∨ t = 0x18 then c == 0 && n == 16
  else if t = 0x01 ∨ t = 0x02 then c == 2 && decide (n ≤ 8704)
  else false

/-- A runner frame carries no Race header. -/
def runnerFrame (f : RaceFrame) : Bool := f.ftype == 1 || f.ftype == 2

end Sys2Proof.Machine

namespace Sys2Proof

/-- The frame's HCHK or its trailer is wrong (10 R374, R376); one that ends before its trailer has none. -/
def RaceFrame.wrong (f : RaceFrame) : Bool := (!Machine.runnerFrame f && !f.hchkOk) || (!f.crcOk && !f.cut)

end Sys2Proof

namespace Sys2Proof.Machine

/-- Bytes of a frame on the wire, without line coding (R370). -/
def frameBytes (f : RaceFrame) : Nat := if runnerFrame f then f.len.toNat else 12 + f.len.toNat

/-- A port of a die unit at which 16 frames in a row had a wrong HCHK or trailer goes DOWN, by itself (R386). -/
def Unit.burst (u : Unit) (p : Nat) : Unit :=
  if 16 ≤ (u.rport p).bad then (u.dieDown p 2).noteFell p else u

/-- A frame that a die unit discards frees its buffer at the port it came in by (R371, R373). -/
def Die.frameGone (d : Die) (p : Nat) (f : RaceFrame) : Die :=
  d.onU fun u => u.giveCredit (some p) f.cls.toNat (unitsOf (frameBytes f))

/-- A frame that was cut short, or whose trailer is wrong, is counted (R376). -/
def Unit.frameCounted (u : Unit) (p : Nat) (f : RaceFrame) : Unit :=
  if f.cut then (u.count Reg.raceAtTrunccnt p).err Reg.raceErr 2
  else if !f.crcOk then (u.count Reg.raceAtCrcerr p).err Reg.raceErr 1
  else u

/-- A frame's DEST is this die unit (R376). -/
def Die.forMe (d : Die) (f : RaceFrame) : Bool := d.u.nodeOk && addrEff f.dest == d.u.node

/-- A frame with a valid header: a sign of its head, counted where it is damaged, and out of the other port unless it is
addressed to this die unit (R370, R373, R376). -/
def Die.frameOn (d : Die) (s : Side) (f : RaceFrame) : Die :=
  let d := match headOf f.orig with | some h => d.heard h | none => d
  let d := d.onU fun u => u.frameCounted s.ix f
  let d := if f.ftype == 0x13 then d.onU fun u => u.addrs [f.dest] else d
  if f.ftype == 0x13 && d.forMe f then d.frameGone s.ix f
  else d.onU fun u => u.raceTx s.other.ix f.cls.toNat (frameBytes f) (.relay s.other.ix f (f.crcOk && !f.cut)) (some s.ix)

/-- What becomes of a frame that reaches a port which is UP (R370, R373-R376): one whose header is damaged or that no type
allows is discarded. -/
def Die.takeFrame (d : Die) (s : Side) (f : RaceFrame) : Die :=
  let p := s.ix
  let d := d.onU fun u => if f.wrong then u.raceBad p else u.raceArr p
  if !runnerFrame f && !f.hchkOk then (d.onU fun u => (u.count Reg.raceAtHdrerr p).err Reg.raceErr 0).frameGone p f
  else if !frameOk f then (d.onU fun u => (u.count Reg.raceAtHdrerr p).err Reg.raceErr 6).frameGone p f
  else d.frameOn s f

/-- FRAME_RELAY: a frame reaches a port of a die unit (R370, R373-R376, R386). -/
def Die.frameRelay (d : Die) (s : Side) (f : RaceFrame) : Die :=
  if !d.u.raceUp s.ix || !d.u.lnkRuns then d else (d.takeFrame s f).onU fun u => u.burst s.ix

/-- BEAT: toward each head (R379). -/
def Die.beat (d : Die) : Die :=
  if d.u.lnkRuns then d.onU fun u => (u.raceOwn 0 3 20 (.beat 0)).raceOwn 1 3 20 (.beat 1) else d

/-! ### Record load -/

/-- Bytes on the wire of a record of a payload (R384). -/
def wireBytes (payload : Nat) : Nat := 32 + payload + 16 * ((32 + payload + 2047) / 2048)

/-- Bytes of the payload that RECFMT gives a snapshot record (16 R530). -/
def Die.snapBytes (d : Die) (fast : Bool) : Nat :=
  let i := d.image fast ⟨0, 0, 0, 0, 0, 0, 0, 0, 0, 0, 0, 0, 0, 0, 0, 0⟩ (List.replicate 256 0) 0
  (i.items.map fun it => (itemBytes i none it).length).sum

/-- Thousandths of the payload rate of a generation for bytes per 10 µs × 10^6 (R384): rate over wire factor. -/
def loadOf (gen perSecond : Nat) : Nat :=
  if gen = 3 then perSecond * 8 * 1000 * 104 / (32000000000 * 100)
  else if gen = 2 then perSecond * 8 * 1000 * 104 / (16000000000 * 100)
  else if gen = 1 then perSecond * 8 * 1000 * 125 / (4000000000 * 100)
  else 0

/-- RACE_LOAD computed anew (R385): the die unit's share times LEN. Mark: DEDUCED (log entry 29, unsafe). -/
def Die.raceLoad (d : Die) : Die :=
  let main := wireBytes (d.snapBytes false) * 100000 / d.u.epu
  let fast := if d.u.bit Reg.timCtrl 1 then wireBytes (d.snapBytes true) * 100000 / d.u.epfu else 0
  let n := satN 16 (loadOf (d.u.chainGen 0) ((main + fast) * d.u.race.len))
  d.onU fun u =>
    let u := u.wrN Reg.raceLoad n
    if n > 750 then (u.err Reg.raceErr 4).alarm .overBudget else u

/-! ### Enumeration -/

/-- CHECKED and MISWIRED in GLB_NODEADDR (01 R47). -/
def Unit.checked (u : Unit) : Bool := u.bit Reg.glbNodeaddr 25
def Unit.miswired (u : Unit) : Bool := u.bit Reg.glbNodeaddr 26

/-- Take an address (01 R30, R36): one that differs starts new series. Audit entries not yet committed are offered. -/
def Die.takeAddress (d : Die) (n : Node) : Die :=
  if d.u.nodeOk ∧ d.u.node = n then d
  else
    let ss := dieStreams.map fun c => (c, { newStream n c with log := (d.u.stream c).log })
    let d := if d.u.node = n ∧ d.u.recs.streams ≠ [] then d
      else
        { d.onU fun u => { u with node := n, recs := { u.recs with streams := ss, dign := 0 } } with
            headA := { d.headA with streams := [] }, headB := { d.headB with streams := [] } }
    d.onU fun u => { u with nodeOk := true }.offerAll

/-- The unit enters MISWIRED: it holds no address (01 R32). -/
def Die.miswire (d : Die) : Die :=
  d.onU fun u => { (u.wrBit Reg.glbNodeaddr 26 true).wrBit Reg.glbNodeaddr 25 false with
    nodeOk := false, race := { u.race with cand := none } }

/-- The address that a pass gives a die unit; none when D would be below 0 (01 R30, R31). -/
def enumAddr (e : EnumMsg) : Option Node :=
  let d := match e.side with
    | .a => if e.h.toNat < 32 then some e.h.toNat else none
    | .b => if e.h.toNat < e.len.toNat ∧ e.len.toNat ≤ 32 then some (e.len.toNat - 1 - e.h.toNat) else none
  d.map fun k => BitVec.ofNat 24 (e.g.toNat * 65536 + e.t.toNat * 1024 + e.p.toNat * 128 + k * 4)

/-- The A pass at a die unit: it takes D = h (01 R30). A unit in MISWIRED keeps the address aside until the B pass agrees
with it. -/
def Die.enumA (d : Die) (n : Node) : Die :=
  let d := if d.u.miswired then d.onU fun u => { u with race := { u.race with cand := some n } } else d.takeAddress n
  d.onU fun u => { u with race := { u.race with apass := true } }

/-- The B pass: it compares what the unit holds with what the pass gives, or gives it an address (01 R31, R32). CHECKED
takes an A pass before it: it stays 0 where side B enumerates alone (01 R34). -/
def Die.enumB (d : Die) (n : Option Node) : Die :=
  let both := d.u.race.apass
  let d := d.onU fun u => { u with race := { u.race with apass := false } }
  match n with
  | none => d.miswire
  | some n =>
    if d.u.nodeOk || d.u.miswired then
      if (if d.u.miswired then d.u.race.cand else some d.u.node) = some n then
        (d.takeAddress n).onU fun u => (u.wrBit Reg.glbNodeaddr 26 false).wrBit Reg.glbNodeaddr 25 both
      else d.miswire
    else (d.takeAddress n).onU fun u => u.wrBit Reg.glbNodeaddr 25 false

/-- ENUM at a die unit (01 R30, R31, R34; R367): address, LEN, GENCAP into GMASK, and on with h + 1.
Mark: DEDUCED (log entry 30, unsafe). -/
def Die.enumReceive (d : Die) (s : Side) (e : EnumMsg) : Die :=
  if e.side ≠ s ∨ d.u.raceUp s.ix = false then d
  else
    let d := (d.heard s).onU fun u => u.raceRx s.ix 1 20
    let d := match s, enumAddr e with
      | .a, some n => d.enumA n
      | .a, none => d
      | .b, n => d.enumB n
    let d := d.onU fun u => { u with race := { u.race with len := e.len.toNat } }
    let cap := d.u.fld Reg.raceGencap 2 0
    let e' := { e with h := e.h + 1, gmask := e.gmask &&& BitVec.ofNat 3 cap }
    d.onU fun u => u.raceOwn s.other.ix 1 20 (.enum s.other.ix e')

/-- The ENUM that a head sends (01 R30, R31). Mark: DEDUCED (log entry 30, unsafe). -/
def Agg.enumMsg (a : Agg) (p : Nat) (gmask : BitVec 3) : EnumMsg :=
  { g := BitVec.ofNat 6 (bitsOf a.u.node.toNat 21 16), t := BitVec.ofNat 6 (bitsOf a.u.node.toNat 15 10)
    p := BitVec.ofNat 3 p, len := BitVec.ofNat 8 (a.chain p).len, side := a.side, h := 0, gmask := gmask }

/-- Send ENUM with h = 0 (01 R30, R31). -/
def Agg.sendEnum (a : Agg) (p : Nat) (gmask : BitVec 3) : Agg :=
  let e := a.enumMsg p gmask
  a.onU fun u => u.raceOwn p 1 20 (.enum p e)

/-- ENUM_START: aggregator A enumerates a port (01 R30). -/
def Agg.enumStart (a : Agg) (p : Nat) : Agg :=
  if a.side = .b ∨ a.u.raceUp p = false then a
  else (a.onChain p fun c => { c with enumAt := some a.u.clk }).sendEnum p 7

/-- A pass that ends at a head agrees with it (01 R30-R32). Mark: DEDUCED (log entry 30, unsafe). -/
def Agg.enumAgrees (a : Agg) (p : Nat) (e : EnumMsg) : Bool :=
  let m := a.enumMsg p 0
  decide (e.h.toNat = (a.chain p).len) && e.g == m.g && e.t == m.t && e.p == m.p && e.len == m.len

/-- The port is MISWIRED (01 R32). -/
def Agg.markMiswired (a : Agg) (p : Nat) : Agg :=
  (a.setStatus p .miswired (a.chain p).last).onU fun u => u.alarm .miswired

/-- ENUM_COMPLETE: the A pass reaches aggregator B, which starts the B pass (01 R30, R31). -/
def Agg.enumComplete (a : Agg) (p : Nat) (e : EnumMsg) : Agg :=
  if a.side = .a ∨ e.side = .b ∨ a.u.raceUp p = false then a
  else
    let a := (a.onU fun u => u.raceRx p 1 20).onChain p fun c => { c with bAt := none, aSent := true }
    if a.enumAgrees p e then
      let a := a.setStatus p .complete 0
      (a.onChain p fun c => { c with enumAt := none }).sendEnum p e.gmask
    else a.markMiswired p

/-- B_PASS_END: the B pass reaches aggregator A, and the enumeration completes (01 R31; R367). -/
def Agg.bPassEnd (a : Agg) (p : Nat) (e : EnumMsg) : Agg :=
  if a.side = .b ∨ e.side = .a ∨ a.u.raceUp p = false then a
  else
    let a := (a.onU fun u => u.raceRx p 1 20).onChain p fun c => { c with enumAt := none }
    if a.enumAgrees p e then (a.setStatus p .complete ((a.chain p).len - 1)).offerGen p e.gmask.toNat
    else a.markMiswired p

/-- An enumeration has not reached across the chain: the port is SPLIT with the last D that this head reached; MISWIRED
stays until an enumeration completes with no difference (01 R32, R33). -/
def Agg.markSplit (a : Agg) (p : Nat) : Agg :=
  if (a.chain p).status = .miswired then a else a.setStatus p .split (a.lastReached p)

/-- Side B sends the B pass on a chain whose A pass has not reached it; the frames that follow it give the last D
(01 R31, R33, R34). -/
def Agg.passB (a : Agg) (p : Nat) : Agg :=
  ((a.markSplit p).onChain p fun c => { c with bAt := some a.u.clk }).sendEnum p 7

/-- ENUM_TIMEOUT: the A pass has not reached B within 200 µs (01 R31, R33). Side A knows when it sent the pass; side B is
told by the row, and takes it on a port that is UP, once in 200 µs. Mark: DEDUCED (log entry 30, unsafe). -/
def Agg.enumTimeout (a : Agg) (p : Nat) : Agg :=
  match a.side, (a.chain p).enumAt with
  | .a, some c =>
    if a.u.since c < usT 200 then a else (a.onChain p fun x => { x with enumAt := none }).markSplit p
  | .a, none => a
  | .b, _ =>
    let soon := match (a.chain p).bAt with | some c => decide (a.u.since c < usT 200) | none => false
    if !a.u.raceUp p || soon then a else (a.passB p).onChain p fun c => { c with aSent := true }

/-- ENUM_ALONE: aggregator B enumerates the port by itself, when A has sent no ENUM within 10 ms of the head hop's UP, or
when B proceeds alone (01 R34; 18 R590). The pass ends beyond this head, which gets its GMASK by no frame: the GMASK that
10 R367 has it choose from is the row's operand. Mark: DEDUCED (log entry 30, unsafe). -/
def Agg.enumAlone (a : Agg) (p : Nat) (gmask : BitVec 3) : Agg :=
  let x := a.u.rport p
  if a.side = .a ∨ x.state ≠ 2 ∨ (a.pair.alone = false ∧ ((a.chain p).aSent = true ∨ a.u.since x.since < msT 10)) then a
  else (a.passB p).chooseGen p gmask.toNat

/-- HOPUP_RECEIVE: aggregator A enumerates the port again (R369). -/
def Agg.hopupReceive (a : Agg) (p : Nat) (orig : Node) : Agg :=
  if !a.u.raceUp p then a else ((a.heardDie orig).onU fun u => u.raceRx p 0 28).enumStart p

/-- PORT_RETRAIN: the port goes DOWN and trains (R388). The CAUSE of such a DOWN is not stated: a free value.
Mark: DEDUCED (log entry 29, unsafe). -/
def Unit.retrainCause (u : Unit) : Nat × Unit :=
  let r := u.draw
  (r.1 % 256, r.2)

/-- The port trains at once after a commanded DOWN. -/
def Unit.retrain (u : Unit) (p : Nat) : Unit :=
  if u.bit Reg.raceCtrl 0 then u.setRport p { u.rport p with state := 1, gen := 1, step := 1, since := u.clk } else u

/-- The port went DOWN by itself in this cycle: a RETRAIN has no further effect (R388). -/
def Unit.justFell (u : Unit) (p : Nat) : Bool := Tab.find p u.race.fell == some u.clk

/-- PORT_RETRAIN of a die unit. -/
def Die.portRetrain (d : Die) (p : Nat) : Die :=
  if (d.u.rport p).state = 0 then (if d.u.justFell p then d else d.onU fun u => u.retrain p)
  else
    let r := d.u.retrainCause
    { d with u := (r.2.dieDown p r.1).retrain p }

/-- PORT_RETRAIN of an aggregator. -/
def Agg.portRetrain (a : Agg) (p : Nat) : Agg :=
  if (a.u.rport p).state = 0 then (if a.u.justFell p then a else a.onU fun u => u.retrain p)
  else
    let r := a.u.retrainCause
    ({ a with u := r.2 }.headDown p r.1).onU fun u => u.retrain p

/-- CREDIT_STALL: no credit for 100 µs while credits are owed (R386). -/
def Unit.stalled (u : Unit) (p : Nat) : Bool :=
  let x := u.rport p
  x.state == 2 && x.owed && decide (u.since x.credAt ≥ usT 100)

/-! ### Registers -/

/-- RACE registers that the ports hold (R388, R389). Mark: DEDUCED (log entry 29, unsafe). -/
def Unit.raceView (u : Unit) (ofs p : Nat) : Option Word :=
  let w := fun (n : Nat) => some (BitVec.ofNat 32 n)
  let x := u.rport p
  let c := fun (k : Nat) => x.cred.getD k 0
  let ports := List.range (if u.isDie then 2 else 8)
  if ofs = Reg.raceStat then
    let up := ports.filter u.raceUp
    let g := (up.head?.map u.chainGen).getD (u.chainGen 0)
    w (g + 4 * b2n (!u.race.gen.isEmpty) + 256 * (up.map fun k => 2 ^ k).sum)
  else if ofs = Reg.raceAtPstat then
    w (x.state * 2 ^ 30 + (if x.state = 0 then 0 else x.gen) * 2 ^ 28 + b2n x.peerAgg * 2 ^ 27
      + b2n x.window.isSome * 2 ^ 26 + x.peer.toNat)
  else if ofs = Reg.raceAtCred0 then w (c 0 + 256 * c 1 + 65536 * c 2)
  else if ofs = Reg.raceAtCred1 then w (c 3 + 65536 * c 4)
  else none

/-- GLB_CHAINSTAT code of a status (01 R47). -/
def ChainStatus.code : ChainStatus → Nat
  | .empty => 0
  | .complete => 1
  | .split => 2
  | .miswired => 3

/-- GLB address and chain registers (01 R47); `p` is the port selected by GLB_SEL. -/
def Agg.chainView (a : Agg) (ofs p : Nat) : Option Word :=
  let w := fun (n : Nat) => some (BitVec.ofNat 32 n)
  if ofs = Reg.glbChainstat then w (((List.range 8).map fun k => (a.chain k).status.code * 4 ^ k).sum)
  else if ofs = Reg.glbChainlast then w ((a.chain p).last % 64)
  else none

/-- GLB_NODEADDR (01 R47). -/
def Unit.nodeaddr (u : Unit) : Word :=
  BitVec.ofNat 32 (if u.nodeOk then u.node.toNat + 2 ^ 24 + 2 ^ 25 * b2n u.checked else 2 ^ 26 * b2n u.miswired)

end Sys2Proof.Machine
end

