-- ==== Sys2Proof/Machine/Journal.lean ====
section
/-! DEFINITION. The aggregator's side of the delivery guarantee (09_records_delivery): the journal (R347-R349, R355,
R357), ACKs (R346), forwarding to collectors (R340, R351-R354; 11 R397-R401), the partner's journal state (11 R399), LOSS
records (R351, R356), seal blocks (R361, R362) and the power-fail warning (R359). -/

namespace Sys2Proof.Machine

/-- A stream of the journal with nothing in it. -/
def jstream0 : JStream :=
  { src := 0, cls := .alarm, valid := false, jseq := none, sseq := none, sent := none, sofs := 0, base := false
    nack := false, nobase := false, first := none, ents := [], fwd := false, sync := none, sink := 0, port := none
    progress := 0, changed := false }

/-- Position of a class among a die unit's streams, and among an aggregator's own (R364). -/
def dieClsIx : RecClass → Nat
  | .alarm => 0
  | .runner => 0
  | .record => 1
  | .bulk => 2
def ownClsIx : RecClass → Nat
  | .alarm => 0
  | .runner => 1
  | .record => 2
  | .bulk => 3

/-- JRN index of a stream (R364). -/
def jrnIx (src : Node) (cls : RecClass) : Nat :=
  if kindOf src = 0 then 3 * dieKey src + dieClsIx cls else 768 + ownClsIx cls

/-- Class of an own stream's index. -/
def ownCls (i : Nat) : RecClass := [RecClass.alarm, .runner, .record, .bulk].getD (i - 768) .bulk

/-- SEQ of an entry; none for the mark of a new series. -/
def JEnt.seq? : JEnt → Option Seq
  | .rcd r => some r.seq
  | .void n => some n
  | .reset _ => none

/-- Bytes of an entry. -/
def JEnt.size : JEnt → Nat
  | .rcd r => 32 + r.payload.length
  | .void _ => 0
  | .reset _ => 0

/-- A log entry of an own stream as a journal entry (R351). -/
def LogEnt.jent (e : LogEnt) : JEnt :=
  match e.body with
  | .rcd r => .rcd r
  | .void n => .void n

/-- Last SEQ of an own stream. -/
def Unit.lastSeq (u : Unit) (cls : Nat) : Option Seq :=
  let s := u.stream cls
  if s.used then some (s.next - 1) else none

/-- A stream of the journal. An own stream's entries are those of its log (R351). -/
def Agg.jst (a : Agg) (i : Nat) : JStream :=
  let x := Tab.getD a.jrn.streams i jstream0
  if i < 768 then x
  else
    let c := ownCls i
    { x with src := a.u.node, cls := c, valid := (a.u.stream c.code).used, jseq := a.u.lastSeq c.code
             ents := (a.u.stream c.code).log.map LogEnt.jent }

/-- Change the journal. -/
def Agg.onJ (a : Agg) (f : Jrn → Jrn) : Agg := { a with jrn := f a.jrn }

/-- Put a stream of the journal. -/
def Agg.setJst (a : Agg) (i : Nat) (x : JStream) : Agg :=
  let y := if i < 768 then x else { x with ents := [], valid := false, jseq := none }
  a.onJ fun j => { j with streams := Tab.put i y j.streams }

/-- JRN indexes of the streams that the aggregator has: those in the journal and its own. -/
def Agg.jixs (a : Agg) : List Nat :=
  ((a.jrn.streams.map fun p => p.1).filter fun i => decide (i < 768)) ++ [768, 769, 770, 771]

/-- Bytes that no collector has acknowledged (R355). Mark: DEDUCED (log entry 31, unsafe). -/
def Agg.lag (a : Agg) : Nat := (a.jixs.map fun i => ((a.jst i).ents.map JEnt.size).sum).sum

/-- The aggregator journals ALARM records only (R355). Mark: DEDUCED (log entry 31, unsafe). -/
def Agg.jfull (a : Agg) : Bool := decide (a.lag > a.u.fld Reg.jrnLagmax 15 0 * 1048576)

/-- The journal takes records. -/
def Agg.journals (a : Agg) : Bool := a.jrn.ready && a.u.bit Reg.jrnCtrl 0

/-- Last SEQ of a stream that is journaled or being written. -/
def Agg.lastIn (a : Agg) (i : Nat) : Option Seq :=
  match (a.jrn.writes.filter fun w => w.1 == i).getLast? with
  | some (_, .rcd r) => some r.seq
  | some (_, .void n) => some n
  | none => if (a.jst i).valid then (a.jst i).jseq else none

/-- Start the journal write of a record or a void. -/
def Agg.jwrite (a : Agg) (i : Nat) (b : LogBody) : Agg := a.onJ fun j => { j with writes := j.writes ++ [(i, b)] }

/-- The next ACK of a stream carries NACK (R347). -/
def Agg.jnack (a : Agg) (i : Nat) : Agg := a.setJst i { a.jst i with nack := true }

/-- A record whose CHK is right (R347 steps 2 to 5; R340 for a new series; R355).
Mark: DEDUCED (log entry 31, unsafe). -/
def Agg.take (a : Agg) (i : Nat) (r : Rec) : Agg :=
  let x := a.jst i
  let full := a.jfull && r.classNo != 0
  let news := r.seq == 0 && decide (x.first ≠ some r.chk)
  let start := fun (a : Agg) =>
    if full then a
    else (a.setJst i { a.jst i with first := if r.seq = 0 then some r.chk else x.first }).jwrite i (.rcd r)
  match a.lastIn i with
  | none =>
    if r.seq = 0 ∨ x.base = true then start a else a.setJst i { x with nobase := true }
  | some l =>
    if !seqLater r.seq l then
      if news && x.first.isSome then start a else a.onU fun u => u.count Reg.jrnDupcnt
    else if r.seq ≠ l + 1 then (a.onU fun u => (u.count Reg.jrnGapcnt).err Reg.jrnErr 1).jnack i
    else start a

/-- A record is whole (R347; 01 R27). -/
def Agg.recordIn (a : Agg) (r : Rec) : Agg :=
  if kindOf r.src = 3 then a.onU fun u => u.count Reg.glbAddrfmt
  else if kindOf r.src ≠ 0 then a
  else
    match r.rclass with
    | none => a
    | some c =>
      let a := a.onU fun u => u.addrs [r.src]
      let i := jrnIx (addrEff r.src) c
      let a := a.setJst i { a.jst i with src := addrEff r.src, cls := c }
      if r.chk ≠ r.goodChk then (a.onU fun u => (u.count Reg.jrnChkcnt).err Reg.jrnErr 0).jnack i else a.take i r

/-- The segment continues the record in progress of its originator and class: the bytes with it (10 R378). -/
def Agg.joinSeg (a : Agg) (g : RecSeg) : Option (List Byte) :=
  match Tab.find (jrnIx (addrEff g.orig) g.cls) a.jrn.parts with
  | some b => if !g.first && decide (g.sofs.toNat = b.length) then some (b ++ g.data) else none
  | none => if g.first && g.sofs == 0 then some g.data else none

/-- Keep the bytes of a record in progress, or none. -/
def Agg.setPart (a : Agg) (i : Nat) (b : Option (List Byte)) : Agg :=
  a.onJ fun j => { j with parts := match b with | some b => Tab.put i b j.parts | none => Tab.del i j.parts }

/-- RECORD_RECEIVE (R347; 01 R26, R27; 10 R378, R379): a segment reaches the head, and with the last one the record is whole.
A segment that does not continue the record in progress is discarded with what there was of it, and counted. -/
def Agg.recordReceive (a : Agg) (p : Nat) (g : RecSeg) : Agg :=
  if !a.u.raceUp p then a
  else
    let a := a.onU fun u => u.raceRx p g.cls.code (16 + g.data.length)
    if kindOf g.orig = 3 then a.onU fun u => u.count Reg.glbAddrfmt
    else if kindOf g.orig ≠ 0 ∨ a.journals = false then a
    else
      let i := jrnIx (addrEff g.orig) g.cls
      let lose := fun (a : Agg) => (a.setPart i none).onU fun u => (u.count Reg.jrnChkcnt).err Reg.jrnErr 0
      let a := a.heardDie g.orig
      match a.joinSeg g with
      | none => lose a
      | some b =>
        if !g.last then a.setPart i (some b)
        else match Rec.parse b with
          | none => lose a
          | some r => (a.setPart i none).recordIn r

/-- RESTART_MARKER (R347 step 2, R349). Mark: DEDUCED (log entry 31, unsafe). -/
def Agg.restartMarker (a : Agg) (orig : Node) (c : RecClass) (void : Bool) (old : Seq) : Agg :=
  let p := dieKey orig / 32
  if kindOf orig ≠ 0 ∨ a.journals = false ∨ a.u.raceUp p = false then a
  else
    let a := (a.heardDie orig).onU fun u => u.raceRx p c.code 24
    let i := jrnIx (addrEff orig) c
    let x := { a.jst i with src := addrEff orig, cls := c }
    let a := a.setJst i x
    if !void then a.setJst i { x with nobase := false, base := !x.valid }
    else match a.lastIn i with
      | none => (a.setJst i { x with nobase := false }).jwrite i (.void old)
      | some l =>
        if !seqLater old l then a.onU fun u => u.count Reg.jrnDupcnt
        else if old ≠ l + 1 then (a.onU fun u => (u.count Reg.jrnGapcnt).err Reg.jrnErr 1).jnack i
        else (a.setJst i { x with nobase := false }).jwrite i (.void old)

/-! ### Forwarding -/

/-- This side forwards a stream (R351, R352). Of a split port it is each side for the dies that it reaches; of a die that it
does not reach the side that FWDMAP names, and either side that forwarded before, goes on until what it holds is
acknowledged (00_scope R9). Mark: DEDUCED (log entry 55, unsafe). -/
def Agg.forwards (a : Agg) (i : Nat) : Bool :=
  if !a.jrn.ready then false
  else if i ≥ 768 then a.pair.done || a.pair.alone
  else if !a.joined then false
  else
    let k := i / 3
    let p := k / 32
    let map := a.u.fld Reg.jrnCtrl 15 8
    let x := a.jst i
    let mapped := map.testBit p == decide (a.side = .b)
    let rest := x.fwd && !x.ents.isEmpty
    a.jrn.take || rest
      || (if (a.chain p).status = .split then a.reaches k || (mapped && !x.ents.isEmpty) else mapped)

/-- JRN_SINK entries that are valid and name a valid collector. -/
def Agg.sinks (a : Agg) : List Nat :=
  (List.range 4).filter fun i => a.u.bit (Reg.jrnSink + 4 * i) 31 && a.colValid (a.u.fld (Reg.jrnSink + 4 * i) 7 0)

/-- Collector of a JRN_SINK entry. -/
def Agg.sinkCol (a : Agg) (i : Nat) : Nat := a.u.fld (Reg.jrnSink + 4 * i) 7 0

/-- The up port of a collector's mask for a stream: the lowest, other than the one it last used where the mask allows
(11 R400). -/
def Agg.sinkPort (a : Agg) (sink : Nat) (last : Option Nat) : Option Nat :=
  let ps := a.upPorts (a.colMask (a.sinkCol sink))
  match ps.find? fun p => last != some p with
  | some p => some p
  | none => ps.head?

/-- The port after the last in the mask, ascending and round (11 R400: a resend). -/
def Agg.nextPort (a : Agg) (sink : Nat) (last : Option Nat) : Option Nat :=
  let ps := a.upPorts (a.colMask (a.sinkCol sink))
  match ps.find? fun p => (match last with | some q => decide (q < p) | none => true) with
  | some p => some p
  | none => ps.head?

/-- Oldest SEQ that the journal holds for a stream: SYNC's SEQ (11 R396). -/
def JStream.oldest (x : JStream) : Seq :=
  match x.ents.findSome? JEnt.seq? with
  | some n => n
  | none => match x.jseq with | some j => j + 1 | none => 0

/-- Send SYNC for streams that share a collector and a port; a frame names at most 725 (11 R396).
Mark: DEDUCED (log entry 55, unsafe). -/
def Agg.sendSync (a : Agg) (sink p : Nat) : List StreamSeq → Nat → Agg
  | _, 0 => a
  | l, n + 1 =>
    if l.isEmpty then a else (a.sendCol p (a.sinkCol sink) (.sync (l.take 725))).sendSync sink p (l.drop 725) n

/-- The streams of a list that a sink and a port serve. -/
def Agg.syncList (a : Agg) (sink p : Nat) (l : List Nat) : List StreamSeq :=
  (l.filter fun i => (a.jst i).sink == sink && (a.jst i).port == some p).map fun i =>
    ⟨(a.jst i).src, (a.jst i).cls, (a.jst i).oldest⟩

/-- Place streams with a sink and send SYNC for them (R352, R354). -/
def Agg.syncAll (a : Agg) (l : List Nat) : Agg :=
  let a := l.foldl (fun (a : Agg) i => a.setJst i { a.jst i with sync := some a.u.clk, sent := none, sofs := 0 }) a
  (List.range 32).foldl (fun (a : Agg) k => a.sendSync (k / 8) (k % 8) (a.syncList (k / 8) (k % 8) l) 2) a

/-- Place a stream with the lowest valid sink. Mark: DEDUCED (log entry 55, unsafe). -/
def Agg.place (a : Agg) (i : Nat) : Agg :=
  let s := (a.sinks.head?).getD 0
  a.setJst i { a.jst i with sink := s, port := a.sinkPort s (a.jst i).port, progress := a.u.clk }

/-- Which streams this side forwards, computed anew: one that it begins to forward is placed and gets a SYNC (R352). -/
def Agg.fwdUpdate (a : Agg) : Agg :=
  let news := a.jixs.filter fun i => a.forwards i && !(a.jst i).fwd
  let gone := a.jixs.filter fun i => !a.forwards i && (a.jst i).fwd
  let a := gone.foldl (fun (a : Agg) i => a.setJst i { a.jst i with fwd := false, sync := none }) a
  let a := news.foldl (fun (a : Agg) i => (a.setJst i { a.jst i with fwd := true }).place i) a
  if news.isEmpty then a else a.syncAll news

/-- SYNC_TIMEOUT: the SYNC is sent again, on the next up port (R354; 11 R400). -/
def Agg.syncTimeout (a : Agg) (i : Nat) : Agg :=
  let x := a.jst i
  match x.sync with
  | some c =>
    if !x.fwd || decide (a.u.since c < usT (a.u.fld Reg.jrnSyncto 15 0)) then a
    else
      let a := a.setJst i { x with port := a.nextPort x.sink x.port }
      (a.onU fun u => u.err Reg.jrnErr 5).syncAll [i]
  | none => a

/-- SINK_TIMEOUT: the stream moves to the next valid sink (R354). -/
def Agg.sinkTimeout (a : Agg) (i : Nat) : Agg :=
  let x := a.jst i
  let open_ := match x.sent with
    | some s => x.ents.any fun e => match e.seq? with | some n => !seqLater n s | none => false
    | none => false
  if !x.fwd || !open_ || decide (a.u.since x.progress < usT (a.u.fld Reg.jrnSinkto 15 0)) then a
  else
    let s := match a.sinks.find? fun k => decide (x.sink < k) with
      | some k => k
      | none => (a.sinks.head?).getD x.sink
    let a := a.setJst i { x with sink := s, port := a.sinkPort s x.port, progress := a.u.clk }
    (a.onU fun u => u.err Reg.jrnErr 4).syncAll [i]

/-- A fleet port that went down: its streams move, from SYNC (11 R401; R354). -/
def Agg.portStreams (a : Agg) (p : Nat) : Agg :=
  let l := a.jixs.filter fun i => (a.jst i).fwd && (a.jst i).port == some p
  let a := l.foldl (fun (a : Agg) i => a.setJst i { a.jst i with port := a.sinkPort (a.jst i).sink (some p) }) a
  if l.isEmpty then a else a.syncAll l

/-- One entry of SYNCRSP: resume from NEXT (R354). -/
def Agg.syncEnt (a : Agg) (e : StreamSeq) : Agg :=
  let i := jrnIx (addrEff e.src) e.cls
  let x := a.jst i
  if x.src ≠ addrEff e.src ∨ x.fwd = false then a
  else a.setJst i { x with sync := none, sent := some (e.seq - 1), sofs := 0, progress := a.u.clk }

/-- SYNCRSP (R354). -/
def Agg.syncRsp (a : Agg) (l : List StreamSeq) : Agg := l.foldl Agg.syncEnt a

/-- Entries after a SACK: those that it covers go; a new series is not touched by the old one's (R340, R352). -/
def sacked (s : Seq) : List JEnt → List JEnt
  | [] => []
  | e :: t => match e.seq? with
    | some n => if seqLater n s then e :: t else sacked s t
    | none => e :: t

/-- One entry of SACK (R352, R354). -/
def Agg.sackEnt (a : Agg) (e : StreamSeq) : Agg :=
  let i := jrnIx (addrEff e.src) e.cls
  let x := a.jst i
  let fresh := match x.sseq with | some q => seqLater e.seq q | none => true
  if x.src ≠ addrEff e.src ∨ !fresh then a
  else
    let a := if i < 768 then a
      else a.onU fun u =>
        let s := u.stream e.cls.code
        u.setStream e.cls.code { s with log := s.log.drop (x.ents.length - (sacked e.seq x.ents).length) }
    a.setJst i { x with sseq := some e.seq, ents := sacked e.seq x.ents, progress := a.u.clk, changed := true }

/-- SACK (R352). -/
def Agg.sack (a : Agg) (l : List StreamSeq) : Agg := l.foldl Agg.sackEnt a

/-- The entry after the last one sent. -/
def JStream.nextEnt (x : JStream) : Option JEnt :=
  match x.sent with
  | some s => x.ents.find? fun e => match e.seq? with | some n => seqLater n s | none => true
  | none => x.ents.head?

/-- Queue the segments of a record, from `o` on, as far as they fit (11 R397): the state and the bytes queued in all. -/
def Agg.queueSegs (a : Agg) (i p : Nat) (x : JStream) (r : Rec) : Nat → Nat → Agg × Nat
  | o, 0 => (a, o)
  | o, n + 1 =>
    let b := r.bytes
    let d := slice b o (a.u.fld Reg.fltAtSegmax 13 0 p)
    let m : FleetMsg := .frec r.src x.cls r.seq o (o == 0) (decide (o + d.length ≥ b.length)) d
    if o ≥ b.length then (a, o)
    else
      let q := a.enqueue p ⟨x.cls.code, BitVec.ofNat 24 (a.sinkCol x.sink), true, false, m.len, m, some i, a.u.tb.now⟩
      if q.2 then q.1.queueSegs i p x r (o + d.length) n else (a, o)

/-- The seal block in course (R361): 100 ms of hall time each. -/
def Agg.sealNow (a : Agg) : Nat := a.u.tb.now * 10 / 2 ^ 32

/-- An entry has been forwarded: SENT, and what the SEAL of the block in course covers (R361). -/
def Agg.forwarded (a : Agg) (i : Nat) (e : JEnt) (s : Seq) : Agg :=
  let a := a.setJst i { a.jst i with sent := some s, sofs := 0 }
  let l := Tab.getD a.jrn.uncovered i []
  let seen := match (l.getLast?.bind fun (e : Nat × JEnt) => e.2.seq?) with
    | some n => !seqLater s n
    | none => match Tab.find i a.jrn.covered with
      | some c => !seqLater s (BitVec.ofNat 48 c)
      | none => false
  if seen then a else a.onJ fun j => { j with uncovered := Tab.put i (l ++ [(a.sealNow, e)]) j.uncovered }

/-- A new series of a stream begins to be forwarded: what the SEAL of the block in course covers shows where. -/
def Agg.sealReset (a : Agg) (i : Nat) (l : Seq) : Agg :=
  a.onJ fun j => { j with
    covered := Tab.del i j.covered
    uncovered := if (Tab.getD j.uncovered i []).isEmpty then j.uncovered
      else Tab.put i (Tab.getD j.uncovered i [] ++ [(a.sealNow, .reset l)]) j.uncovered }

/-- FREC_SEND: the next entry of a stream goes to its collector (R340, R349, R353; 11 R396, R397). -/
def Agg.frecSend (a : Agg) (i : Nat) : Agg :=
  let x := a.jst i
  match x.port, x.nextEnt with
  | some p, some e =>
    if !x.fwd || x.sync.isSome || !a.portUp p || !a.joined then a
    else match e with
      | .reset l =>
        if x.ents.head? ≠ some (.reset l) then a
        else (a.sendCol p (a.sinkCol x.sink) (.streamReset [⟨x.src, x.cls, l⟩])).setJst i
          { x with ents := x.ents.drop 1, sent := none, sseq := none } |>.sealReset i l
      | .void s =>
        let m : FleetMsg := .fvoid x.src x.cls s
        let q := a.enqueue p ⟨x.cls.code, BitVec.ofNat 24 (a.sinkCol x.sink), true, false, m.len, m, some i, a.u.tb.now⟩
        if q.2 then q.1.forwarded i e s else a
      | .rcd r =>
        let q := a.queueSegs i p x r x.sofs (r.bytes.length + 1)
        if q.2 ≥ r.bytes.length then q.1.forwarded i e r.seq else q.1.setJst i { x with sofs := q.2 }
  | _, _ => a

/-! ### Journal writes and ACKs -/

/-- A collector has acknowledged a SEQ of the series in the journal already, so that the record is not kept (R352). -/
def JStream.acked (x : JStream) (s : Seq) : Bool :=
  match x.sseq with
  | some q => !seqLater s q && x.ents.all fun e => e.seq?.isSome
  | none => false

/-- JOURNAL_WRITE: the oldest write in course completes; the record is journaled (R347, R349). Answers what was journaled. -/
def Agg.journalWrite (a : Agg) : Agg × Option Rec :=
  match a.jrn.writes with
  | [] => (a, none)
  | (i, b) :: rest =>
    let a := a.onJ fun j => { j with writes := rest }
    let x := a.jst i
    let e : JEnt := match b with | .rcd r => .rcd r | .void n => .void n
    let s : Seq := match b with | .rcd r => r.seq | .void n => n
    let mark := match x.jseq with
      | some l => if x.valid && !seqLater s l then [JEnt.reset l] else []
      | none => []
    let a := a.setJst i { x with valid := true, jseq := some s, base := false, nobase := false, changed := true
                                 ents := if x.acked s && mark.isEmpty then x.ents else x.ents ++ mark ++ [e] }
    let a := if a.jfull && !a.jrn.full then a.onU fun u => u.err Reg.jrnErr 3 else a
    ((a.onJ fun j => { j with full := a.jfull }).fwdUpdate, match b with | .rcd r => some r | .void _ => none)

/-- Address of a die unit of the tray by 32P + D. -/
def Agg.dieAddr (a : Agg) (k : Nat) : Node := BitVec.ofNat 24 (bitsOf a.u.node.toNat 21 10 * 1024 + k % 256 * 4)

/-- ACK_SEND to a die unit that this head reaches (R346). A stream without an entry shows the SEQ before 0. -/
def Agg.ackSend (a : Agg) (k : Nat) : Agg :=
  if !a.reaches k || !a.journals then a
  else
    let x := fun (c : Nat) => a.jst (3 * k + c)
    let j := fun (c : Nat) => if (x c).valid then ((x c).jseq).getD 0xFFFFFFFFFFFF else 0xFFFFFFFFFFFF
    let f := fun (b : Bool) (n : Nat) => if b then 2 ^ n else 0
    let fl := f (x 0).nack 0 + f (x 1).nack 1 + f (x 2).nack 2 + f a.jfull 3 + f (x 0).nobase 4 + f (x 1).nobase 5
      + f (x 2).nobase 6
    let ack : Ack := ⟨BitVec.ofNat 8 fl, a.dieAddr k, a.u.node, j 0, j 1, j 2⟩
    let a := [0, 1, 2].foldl (fun (a : Agg) c =>
      if (a.jst (3 * k + c)).nack then a.setJst (3 * k + c) { a.jst (3 * k + c) with nack := false } else a) a
    let a := a.onJ fun r => { r with acked := Tab.put k a.u.clk r.acked, full := a.jfull }
    a.onU fun u => u.raceOwn (k / 32) 1 44 (.ack (k / 32) ack)

/-! ### The partner -/

/-- JSTATE: the streams that changed, and every 10 ms all of them (11 R399). A stream that no SACK has named shows the SEQ
before 0. Mark: DEDUCED (log entry 55, unsafe). -/
def Agg.jstate (a : Agg) : Agg :=
  let all := decide (a.u.since a.jrn.fullState ≥ msT 10)
  let l := a.jixs.filter fun i => (a.jst i).valid && (all || (a.jst i).changed || decide (i ≥ 768))
  let m := l.map fun i => (⟨(a.jst i).src, (a.jst i).cls, ((a.jst i).jseq).getD 0, ((a.jst i).sseq).getD 0xFFFFFFFFFFFF⟩ : JPair)
  if !a.partner then a
  else
    let a := a.send a.partnerAddr 1 (.jstate m) 0
    let a := l.foldl (fun (a : Agg) i => a.setJst i { a.jst i with changed := false }) a
    a.onJ fun j => { j with lastState := a.u.clk, fullState := if all then a.u.clk else j.fullState }

/-- JSTATE_RECEIVE (11 R399). -/
def Agg.jstateReceive (a : Agg) (l : List JPair) : Agg :=
  a.onJ fun j =>
    { j with partner := (j.partner.filter fun (x : JPair) => l.all fun y => decide (x.src ≠ y.src) || decide (x.cls ≠ y.cls)) ++ l }

/-- Payload of a LOSS record (R356). -/
def lossPayload (cause : Nat) (l : List (Node × RecClass × Seq × Seq)) : List Byte :=
  leBytes 2 l.length ++ leBytes 1 cause ++ zeros 13
    ++ (l.map fun e => leBytes 3 e.1.toNat ++ leBytes 1 e.2.1.code ++ leBytes 6 e.2.2.1.toNat
          ++ leBytes 6 e.2.2.2.toNat).flatten

/-- Commit a LOSS record (R351, R356). -/
def Agg.loss (a : Agg) (cause : Nat) (l : List (Node × RecClass × Seq × Seq)) : Agg :=
  a.onU fun u => (u.record 0x32 .alarm (lossPayload cause l)).err Reg.jrnErr 7

/-- The lost side's own streams, from the last acknowledged SEQ + 1 to the last one reported (R351). -/
def Agg.partnerLoss (a : Agg) : List (Node × RecClass × Seq × Seq) :=
  (a.jrn.partner.filter fun p => kindOf p.src != 0 && seqLater p.jseq p.sseq).map fun p =>
    (p.src, p.cls, p.sseq + 1, p.jseq)

/-- The partner is lost: the survivor forwards every stream of the tray and publishes the LOSS record (R351, R352, R358). -/
def Agg.takeover (a : Agg) : Agg :=
  let a := (a.onJ fun j => { j with take := true }).onU fun u => u.count Reg.jrnTakecnt
  (a.loss 0 a.partnerLoss).fwdUpdate

/-- The returning side's TRAY_BEAT says that its journal is ready: its streams go back (R352), at once. -/
def Agg.giveBack (a : Agg) : Agg :=
  if a.jrn.take then
    let a := a.onJ fun j => { j with take := false }
    let map := a.u.fld Reg.jrnCtrl 15 8
    let back := a.jixs.filter fun i =>
      decide (i < 768) && (a.chain (i / 96)).status != .split && map.testBit (i / 96) != decide (a.side = .b)
    (back.foldl (fun (a : Agg) i => a.setJst i { a.jst i with fwd := false, sync := none }) a).fwdUpdate
  else a

/-! ### Seals -/

/-- The hash of a stream's records in a SEAL (R361). -/
def streamDigest (l : List JEnt) : Digest :=
  Config.sha384 ((l.map fun e => match e with
    | .rcd r => r.bytes
    | .void n => leBytes 6 n.toNat
    | .reset _ => []).flatten)

/-- The series in a list of forwarded entries: a mark of a new series divides them. -/
def seriesOf : List JEnt → List (List JEnt)
  | [] => [[]]
  | .reset _ :: t => [] :: seriesOf t
  | e :: t => match seriesOf t with
    | h :: r => (e :: h) :: r
    | [] => [[e]]

/-- What the SEAL of a block before `k` covers: an entry for each series of each stream. -/
def Agg.sealList (a : Agg) (k : Nat) : List (Nat × List JEnt) :=
  (a.jrn.uncovered.map fun (p : Nat × List (Nat × JEnt)) =>
    ((seriesOf ((p.2.filter fun e => decide (e.1 < k)).map Prod.snd)).filter fun x => !x.isEmpty).map fun x =>
      (p.1, x)).flatten

/-- What is left for later blocks. -/
def Agg.sealRest (a : Agg) (k : Nat) : Tab (List (Nat × JEnt)) :=
  (a.jrn.uncovered.map fun (p : Nat × List (Nat × JEnt)) => (p.1, p.2.filter fun e => decide (k ≤ e.1))).filter fun p =>
    !p.2.isEmpty

/-- An entry of a SEAL (R361): FIRST is one past what earlier blocks cover of the series. -/
def Agg.sealEntry (a : Agg) (i : Nat) (l : List JEnt) : List Byte :=
  let x := a.jst i
  let sq := fun (o : Option JEnt) => ((o.bind JEnt.seq?).getD 0).toNat
  let first := match Tab.find i a.jrn.covered with | some c => (c + 1) % 2 ^ 48 | none => sq l.head?
  leBytes 3 x.src.toNat ++ leBytes 1 x.cls.code ++ leBytes 6 first ++ leBytes 6 (sq l.getLast?)
    ++ leBytes 48 (streamDigest l).toNat

/-- Commit one part of the SEAL of block `k` (R361); PREV is the link value of the part before it. -/
def Agg.sealPart (a : Agg) (k part npart : Nat) (l : List (Nat × List JEnt)) : Agg :=
  let fl := b2n a.jrn.prev.isNone + 2 * b2n a.jrn.take
  let body := leBytes 8 k ++ leBytes 1 fl ++ leBytes 1 part ++ leBytes 1 npart ++ zeros 1 ++ leBytes 4 l.length
    ++ leBytes 48 (match a.jrn.prev with | some h => h.toNat | none => 0)
    ++ (l.map fun (p : Nat × List JEnt) => a.sealEntry p.1 p.2).flatten
  let h := Config.sha384 body
  let a := a.onU fun u => u.record 0x31 .record (body ++ Config.sign a.u.deviceKey h)
  a.onJ fun j => { j with prev := some h }

/-- SEAL: the block that has ended (R361, R362), in two parts where one does not hold its entries.
Mark: DEDUCED (log entry 55, unsafe). -/
def Agg.sealBlock (a : Agg) : Agg :=
  let k := a.sealNow
  let due := match a.jrn.block with | some b => decide (b + 1 < k) | none => true
  if k = 0 ∨ !due ∨ !a.u.nodeOk then a
  else
    let l := a.sealList k
    let rest := a.sealRest k
    let cov := l.foldl (fun (t : Tab Nat) (p : Nat × List JEnt) =>
      match p.2.getLast?.bind JEnt.seq? with | some n => Tab.put p.1 n.toNat t | none => t) a.jrn.covered
    let n := if l.length ≤ 1021 then 1 else 2
    let b := a.sealPart (k - 1) 0 n (l.take 1021)
    let b := if n = 1 then b else b.sealPart (k - 1) 1 n (l.drop 1021)
    b.onJ fun j => { j with block := some (k - 1), covered := cov, uncovered := rest }

/-! ### Power fail -/

/-- Streams with undelivered records (R359): SRC, CLASS, FIRST, LAST. -/
def Agg.undelivered (a : Agg) : List (Node × RecClass × Seq × Seq) :=
  a.jixs.filterMap fun i =>
    let x := a.jst i
    match x.jseq, x.ents.findSome? JEnt.seq? with
    | some j, some f => some (x.src, x.cls, f, j)
    | _, _ => none

/-- FLASH_FLUSH: 4 ms after the warning (R359). Mark: DEDUCED (log entry 59, unsafe). -/
def Agg.flashFlush (a : Agg) : Agg :=
  match a.jrn.warn with
  | some c =>
    if a.u.since c < msT 4 ∨ a.jrn.flushing ∨ a.jrn.flushed then a
    else a.onJ fun j => { j with flushing := true, flash := a.undelivered }
  | none => a

/-- FLUSH_COMPLETE (R359). -/
def Agg.flushComplete (a : Agg) : Agg :=
  if a.jrn.flushing then a.onJ fun j => { j with flushing := false, flushed := true } else a

/-- POWER_FAIL_WARNING: POWERFAIL from the heads (R359; 18 R591). Mark: DEDUCED (log entry 59, unsafe). -/
def Agg.powerFailWarning (a : Agg) : Agg :=
  if a.jrn.warn.isSome then a
  else
    let a := a.onJ fun j => { j with warn := some a.u.clk }
    (List.range 8).foldl (fun (a : Agg) p => if a.u.raceUp p then a.issue p 0xFFFFFF 0 .powerFail else a) a

/-- JOURNAL_READY (18 R589). -/
def Agg.journalReady (a : Agg) : Agg := a.onJ fun j => { j with ready := true }

/-- The LOSS record of a power loss, before any other record is forwarded (R356, R359).
Mark: DEDUCED (log entry 55, unsafe). -/
def Agg.powerLoss (a : Agg) : Agg :=
  if a.jrn.afterLoss && !a.jrn.flash.isEmpty then (a.loss 1 a.jrn.flash).onJ fun j => { j with flash := [] } else a

/-! ### Registers -/

/-- JRN registers that the journal holds (R364); `i` is the stream selected. -/
def Agg.jrnView (a : Agg) (ofs i : Nat) : Option Word :=
  let w := fun (n : Nat) => some (BitVec.ofNat 32 n)
  let x := a.jst i
  let q := fun (s : Option Seq) => (s.map fun (n : Seq) => n.toNat).getD 0
  let mib := a.lag / 1048576
  if ofs = Reg.jrnStat then
    w (b2n a.jrn.ready + 2 * b2n a.jrn.take + 4 * b2n a.jrn.flushing + 8 * b2n a.jrn.afterLoss
      + 16 * (a.jst 768).sink + 65536 * min mib 0xFFFF)
  else if ofs = Reg.jrnUsed then w mib
  else if ofs = Reg.jrnSeall then w (a.jrn.block.getD 0)
  else if ofs = Reg.jrnSealh then w (a.jrn.block.getD 0 / 2 ^ 32)
  else if ofs = Reg.jrnAtJseql then w (q x.jseq)
  else if ofs = Reg.jrnAtJseqh then w (q x.jseq / 2 ^ 32)
  else if ofs = Reg.jrnAtSseql then w (q x.sseq)
  else if ofs = Reg.jrnAtSseqh then w (q x.sseq / 2 ^ 32)
  else if ofs = Reg.jrnAtSentl then w (q x.sent)
  else if ofs = Reg.jrnAtSenth then w (q x.sent / 2 ^ 32)
  else if ofs = Reg.jrnAtSstat then
    w (b2n x.valid + 2 * b2n x.fwd + 4 * b2n (x.valid && !x.fwd) + 8 * b2n x.nobase + 16 * b2n x.sync.isSome)
  else none

end Sys2Proof.Machine
end

