-- ==== Sys2Proof/Machine/Vote.lean ====
section
/-! DEFINITION. The vote of the aggregators (08_health_vote): the score and the verdict of each die (R281-R287), watch
groups (R288-R294), proposals and decisions (R302-R307), the governor (R315-R317), fences received, and their delivery to
the dies (R301, R318). -/

namespace Sys2Proof.Machine

/-- Apply a function to the vote. -/
def Agg.onV (a : Agg) (f : Vote → Vote) : Agg := { a with vote := f a.vote }

/-! ### Score and verdict -/

/-- A die of which nothing is known. -/
def dieVote0 : DieVote :=
  { comps := [0, 0, 0, 0, 0], lscore := 0, hard := 0, proposed := false, silent := false, comp := 0, since := [], cause := 0
    score := 0 }

/-- What this side holds about a die of its tray, by 32P + D. -/
def Agg.dieVote (a : Agg) (k : Nat) : DieVote := Tab.getD a.vote.dies k dieVote0

/-- Put it. -/
def Agg.setDv (a : Agg) (k : Nat) (x : DieVote) : Agg := a.onV fun v => { v with dies := Tab.put k x v.dies }

/-- Highest level of the aggregator's own outputs for a die (R281). -/
def Agg.ensOf (a : Agg) (k : Nat) : Nat :=
  let mine := fun (e : Nat × Nat × Nat × Nat) =>
    if e.2.1 = 0 then bitsOf e.2.2.1 9 7 == k / 32 else e.2.1 == 1
  ((a.vote.ens.filter mine).map fun e => e.2.2.2).foldl max 0

/-- ENS contribution from R281. -/
def Agg.ens281 (a : Agg) (k : Nat) : Nat := weightOf (a.u.rd Reg.hltWens) (a.ensOf k)

/-- STRAG contribution (R280). -/
def Agg.stragOf (a : Agg) (k : Nat) : Nat := if a.straggler (k / 32) (k % 32) then a.u.fld Reg.votWstrag 9 0 else 0

/-- All six contributions at the aggregator (R280, R281, R286). -/
def Agg.compsOf (a : Agg) (k : Nat) : List Nat :=
  match (a.dieVote k).comps with
  | e :: t => max e (a.ens281 k) :: t ++ [a.stragOf k]
  | [] => []

/-- Hard flags with SILENT from this side (R284, R330). -/
def Agg.hardOf (a : Agg) (k : Nat) : Nat := (a.dieVote k).hard ||| b2n (a.dieVote k).silent

/-- Compute a die's score and verdict anew (R282, R283, R286). -/
def Agg.voteDie (a : Agg) (k : Nat) : Agg :=
  let x := a.dieVote k
  let c := a.compsOf k
  let h := a.hardOf k
  let s := min 1023 c.sum
  let raw := verdictOf (a.u.rd Reg.hltThr) h x.proposed s
  let since := holdSince x.since raw a.u.clk
  let v := stepVerdict since x.comp raw a.u.clk (msT (a.u.fld Reg.hltDownhold 15 0))
  a.setDv k { x with since := since, comp := v, score := s, cause := causeOf v h x.proposed c }

/-- The dies of the tray: those of its chains, and those heard of (R281, R286). -/
def Agg.dieKeys (a : Agg) : List Nat :=
  (List.range 256).filter fun k =>
    ((a.chain (k / 32)).status != .empty && decide (k % 32 < (a.chain (k / 32)).len)) || (Tab.find k a.vote.dies).isSome

/-- Compute every die of the tray anew. -/
def Agg.voteAll (a : Agg) : Agg := a.dieKeys.foldl Agg.voteDie a

/-- A HEALTH record of a die of the tray is journaled (R285, R286). Mark: DEDUCED (log entry 37, unsafe). -/
def Agg.healthIn (a : Agg) (r : Rec) : Agg :=
  let b := r.payload
  let k := dieKey r.src
  let x := a.dieVote k
  let n := fun (o : Nat) => leAt b o 2
  (a.setDv k { x with lscore := n 0 % 1024, comps := [n 4, n 6, n 8, n 10, n 12], hard := n 14
                      proposed := leAt b 2 1 == 2 && leAt b 3 1 == 1 }).voteDie k

/-- The die has not been reachable from this head for VOT_SILTO µs (R284): counted from the loss, or for one never heard from
the last change of its chain's status. No die is on an empty port (00_scope R2). Mark: DEDUCED (log entry 37, unsafe). -/
def Agg.gone (a : Agg) (k : Nat) : Bool :=
  !a.reaches k && (a.chain (k / 32)).status != .empty && decide (k % 32 < (a.chain (k / 32)).len)
    && decide (usT (a.u.fld Reg.votSilto 15 0) ≤ a.u.since ((Tab.find k a.lostAt).getD (a.chain (k / 32)).changed))

/-- SILENT: the die has not been reachable from this side, and the partner reports the same or is lost; not of a die that is
off (R284; 18 R578). -/
def Agg.silentDie (a : Agg) (k : Nat) (same : Bool) : Agg :=
  if !a.gone k || a.u.bit (Reg.glbOffmap + 4 * (k / 32)) (k % 32) || !(same || !a.partner) then a
  else (a.setDv k { a.dieVote k with silent := true }).voteDie k

/-! ### Watch groups -/

/-- A tray's G and T of an own address. -/
def Agg.tray (a : Agg) : Nat := trayOf a.u.node

/-- Masks of a tray in a watch group. -/
def WGroup.masks (g : WGroup) (tray : Nat) : List Nat :=
  match g.trays.find? fun t => t.1 == tray with | some t => t.2 | none => []

/-- A watch group holds a die. -/
def WGroup.holds (g : WGroup) (n : Node) : Bool :=
  ((g.masks (trayOf n)).getD (bitsOf n.toNat 9 7) 0).testBit (bitsOf n.toNat 6 2)

/-- A watch group holds a subject: a die, or any die of a tray. -/
def WGroup.holdsSubj (g : WGroup) (n : Node) : Bool :=
  if kindOf n = 0 then g.holds n else (g.masks (trayOf n)).any fun m => m != 0

/-- Watch groups not yet torn down that hold a subject. -/
def Agg.groupsOf (a : Agg) (n : Node) : List WGroup :=
  a.vote.groups.filter fun g => g.holdsSubj n && (match g.until_ with | some t => decide (a.u.tb.now ≤ t) | none => true)

/-- The watch group that holds a die of the tray now. -/
def Agg.groupOfDie (a : Agg) (k : Nat) : Option WGroup :=
  (a.groupsOf (a.dieAddr k)).find? fun g => decide (g.from_ ≤ a.u.tb.now)

/-- A watch group is the instance of a fence. -/
def WGroup.is (g : WGroup) (f : Fence) : Bool := decide ((g.wgid, g.gen) = f.inst)

/-- This aggregator's pair owns a watch group (R289). -/
def Agg.ownsGroup (a : Agg) (g : WGroup) : Bool := if g.span then a.vote.system.held else a.vote.group.held

/-! ### Verdicts in force and the governor -/

/-- The verdict in force for a subject. -/
def Agg.inForce (a : Agg) (n : Node) : InForce := Tab.getD a.vote.inforce n.toNat ⟨0, 0, false⟩

/-- Tray subject of a tray: its aggregator A address (R295). -/
def trayAddr (gt : Nat) : Node := sideAddr gt .a

/-- The verdict in force for a die counts its tray's (R301). -/
def Agg.inForceOf (a : Agg) (n : Node) : Nat := max (a.inForce n).verd (a.inForce (trayAddr (trayOf n))).verd

/-- Enter a verdict in force (R283, R301, R304). -/
def Agg.setForce (a : Agg) (f : Fence) : Agg :=
  let v := f.fkind.toNat
  if v > 3 ∨ (a.inForce f.subj).verd > v ∧ (a.inForce f.subj).verd ≥ 2 then a
  else a.onV fun x => { x with inforce := Tab.put f.subj.toNat ⟨v, f.decid.toNat, f.fflags.toNat.testBit 0⟩ x.inforce }

/-- At the instant of an ADMIT fence KEEP is in force for the tray and each of its dies, the hard flags that admission ends
are gone, and the pair that waits in LOADED enters ADMITTED (R321, R324). -/
def Agg.admitForce (a : Agg) (f : Fence) : Agg :=
  let t := trayOf f.subj
  let rest := a.vote.inforce.filter fun p => !decide (trayOf (BitVec.ofNat 24 p.1) = t)
  let clear := fun (x : DieVote) => { x with silent := false, hard := 0, since := [] }
  let a := a.onV fun v => { v with inforce := Tab.put (trayAddr t).toNat ⟨0, f.decid.toNat, false⟩ rest }
  if t ≠ a.tray then a
  else (a.onV fun v => { v with
      dies := v.dies.map fun p => (p.1, clear p.2)
      adm := if v.adm.state = 4 then { v.adm with state := 5 } else v.adm }).voteAll

/-- ADMIT fences whose instant has come take effect (R324). -/
def Agg.admitSettle (a : Agg) : Agg :=
  if a.vote.admits.isEmpty then a
  else
    let due := fun (f : Fence) => decide (f.tf.toNat ≤ a.u.tb.now)
    (a.vote.admits.filter due).foldl Agg.admitForce (a.onV fun v => { v with admits := v.admits.filter fun f => !due f })

/-- C: distinct subjects of the governor log within the window (R315). -/
def Agg.govC (a : Agg) : Nat :=
  let w := a.u.fld Reg.votGovw 15 0 * 2 ^ 32
  ((a.vote.log.filter fun e => decide (a.u.tb.now ≤ e.2.1 + w)).map fun e => e.1).eraseDups.length

/-- An EXPEL is allowed: C < E (R315). -/
def Agg.govAllows (a : Agg) : Bool :=
  decide (a.govC < min (a.u.fld Reg.votGovb 7 0) (a.u.fld Reg.votSpares 15 0))

/-- An aggregator of the subject's group enters an EXPEL or HARD fence in its governor log and takes its SPARES (R307, R315,
R317). -/
def Agg.govLog (a : Agg) (f : Fence) : Agg :=
  if (f.fkind ≠ 2 ∧ f.fkind ≠ 3) ∨ trayOf f.subj / 64 ≠ a.tray / 64 then a
  else
    let a := a.onU fun u => u.wrN Reg.votSpares f.spares.toNat
    if a.vote.log.any fun e => decide (e.1 = f.subj) then a
    else a.onV fun v => { v with log := lastN 16 (v.log ++ [(f.subj, f.tf.toNat, f.fkind == 3)]) }

/-- `x` ranks before `y` in the governed queue: the higher score, then the lower address (R316). -/
def govBefore (x y : Governed) : Bool :=
  decide (x.score > y.score) || (x.score == y.score && decide (x.subj.toNat < y.subj.toNat))

/-- Insert in order. Mark: DEDUCED (log entry 43, unsafe). -/
def govInsert (g : Governed) : List Governed → List Governed
  | [] => [g]
  | x :: t => if govBefore g x then g :: x :: t else x :: govInsert g t

/-- A subject enters the governed queue, or its repeat is noted (R316). -/
def Agg.govern (a : Agg) (n : Node) (score : Nat) : Agg :=
  let q := govInsert ⟨n, score, a.u.clk⟩ (a.vote.governed.filter fun g => decide (g.subj ≠ n))
  let a := a.onV fun v => { v with governed := q.take 16 }
  if q.length > 16 then a.onU fun u => u.err Reg.votErr 2 else a

/-- GOVERNED_EXPIRY: no repeat for 3 s (R316). -/
def Agg.governedExpiry (a : Agg) (n : Node) : Agg :=
  a.onV fun v => { v with governed := v.governed.filter fun g => decide (g.subj ≠ n) || decide (a.u.since g.at_ < msT 3000) }

/-! ### Proposals -/

/-- Latest completed step that the aggregator has learned from its package results (04 R163). -/
def Agg.lastStep (a : Agg) : Nat := ((a.rdx.sref.map fun p => p.2.2).filter fun s => decide (s < 0xFFFFFF)).foldl max 0

/-- A tray side's head of a vote message (R302). -/
def Agg.voteHead (a : Agg) (role term n : Nat) : VoteHead :=
  ⟨0, a.u.node, BitVec.ofNat 8 role, BitVec.ofNat 32 term, BitVec.ofNat 32 n⟩

/-- Group control address of the own group. -/
def Agg.ctl (a : Agg) : Node := groupCtl (a.tray / 64)

/-- `x` leads `y` as the die behind a tray's verdict: the greater verdict, then the higher score.
Mark: DEDUCED (log entry 46, unsafe). -/
def worse (x y : Nat × DieVote) : Bool :=
  decide (x.2.comp > y.2.comp) || (x.2.comp == y.2.comp && decide (x.2.score > y.2.score))

/-- The die whose verdict a tray subject follows. Mark: DEDUCED (log entry 46, unsafe). -/
def Agg.worst (a : Agg) : Option (Nat × DieVote) :=
  a.vote.dies.foldl (fun (b : Option (Nat × DieVote)) x =>
    match b with | some y => if worse x y then some x else b | none => some x) none

/-- This side's view of a subject of its tray: verdict, the die behind it (R303). With TRAYEXP a die's EXPEL or HARD is the
tray's. -/
def Agg.viewOf (a : Agg) (n : Node) : Option (Nat × Nat × DieVote) :=
  if trayOf n ≠ a.tray then none
  else
    let whole := a.u.bit Reg.votCtrl 1
    if kindOf n = 0 then
      let x := a.dieVote (dieKey n)
      if whole && decide (x.comp ≥ 2) then none else some (x.comp, dieKey n, x)
    else match a.worst with
      | some (k, x) => if whole && decide (x.comp ≥ 2) then some (x.comp, k, x) else none
      | none => none

/-- The proposal that this side makes for a subject now: none when nothing differs (R303). -/
def Agg.proposalOf (a : Agg) (n : Node) : Option Proposal :=
  match a.viewOf n with
  | none => none
  | some (v, k, x) =>
    let f := a.inForce n
    let now := a.inForceOf n
    let gov := f.governed && decide (f.verd = 1) && v == 2
    if v = now ∨ (now ≥ 2 ∧ v < now) then none
    else some { subj := n, verd := BitVec.ofNat 8 v, cause := BitVec.ofNat 8 x.cause, pflags := BitVec.ofNat 8 (b2n gov)
                score := BitVec.ofNat 16 x.score, step := BitVec.ofNat 32 a.lastStep, rdie := a.dieAddr k
                decid := BitVec.ofNat 64 f.decid }

/-- The vote runs at this side: it has joined and VOTEEN is 1 (R330). -/
def Agg.votes (a : Agg) : Bool := a.joined && a.u.bit Reg.votCtrl 0

/-! ### The decider -/

/-- A role of the pair. -/
def Agg.role (a : Agg) (sys : Bool) : Role := if sys then a.vote.system else a.vote.group

/-- A side has sent a TRAY_BEAT within 300 µs; this side lives. -/
def Agg.beating (a : Agg) (n : Node) : Bool :=
  decide (n = a.u.node) || (match Tab.find n.toNat a.vote.beats with | some c => decide (a.u.since c < usT 300) | none => false)

/-- Trays of the own group heard within 300 µs. -/
def Agg.traysHeard (a : Agg) : Nat :=
  (((a.vote.beats.filter fun p => decide (a.u.since p.2 < usT 300)).map fun p => trayOf (BitVec.ofNat 24 p.1)).filter
    fun t => t / 64 == a.tray / 64).eraseDups.length

/-- Group roots heard within 300 µs. -/
def Agg.groupsHeard (a : Agg) : Nat :=
  ((a.vote.gbeats.filter fun p => decide (a.u.since p.2 < usT 300)).map fun p => trayOf (BitVec.ofNat 24 p.1) / 64).eraseDups.length

/-- The majority of R311 is heard. -/
def Agg.majority (a : Agg) (sys : Bool) : Bool :=
  if sys then decide (2 * a.groupsHeard > a.u.fld Reg.votGcfg 14 8) else decide (2 * a.traysHeard > a.u.fld Reg.votGcfg 6 0)

/-- This side decides for its pair's role: side A, or B when A is not joined; with the majority, not in a quiet period
(R304, R311, R312). -/
def Agg.decides (a : Agg) (sys : Bool) : Bool :=
  let r := a.role sys
  a.votes && r.held && !r.quiet && !r.isolated && a.majority sys && (decide (a.side = .a) || !a.partner)

/-- The proposals of a subject that count: those of the sides that live; when neither beats, whatever is held (R304, R314).
Mark: DEDUCED (log entry 43, unsafe). -/
def Agg.heldFor (a : Agg) (n : Node) : List Held :=
  let l := a.vote.held.filter fun h => decide (h.p.subj = n)
  let live := l.filter fun h => a.beating h.src
  if live.isEmpty then l else live

/-- They suffice, and one is new (R304): both sides', or one side's while the other is not heard. -/
def Agg.ready (a : Agg) (n : Node) : Bool :=
  let l := a.heldFor n
  let gt := trayOf n
  let has := fun (s : Side) => l.any fun h => decide (h.src = sideAddr gt s)
  l.any Held.new && ((has .a && has .b) || (has .a && !a.beating (sideAddr gt .b)) || (has .b && !a.beating (sideAddr gt .a)))

/-- The decided proposal: lower verdict, lower score (R304). Mark: DEDUCED (log entry 43, unsafe). -/
def decided (l : List Held) : Option Proposal :=
  match l with
  | [] => none
  | h :: t => some <| t.foldl (fun (p : Proposal) x =>
      let q := if x.p.verd.toNat < p.verd.toNat then x.p else p
      { q with score := if x.p.score.toNat < p.score.toNat then x.p.score else p.score }) h.p

/-- A subject's decision is system-scoped (R306). -/
def Agg.sysScoped (a : Agg) (n : Node) : Bool :=
  (a.groupsOf n).any WGroup.span || (a.vote.group.held && trayOf n == a.tray)

/-- The group's spare count after the EXPELs and HARDs that are being decided (R295, R315). -/
def Agg.sparesLeft (a : Agg) : Nat :=
  a.u.fld Reg.votSpares 15 0 - (a.vote.decisions.filter fun d => d.2.f.expels && !d.2.sys).length

/-- Draft of the fence of a decided proposal (R295): the decision number and the term of the role. -/
def Agg.draftFence (a : Agg) (p : Proposal) (kind cause flags : Nat) (sys : Bool) : Fence :=
  { fkind := BitVec.ofNat 8 kind, fflags := BitVec.ofNat 8 flags, wgid := 0, gen := 0, fseq := 0, subj := p.subj
    cause := BitVec.ofNat 8 cause, decid := BitVec.ofNat 64 (a.vote.decn % 2 ^ 32 + (a.role sys).term * 2 ^ 32), tf := 0
    score := p.score, seff := BitVec.ofNat 32 ((p.step.toNat + 1) % 2 ^ 24), rdie := p.rdie
    spares := BitVec.ofNat 16 (a.sparesLeft - b2n (kind == 2 || kind == 3)), ext := [] }

/-- Send DECIDE to the partner (R305). -/
def Agg.sendDecide (a : Agg) (d : Decision) : Agg :=
  let r := if d.sys then 2 else 1
  a.send a.partnerAddr 1 (.vote (a.voteHead r (a.role d.sys).term (d.f.decid.toNat % 2 ^ 32)) (.decide d.f d.props)) d.n

/-- A new decision (R304, R305). -/
def Agg.startDecision (a : Agg) (f : Fence) (ps : List Proposal) (sys escalate : Bool) : Agg :=
  let d : Decision := ⟨f, ps, sys, escalate, false, a.u.clk, 0⟩
  (a.onV fun v => { v with decn := v.decn + 1, decisions := Tab.put f.decid.toNat d v.decisions }).sendDecide d

/-- The governor's part of a decision (R315, R316): what is decided in place of an EXPEL, and whether GOVERNED. An EXPEL of
a governed subject waits for its turn at the head of the queue. Mark: DEDUCED (log entry 43, unsafe). -/
def Agg.governor (a : Agg) (n : Node) (v : Nat) : Nat × Bool :=
  if v ≠ 2 then (v, false)
  else
    let turn := match a.vote.governed.head? with
      | some g => decide (g.subj = n) || !a.vote.governed.any fun x => decide (x.subj = n)
      | none => true
    if a.govAllows && turn then (2, false) else (1, true)

/-- Decide on a subject whose proposals suffice (R304-R306, R324). Mark: DEDUCED (log entry 43, unsafe). -/
def Agg.decideOn (a : Agg) (n : Node) : Agg :=
  let l := a.heldFor n
  if a.vote.decisions.any fun d => decide (d.2.f.subj = n) then a
  else match decided l with
    | none => a
    | some p =>
      let differ := l.any fun h => decide (h.p.verd ≠ p.verd)
      let a := a.onV fun v => { v with held := v.held.map fun h => if h.p.subj = n then { h with new := false } else h }
      let a := if differ then a.onU fun u => u.err Reg.votErr 0 else a
      let g := a.governor n p.verd.toNat
      let now := (a.inForce n).verd
      let a := if g.2 then (a.govern n p.score.toNat).onU fun u => u.count Reg.votGovdcnt
        else a.onV fun v => { v with governed := v.governed.filter fun x => decide (x.subj ≠ n) }
      if g.1 = now ∨ (now ≥ 2 ∧ g.1 < now) then a
      else
        let sys := if g.1 = 4 then !a.vote.groups.any fun w => !w.span && w.wgid == p.score.toNat else a.sysScoped n
        let flags := b2n g.2 + 2 * b2n (decide (l.length < 2)) + 4 * b2n sys
        a.startDecision (a.draftFence p g.1 p.cause.toNat flags false) (l.map Held.p) false sys

/-- Subject `x` is decided before `y`: HARD before EXPEL, then the higher score, then the lower address (R304).
Mark: DEDUCED (log entry 43, unsafe). -/
def decideFirst (x y : Proposal) : Bool :=
  decide (x.verd.toNat > y.verd.toNat) || (x.verd == y.verd &&
    (decide (x.score.toNat > y.score.toNat) || (x.score == y.score && decide (x.subj.toNat < y.subj.toNat))))

/-- Decide on every subject that is ready, in the order of R304. Mark: DEDUCED (log entry 43, unsafe). -/
def Agg.decideAll (a : Agg) : Nat → Agg
  | 0 => a
  | k + 1 =>
    if !a.decides false then a
    else
      let open_ := fun (n : Node) => a.vote.decisions.any fun d => decide (d.2.f.subj = n)
      let c := (a.vote.held.filter fun h => h.new && !open_ h.p.subj && a.ready h.p.subj).map Held.p
      match c with
      | [] => a
      | p :: t =>
        let q := t.foldl (fun (b : Proposal) x => if decideFirst x b then x else b) p
        (a.decideOn q.subj).decideAll k

/-- Decide on whatever is ready. -/
def Agg.decideReady (a : Agg) : Agg := a.decideAll (a.vote.held.length + 1)

/-- PROPOSE_RECEIVE (R304). -/
def Agg.proposeReceive (a : Agg) (src : Node) (p : Proposal) : Agg :=
  let rest := a.vote.held.filter fun h => decide (h.src ≠ src) || decide (h.p.subj ≠ p.subj)
  (a.onV fun v => { v with held := rest ++ [⟨src, p, true⟩] }).decideReady

/-! ### Sending proposals -/

/-- Send a proposal to the group control address, to which this side listens too (R302, R303; 11 R396). -/
def Agg.sendProposal (a : Agg) (p : Proposal) (n : Nat) : Agg :=
  let a := a.send a.ctl 1 (.vote (a.voteHead 0 0 0) (.propose p)) n
  ((a.onV fun v => { v with props := Tab.put p.subj.toNat ⟨p, a.u.clk, n⟩ v.props }).onU fun u =>
    u.count Reg.votPropcnt).proposeReceive a.u.node p

/-- PROPOSE: the computed verdict differs from the one in force (R303). -/
def Agg.propose (a : Agg) (n : Node) : Agg :=
  if !a.votes then a
  else match a.proposalOf n, Tab.find n.toNat a.vote.props with
    | some p, some q => if q.p.verd = p.verd then a else a.sendProposal p 0
    | some p, none => a.sendProposal p 0
    | none, _ => a

/-- PROPOSE_REPEAT: every VOT_GTO µs, a governed one every 1 s (R303). -/
def Agg.proposeRepeat (a : Agg) (n : Node) : Agg :=
  match Tab.find n.toNat a.vote.props with
  | none => a
  | some q =>
    let adm := q.p.verd == 4
    let p := if adm then some q.p else a.proposalOf n
    match p with
    | none => a.onV fun v => { v with props := Tab.del n.toNat v.props }
    | some p =>
      let wait := if p.pflags.toNat.testBit 0 then msT 1000 else usT (a.u.fld Reg.votGto 15 0)
      if !a.votes || decide (a.u.since q.at_ < wait) then a
      else (a.sendProposal p (q.n + 1)).onU fun u => (u.count Reg.votResendcnt).err Reg.votErr 3

/-! ### Fences at an aggregator -/

/-- What a fence tells of its watch group: its numbering and the GENs used (R288, R312), its end, and, of an OPEN or ADMIT,
the own tray's dies; up to 256 are held (R293, R294). SYSSCOPE of the fence says that the watch group is spanning.
Mark: DEDUCED (log entry 42, unsafe). -/
def Agg.groupFence (a : Agg) (f : Fence) : Agg :=
  if f.gen = 0 then a
  else
    let masks := (List.range 8).map fun k => leAt f.ext (4 * k) 4
    let mine := (a.tray, masks)
    let joins := f.fkind == 4 && trayOf f.subj == a.tray
    let upd := fun (g : WGroup) => { g with
      next := max g.next (f.fseq.toNat + 1), until_ := if f.fkind = 6 then some f.tf.toNat else g.until_
      trays := if joins then (g.trays.filter fun t => t.1 != a.tray) ++ [mine] else g.trays }
    let known := a.vote.groups.any fun g => g.is f
    let stands := a.vote.groups.filter fun g => match g.until_ with | some t => decide (a.u.tb.now ≤ t) | none => true
    let new : List WGroup := [⟨f.inst.1, f.inst.2, [mine], f.fseq.toNat + 1, f.tf.toNat, none, f.fflags.toNat.testBit 2⟩]
    a.onV fun v => { v with
      gens := max v.gens (f.gen.toNat + 1)
      groups := if known then v.groups.map fun g => if g.is f then upd g else g
                else if f.opens && decide (stands.length < 256) then stands ++ new else v.groups }

/-- Chains to which a fence goes: those of its masks, of the watch group, or of the subject (R301).
Mark: DEDUCED (log entry 42, unsafe). -/
def Agg.fencePorts (a : Agg) (f : Fence) : List Nat :=
  let some_ := fun (m : List Nat) => (List.range 8).filter fun p => decide (m.getD p 0 ≠ 0)
  if f.opens || f.fkind == 6 then some_ ((List.range 8).map fun k => leAt f.ext (4 * k) 4)
  else if f.gen = 0 then
    (if trayOf f.subj ≠ a.tray then [] else if kindOf f.subj = 0 then [bitsOf f.subj.toNat 9 7] else List.range 8)
  else match a.vote.groups.find? fun g => g.is f with
    | some g => some_ (g.masks a.tray)
    | none => []

/-- A fence gives a verdict to a subject of the own tray. -/
def Agg.judged (a : Agg) (f : Fence) : Bool := decide (f.fkind.toNat ≤ 3) && trayOf f.subj == a.tray

/-- Deliver a fence to the dies of the tray (R301, R318). One that makes members, that no watch group carries, or whose
subject is the tray goes to every unit; one of a watch group goes to its members, and to a subject die that is none.
Both sides of the pair hold a fence: side A issues it, or B when A is lost. Mark: DEDUCED (log entries 42, 49, unsafe). -/
def Agg.deliver (a : Agg) (f : Fence) : Agg :=
  if decide (a.side = .b) && a.partner then a
  else
    let whole := a.judged f && decide (kindOf f.subj ≠ 0)
    let all := whole || f.opens || f.gen == 0
    let member := a.vote.groups.any fun g => g.is f && g.holds f.subj
    let a := (if whole then List.range 8 else a.fencePorts f).foldl
      (fun (a : Agg) p =>
        if a.u.raceUp p then a.issue p (if all then 0xFFFFFF else wgAddr f.inst.1) (if all then 0 else f.gen) (.fence f) else a) a
    let p := bitsOf f.subj.toNat 9 7
    if all || !a.judged f || member || !a.u.raceUp p then a else a.issue p f.subj 0 (.fence f)

/-- Last acknowledged SEQ of classes 0-4 of a die of the tray, as HARD carries them (R11, R296; 09 R356). -/
def Agg.lastSeqs (a : Agg) (n : Node) : List Byte :=
  ((List.range 5).map fun c => match RecClass.ofCode c with
    | some x => leBytes 6 (((a.jst (jrnIx n x)).sseq.getD 0).toNat)
    | none => zeros 6).flatten ++ zeros 2

/-- The die masks of the own tray that an ADMIT takes into a watch group: those that the group listed for it before, else
every die of its chains (R324). Mark: DEDUCED (log entry 42, unsafe). -/
def Agg.ownMasks (a : Agg) (old : List Nat) : List Nat :=
  if old.any fun x => x != 0 then old
  else (List.range 8).map fun p => if (a.chain p).status = .empty then 0 else 2 ^ (a.chain p).len - 1

/-- A fence as the subject tray's own aggregators deliver it: they hold the SEQs that HARD names and the dies that ADMIT
names (R11, R296, R324). Mark: DEDUCED (log entry 42, unsafe). -/
def Agg.ownTail (a : Agg) (f : Fence) : Fence :=
  if trayOf f.subj ≠ a.tray then f
  else if f.fkind = 3 then { f with ext := a.lastSeqs f.rdie }
  else if f.fkind = 4 then
    let old := match a.vote.groups.find? fun g => g.is f with | some g => g.masks a.tray | none => []
    { f with ext := ((a.ownMasks old).map fun m => leBytes 4 m).flatten }
  else f

/-- An aggregator takes a fence that it receives or publishes (R301, R307, R315, R317, R324). A HANG settles no proposal
(R325). -/
def Agg.fenceTake (a : Agg) (f : Fence) : Agg :=
  if a.vote.fences.any f.same then a
  else
    let f := a.ownTail f
    let a := ((a.setForce f).govLog f).groupFence f
    let a := a.onV fun v =>
      { v with fences := lastN 256 (v.fences ++ [f])
               props := if f.fkind = 7 then v.props else v.props.filter fun p => decide (p.2.p.subj ≠ f.subj)
               admits := if f.fkind = 4 then v.admits ++ [f] else v.admits }
    a.deliver f

/-- FENCE_REQUEST: a die unit asks for a fence that has not arrived: WGID, GEN, FSEQ (R297). -/
def Agg.fenceRequest (a : Agg) (k : Nat) (inst : Nat × Nat) (fseq : Nat) : Agg :=
  match a.vote.fences.find? fun f => decide (f.inst = inst) && f.fseq.toNat == fseq with
  | some f => if a.u.raceUp (k / 32) then a.issue (k / 32) (a.dieAddr k) 0 (.fence f) else a
  | none => a

/-- The extension of a fence for a tray (R296). -/
def tailFor (f : Fence) (g : Option WGroup) (tray : Nat) : List Byte :=
  if f.opens || f.fkind == 6 then
    match g with
    | some x => ((List.range 8).map fun k => leBytes 4 ((x.masks tray).getD k 0)).flatten
    | none => f.ext
  else f.ext

/-- Receivers of a fence: the sides of the trays that its watch group has, the subject tray's pair, and for EXPEL and HARD
every aggregator of the group that is heard (R302, R307). -/
def Agg.receivers (a : Agg) (f : Fence) (g : Option WGroup) : List Node :=
  let pair := fun (t : Nat) => [sideAddr t .a, sideAddr t .b]
  let trays := match g with | some x => (x.trays.map fun t => pair t.1).flatten | none => []
  let heard := if f.fkind = 2 ∨ f.fkind = 3 then
      (a.vote.beats.map fun p => (BitVec.ofNat 24 p.1 : Node)).filter fun n => trayOf n / 64 == trayOf f.subj / 64
    else []
  let subj := if f.fkind = 5 ∨ f.fkind = 6 then [] else pair (trayOf f.subj)
  ((trays ++ subj ++ heard).eraseDups).filter fun n => decide (n ≠ a.u.node)

/-- Addresses to which a fence is sent first: the watch-group address, the subject's group control address and the subject
tray's pair (R302). -/
def Agg.fenceDests (a : Agg) (f : Fence) : List Node :=
  let t := trayOf f.subj
  (if f.gen = 0 then [] else [wgAddr f.inst.1]) ++ [groupCtl (t / 64)]
    ++ [sideAddr t .a, sideAddr t .b].filter fun n => decide (n ≠ a.u.node)

/-- Send a published fence again to its receivers that have not answered (R307). -/
def Agg.sendFence (a : Agg) (p : Published) : Agg :=
  let r := if p.sys then 2 else 1
  p.dst.foldl (fun (a : Agg) t =>
    a.send t.1 1 (.vote (a.voteHead r (a.role p.sys).term (t.2.decid.toNat % 2 ^ 32)) (.fence t.2)) p.n) a

/-- Send a published fence for the first time. An OPEN, TEARDOWN or ADMIT lists the receiving tray's own dies, so that its
copies go to each member tray (R293, R296). Mark: DEDUCED (log entry 42, unsafe). -/
def Agg.sendFirst (a : Agg) (p : Published) : Agg :=
  if p.f.opens || p.f.fkind == 6 then a.sendFence p
  else
    let r := if p.sys then 2 else 1
    (a.fenceDests p.f).foldl (fun (a : Agg) n =>
      a.send n 1 (.vote (a.voteHead r (a.role p.sys).term (p.f.decid.toNat % 2 ^ 32)) (.fence p.f)) 0) a

/-- Publish a fence to one watch group, or to none (R289, R297, R301, R305). -/
def Agg.publishTo (a : Agg) (f : Fence) (g : Option WGroup) (sys : Bool) : Agg :=
  let f := match g with
    | some x => { f with wgid := BitVec.ofNat 16 x.wgid, gen := BitVec.ofNat 32 x.gen, fseq := BitVec.ofNat 32 x.next }
    | none => f
  let own := { f with ext := tailFor f g a.tray }
  let dst := (a.receivers f g).map fun n => (n, { f with ext := tailFor f g (trayOf n) })
  let p : Published := ⟨own, sys, dst, a.u.clk, 0⟩
  let a := a.onV fun v =>
    { v with pubs := if dst.isEmpty then v.pubs else v.pubs ++ [p]
             groups := v.groups.map fun x => match g with
               | some y => if x.wgid = y.wgid ∧ x.gen = y.gen then { x with next := x.next + 1 } else x
               | none => x }
  (a.sendFirst p).fenceTake own

/-- HARD's extension at the publisher (R296): of another tray's die no message carries the SEQs to it: free values, which that
tray's own aggregators replace. Mark: DEDUCED (log entry 42, unsafe). -/
def Agg.hardExt (a : Agg) (n : Node) : Agg × List Byte :=
  if trayOf n = a.tray then (a, a.lastSeqs n)
  else
    (List.range 5).foldl
      (fun (r : Agg × List Byte) _ =>
        let d := r.1.u.draw
        ({ r.1 with u := d.2 }, r.2 ++ leBytes 6 d.1)) (a, []) |> fun r => (r.1, r.2 ++ zeros 2)

/-- Die masks of a tray that ADMIT takes into a watch group, at the publisher (R324): those the group already lists for it;
another tray's are not told: free values, which that tray's own aggregators replace. Mark: DEDUCED (log entry 42, unsafe). -/
def Agg.admitMasks (a : Agg) (g : WGroup) (tray : Nat) : Agg × List Nat :=
  let m := g.masks tray
  if tray = a.tray || m.any fun x => x != 0 then (a, a.ownMasks m)
  else
    (List.range 8).foldl
      (fun (r : Agg × List Nat) _ =>
        let d := r.1.u.draw
        ({ r.1 with u := d.2 }, r.2 ++ [d.1 % 2 ^ 32])) (a, [])

/-- Publish an ADMIT to its watch group, which the proposal's SCORE names (R324). -/
def Agg.publishAdmit (a : Agg) (f : Fence) (sys : Bool) : Agg :=
  match a.vote.groups.find? fun g => g.span == sys && g.wgid == f.score.toNat && g.until_.isNone with
  | none => a
  | some g =>
    let t := trayOf f.subj
    let m := a.admitMasks g t
    let g' := { g with trays := (g.trays.filter fun x => x.1 != t) ++ [(t, m.2)] }
    let a := m.1.onV fun v => { v with groups := v.groups.map fun x => if x.wgid = g.wgid ∧ x.gen = g.gen then g' else x }
    a.publishTo { f with score := 0 } (some g') sys

/-- Dies that a fence concerns: the subject, or of a HANG fence the dies of the vertices listed (R296, R325). -/
def fenceDies (f : Fence) : List Node :=
  if f.fkind = 7 then
    ((List.range (leAt f.ext 0 1)).map fun i => (BitVec.ofNat 24 (leAt f.ext (4 + 4 * i) 4) : Node)).eraseDups
  else [f.subj]

/-- Watch groups in force that a fence concerns. -/
def Agg.fenceGroups (a : Agg) (f : Fence) : List WGroup := ((fenceDies f).map a.groupsOf).flatten.eraseDups

/-- The group root of a tray's group, as heard in its beats, or this pair: the address of the sender. -/
def Agg.rootOf (a : Agg) (g : Nat) : Option Node :=
  (a.vote.gbeats.map fun p => (BitVec.ofNat 24 p.1 : Node)).find? fun n => trayOf n / 64 == g

/-- This pair holds the group role of a group. -/
def Agg.rootsGroup (a : Agg) (g : Nat) : Bool := a.vote.group.held && a.tray / 64 == g

/-- A group root will get the fence in a RELAY. -/
def Agg.relayed (a : Agg) (f : Fence) : Bool :=
  let g := trayOf f.subj / 64
  a.rootsGroup g || (a.rootOf g).isSome

/-- Publish a decided fence (R305, R306): TF is the send time plus the lead; to every watch group of the scope that holds
the subject, or to none, which a system decider leaves to the group root. -/
def Agg.publish (a : Agg) (f : Fence) (sys : Bool) : Agg :=
  let lead := if sys then a.u.fld Reg.votFlead 31 16 else a.u.fld Reg.votFlead 15 0
  let f := { f with tf := BitVec.ofNat 80 (a.u.tb.now + nsUp (lead * 1000)) }
  if f.fkind = 4 then a.publishAdmit f sys
  else
    let e := if f.fkind = 3 then a.hardExt f.rdie else (a, f.ext)
    let f := { f with ext := e.2, spares := if sys || !f.expels then f.spares else BitVec.ofNat 16 (a.u.fld Reg.votSpares 15 0 - 1) }
    let a := e.1
    let gs := (a.fenceGroups f).filter fun g => g.span == sys
    if gs.isEmpty then (if f.fkind = 7 || (sys && a.relayed f) then a else a.publishTo f none sys)
    else gs.foldl (fun (a : Agg) g => a.publishTo f (some g) sys) a

/-- RELAY_RECEIVE: the group root publishes the fences of its confined watch groups, or of a subject that none holds
(R301, R306). -/
def Agg.relayReceive (a : Agg) (l : List Fence) : Agg :=
  if !a.vote.group.held then a
  else
    let a := a.onV fun v => { v with decisions := v.decisions.filter fun d =>
      !(d.2.escalate && l.any fun f => decide (f.subj = d.2.f.subj)) }
    l.foldl (fun (a : Agg) f =>
      let gs := a.fenceGroups f
      if gs.all WGroup.span && !gs.isEmpty then a else a.publish f false) a

/-- Send RELAY to a group root, which may be this pair (R306). -/
def Agg.sendRelay (a : Agg) (f : Fence) (g : Nat) : Agg :=
  if a.rootsGroup g then a.relayReceive [f]
  else match a.rootOf g with
    | some n => a.send n 1 (.vote (a.voteHead 2 a.vote.system.term (f.decid.toNat % 2 ^ 32)) (.relay [f])) 0
    | none => a

/-- ESCALATE_RECEIVE: the system decider decides with its partner; its DECIDE carries both proposals (R302, R306). -/
def Agg.escalateReceive (a : Agg) (f : Fence) (ps : List Proposal) : Agg :=
  if !a.decides true || a.vote.decisions.any fun d => d.2.sys && decide (d.2.f.subj = f.subj) then a
  else
    let id := a.vote.decn % 2 ^ 32 + a.vote.system.term * 2 ^ 32
    a.startDecision { f with decid := BitVec.ofNat 64 id, fflags := f.fflags ||| 4 } ps true false

/-- Send ESCALATE to the system control address, to which this side listens too (R302, R306; 11 R396). -/
def Agg.sendEscalate (a : Agg) (d : Decision) : Agg :=
  (a.send systemCtl 1 (.vote (a.voteHead 1 a.vote.group.term (d.f.decid.toNat % 2 ^ 32)) (.escalate d.f d.props)) d.n).escalateReceive
    d.f d.props

/-- COMMIT_RECEIVE (R305, R306, R312). Mark: DEDUCED (log entry 45, unsafe). -/
def Agg.commitReceive (a : Agg) (id : Nat) (agree : Bool) : Agg :=
  match Tab.find id a.vote.decisions with
  | none => a
  | some d =>
    let drop := fun (a : Agg) => a.onV fun v => { v with decisions := Tab.del id v.decisions }
    if !(a.role d.sys).held then drop a
    else if !agree then (drop a).onU fun u => u.err Reg.votErr 1
    else if d.escalate then
      if d.escalated then a
      else
        let d := { d with escalated := true, at_ := a.u.clk, n := 0 }
        (a.onV fun v => { v with decisions := Tab.put id d v.decisions }).sendEscalate d
    else
      let a := ((drop a).onU fun u => u.count Reg.votDeccnt).publish d.f d.sys
      if !d.sys then a
      else (((fenceDies d.f).map fun n => trayOf n / 64).eraseDups).foldl (fun (a : Agg) g => a.sendRelay d.f g) a

/-- DECIDE_RESEND: no COMMIT after VOT_GTO; an escalation is repeated every VOT_STO (R305, R313). -/
def Agg.decideResend (a : Agg) (id : Nat) : Agg :=
  match Tab.find id a.vote.decisions with
  | none => a
  | some d =>
    let wait := usT (if d.sys || d.escalated then a.u.fld Reg.votSto 15 0 else a.u.fld Reg.votGto 15 0)
    if a.u.since d.at_ < wait then a
    else
      let d := { d with at_ := a.u.clk, n := d.n + 1 }
      let a := (a.onV fun v => { v with decisions := Tab.put id d v.decisions }).onU fun u =>
        (u.count Reg.votResendcnt).err Reg.votErr 3
      if d.escalated then a.sendEscalate d else a.sendDecide d

/-- DECIDE_RECEIVE: the partner answers with COMMIT (R305): its term is current, and the governor allows an EXPEL. -/
def Agg.decideReceive (a : Agg) (h : VoteHead) (f : Fence) : Agg :=
  let sys := h.role == 2
  let r := a.role sys
  let ok := a.votes && r.held && r.term == h.term.toNat && (f.fkind != 2 || a.govAllows)
  let a := if ok then a else a.onU fun u => u.err Reg.votErr 1
  a.send h.src 1 (.vote (a.voteHead h.role.toNat r.term (f.decid.toNat % 2 ^ 32)) (.commit f.decid ok)) 0

/-- FENCE_MESSAGE: taken, and answered with FACK; a gap before it in its watch group is reported (R307). -/
def Agg.fenceMessage (a : Agg) (h : VoteHead) (f : Fence) : Agg :=
  let prior := a.vote.fences.filter fun g => decide (g.inst = f.inst)
  let gap := decide (f.gen ≠ 0) && !f.opens && !prior.any fun g => decide (g.fseq + 1 = f.fseq)
  (a.fenceTake f).send h.src 1
    (.vote (a.voteHead 0 0 (f.decid.toNat % 2 ^ 32)) (.fack f.decid f.wgid f.fseq gap)) 0

/-- FACK_RECEIVE (R307). Mark: DEDUCED (log entry 49, unsafe). -/
def Agg.fackReceive (a : Agg) (src : Node) (decid wgid fseq : Nat) : Agg :=
  let mine := fun (p : Published) => p.f.decid.toNat == decid && p.f.wgid.toNat == wgid && p.f.fseq.toNat == fseq
  a.onV fun v => { v with pubs := (v.pubs.map fun p =>
    if mine p then { p with dst := p.dst.filter fun t => decide (t.1 ≠ src) } else p).filter fun p => !p.dst.isEmpty }

/-- FENCE_RESEND: to each receiver without a FACK; one that counts as lost no longer answers (R307). -/
def Agg.fenceResend (a : Agg) (id : Nat) : Agg :=
  let due := fun (p : Published) => p.f.decid.toNat == id &&
    decide (a.u.since p.at_ ≥ usT (if p.sys then a.u.fld Reg.votSto 15 0 else a.u.fld Reg.votGto 15 0))
  let owes := fun (t : Node × Fence) => a.beating t.1 || (Tab.find t.1.toNat a.vote.beats).isNone
  let live := fun (p : Published) => { p with at_ := a.u.clk, n := p.n + 1, dst := p.dst.filter owes }
  let l := (a.vote.pubs.filter due).map live
  let a := a.onV fun v => { v with pubs := (v.pubs.map fun p => if due p then live p else p).filter fun p => !p.dst.isEmpty }
  l.foldl (fun (a : Agg) p =>
    if p.dst.isEmpty then a else (a.sendFence p).onU fun u => (u.count Reg.votResendcnt).err Reg.votErr 3) a

/-- TRAYSILENT: no TRAY_BEAT from either side of a tray for 300 µs; the group decider is its own proposer (R284, R314). -/
def Agg.traySilent (a : Agg) (t : Nat) : Agg :=
  let gt := a.tray / 64 * 64 + t % 64
  let n := trayAddr gt
  let silent := !a.beating (sideAddr gt .a) && !a.beating (sideAddr gt .b)
  if !a.decides false || !silent || decide (gt = a.tray) || decide ((a.inForce n).verd = 3)
      || a.vote.decisions.any fun d => decide (d.2.f.subj = n) then a
  else
    let p : Proposal := ⟨n, 3, 13, 0, 0, BitVec.ofNat 32 a.lastStep, n, BitVec.ofNat 64 (a.inForce n).decid⟩
    let sys := a.sysScoped n
    a.startDecision (a.draftFence p 3 13 (2 + 4 * b2n sys) false) [p] false sys

/-! ### OPEN, TEARDOWN, SETSPARES -/

/-- The pair that holds a role, as its tray address; none when unknown. -/
def Agg.owner (a : Agg) (sys : Bool) : Option Node :=
  let r := a.role sys
  if r.held then some (trayAddr a.tray) else if r.holder = 0 then none else some r.holder

/-- This side publishes for a watch group's owner. -/
def Agg.ownsFor (a : Agg) (sys : Bool) : Bool := (a.role sys).held && (decide (a.side = .a) || !a.partner)

/-- Trays of a request. -/
def wgTrays (g : WatchGroup) : List (Nat × List Nat) := g.trays.map fun t => (t.1.toNat, t.2.map fun w => w.toNat)

/-- The trays lie in more than one group (R289). -/
def wgSpans (g : WatchGroup) : Bool := g.trays.any fun t => g.trays.any fun s => t.1.toNat / 64 != s.1.toNat / 64

/-- A die of the request is still held by another watch group at TF (R293). -/
def Agg.wgBusy (a : Agg) (g : WatchGroup) : Bool :=
  a.vote.groups.any fun x =>
    (match x.until_ with | some t => decide (t > g.tf.toNat) | none => true) &&
      (wgTrays g).any fun t => (List.range 8).any fun k => decide ((x.masks t.1).getD k 0 &&& t.2.getD k 0 ≠ 0)

/-- Watch groups that still stand at an instant, and those of them that list a tray (R294). -/
def Agg.wgStand (a : Agg) (t : Nat) : List WGroup :=
  a.vote.groups.filter fun x => match x.until_ with | some e => decide (e > t) | none => true
def Agg.wgCount (a : Agg) (t : Nat) : Nat := (a.wgStand t).length

/-- An OPEN would exceed the 256 watch groups of an aggregator of one of its dies (R294). -/
def Agg.wgFull (a : Agg) (g : WatchGroup) : Bool :=
  (wgTrays g).any fun t => t.2.any (fun m => m != 0) &&
    decide (256 ≤ ((a.wgStand g.tf.toNat).filter fun x => x.trays.any fun y => y.1 == t.1).length)

/-- Fence that an operator command makes: cause OPERATOR (R284, R295). -/
def Agg.opFence (a : Agg) (kind tf : Nat) (sys : Bool) : Fence :=
  let p : Proposal := ⟨0, 0, 0, 0, 0, 0, 0, 0⟩
  { a.draftFence p kind 15 (4 * b2n sys) sys with tf := BitVec.ofNat 80 tf }

/-- GEN of a new instance (R288): the system root's counter, from 1. A group root that is not the system root gets it by a
message that the spec does not give: a free value above every GEN known to it, as a value never repeats.
Mark: DEDUCED (log entry 42, unsafe). -/
def Agg.newGen (a : Agg) : Nat × Agg :=
  let r := if a.vote.system.held then (a.vote.gens, a)
    else
      let d := a.u.draw
      (a.vote.gens + d.1 % (0xFFFFFFFF - a.vote.gens), { a with u := d.2 })
  (r.1, r.2.onV fun v => { v with gens := r.1 + 1 })

/-- OPEN at an owner (R288, R293, R294). -/
def Agg.openGroup (a : Agg) (g : WatchGroup) : Agg :=
  let sys := wgSpans g
  if a.vote.gens ≥ 0xFFFFFFFF then a.onU fun u => u.alarm .genUsed
  else if a.wgBusy g || a.wgFull g then a.onU fun u => (u.err Reg.votErr 5).alarm .wgBusy
  else
    let r := a.newGen
    let x : WGroup := ⟨g.wgid.toNat, r.1, wgTrays g, 0, g.tf.toNat, none, sys⟩
    let f := r.2.opFence 5 g.tf.toNat sys
    ((r.2.onV fun v => { v with groups := v.groups ++ [x], decn := v.decn + 1 })).publishTo f (some x) sys

/-- TEARDOWN at an owner (R293). -/
def Agg.closeGroup (a : Agg) (g : WatchGroup) : Agg :=
  match a.vote.groups.find? fun x => a.ownsGroup x && x.wgid == g.wgid.toNat && x.until_.isNone with
  | none => a
  | some x =>
    let f := a.opFence 6 g.tf.toNat x.span
    let a := (a.onV fun v => { v with decn := v.decn + 1 }).publishTo f (some x) x.span
    a.onV fun v => { v with groups := v.groups.map fun y =>
      if y.wgid = x.wgid ∧ y.gen = x.gen then { y with until_ := some g.tf.toNat } else y }

/-- An accepted OPEN or TEARDOWN: at the owner it acts, elsewhere it is relayed, within the owner's pair to the side that
publishes (R293). -/
def Agg.groupCommand (a : Agg) (g : WatchGroup) (isOpen : Bool) (bytes : List Byte) : Agg :=
  let sys := wgSpans g
  if a.ownsFor sys then (if isOpen then a.openGroup g else a.closeGroup g)
  else match a.owner sys with
    | some n => a.send (if trayOf n = a.tray then a.partnerAddr else n) 1 (.mgmt bytes) 0
    | none => a

/-- SETSPARES taken by an aggregator of the group, and answered (R317). -/
def Agg.setSpares (a : Agg) (g n : Nat) : Agg :=
  if a.tray / 64 ≠ g then a
  else
    let a := a.onU fun u => u.wrN Reg.votSpares n
    a.send a.ctl 1 (.vote (a.voteHead 0 0 0) (.fack 0 0 0 false)) 0

end Sys2Proof.Machine
end

