-- ==== Sys2Proof/Machine/AggScore.lean ====
section
/-! DEFINITION. Scoring on the aggregator (05 R174, R193; 06 R235, R236; 08 R281): what the completion of an entry gives
the Riddle and the drift unit, and where the levels of the verdicts go. -/

namespace Sys2Proof.Machine

/-- The result of a plan and scope for the epoch and scope address of an entry, when it is COMPLETE or PARTIAL (05 R174). -/
def Agg.resultFor (a : Agg) (k : RdxKey) (plan scope : Nat) : Option RdxResult :=
  (a.rdx.results.find? fun x =>
    x.2.key.plan.val == plan && x.2.key.scope.val == scope && decide (x.2.key.addr = k.addr) && decide (x.2.key.epn = k.epn)
      && decide (x.2.status.val < 2)).map Prod.snd

/-- The raw item that the argument of a lane source names (05 R170 SRC 6, R174, R175 reason 9). -/
def Agg.laneRaw (a : Agg) (r : RdxKey) (arg : Nat) : Raw :=
  match a.resultFor r (bitsOf arg 5 0) (bitsOf arg 7 6) with
  | none => .absent 9
  | some x =>
    match x.lanes[bitsOf arg 12 8]? with
    | none => .absent 9
    | some l => match laneItem l (bitsOf arg 25 16) with | some v => .num v | none => .absent 9

/-- Value of a lane of the band plan (06 R236). -/
def Agg.bandLane (a : Agg) (r : RdxKey) (plan lane : Nat) : Option Nat :=
  match a.resultFor r plan r.scope.val with
  | none => none
  | some x => (x.lanes[lane]?).map fun l => (deliverLane l).value.toNat

/-- Load band of the metrics bound to an entry, as the results stand (06 R236). -/
def Agg.bandOf (a : Agg) (sec : List Byte) (r : RdxKey) : Option Nat :=
  let h := driftHead sec
  match a.bandLane r h.plan h.num, a.bandLane r h.plan h.den with
  | some n, some d => loadBand h n d
  | _, _ => none

/-- DRIFT_UPDATE on an aggregator: the band is taken at the update, from what has completed by then (06 R236). -/
def Agg.driftUpdate (a : Agg) (i : Nat) : Agg :=
  match a.u.drf.batches with
  | b :: rest =>
    let band := match b.entry with | some k => a.bandOf b.sec k | none => b.band
    (a.onU fun u => { u with drf := { u.drf with batches := { b with band := band } :: rest } }).onU fun u => u.driftUpdate i
  | [] => a

/-- The results that the features of the active bank name for an entry and that have not completed (05 R174). -/
def Agg.awaits? (a : Agg) (k : RdxKey) : List RdxKey :=
  ((a.u.bank a.u.sco.active).feats.filterMap fun f =>
    let plan := bitsOf f.arg 5 0
    let scope := bitsOf f.arg 7 6
    if f.src = 6 && (a.resultFor k plan scope).isNone then
      if h : plan < 64 ∧ scope < 4 then some ({ k with plan := ⟨plan, h.1⟩, scope := ⟨scope, h.2⟩ } : RdxKey) else none
    else none).eraseDups

/-- LATEVAL: a result that features named completes after their vector was ready (05 R212). One that comes before is no later
for it: the items were taken at the trigger. Mark: DEDUCED (log entry 27, safe). -/
def Agg.lateValue (a : Agg) (r : RdxResult) : Agg :=
  let waits := a.u.sco.vecs.any fun v =>
    !v.ready && decide (v.head.epn = r.key.epn.toNat) && decide (v.head.scopea = r.key.addr.toNat)
  if !a.u.sco.awaited.contains r.key then a
  else a.onU fun u =>
    let u := { u with sco := { u.sco with awaited := u.sco.awaited.filter fun k => decide (k ≠ r.key) } }
    if r.status.val < 2 && !waits then u.err Reg.rdlErr 2 else u

/-- A metric is bound to the entry that completed (06 R233, R235). -/
def boundTo (m : MetD) (r : RdxResult) : Bool :=
  decide (m.src = 6) && decide (bitsOf m.arg 5 0 = r.key.plan.val) && decide (bitsOf m.arg 7 6 = r.key.scope.val)
    && (decide (r.key.scope.val ≠ 0) || decide (bitsOf m.arg 28 26 = bitsOf r.key.addr.toNat 9 7))

/-- An entry completed: a feature vector, the jobs of the ensembles and models that its plan and scope trigger, the
updates of the metrics bound to it (05 R193; 06 R228, R235). -/
def Agg.scoreResult (a : Agg) (r : RdxResult) : Agg :=
  if !a.u.scoRuns then a
  else
    let a := a.lateValue r
    let t := r.key.plan.val + 64 * r.key.scope.val
    let tm := match a.ent? r.key with | some e => (e.time, e.tq) | none => (a.u.tb.now, a.u.tb.tq)
    let time := tm.1
    let h : VecHead :=
      { epn := r.key.epn.toNat, fepn := 0, time := time, tq := tm.2, clkstop := false, step := false
        partialRun := decide (r.status.val = 1), noMain := false, noFast := false, scopea := r.key.addr.toNat }
    let raws := (a.u.bank a.u.sco.active).feats.map fun f => if f.src = 5 then Raw.ratio else a.laneRaw r.key f.arg
    let es := a.u.ensSlots fun e => e.trig == 2 && e.tplan == t
    let ms := a.u.modSlots fun m => m.trig == 2 && m.tplan == t
    let a := if es.isEmpty && ms.isEmpty then a
      else
        let w := a.awaits? r.key
        a.onU fun u =>
          let u := { u with sco := { u.sco with awaited := (w ++ u.sco.awaited).eraseDups.take 1024 } }
          ((u.addVec false false h raws).treeJobs 2 es).denseJobs 2 ms
    let mets := driftMets (a.u.sec 8)
    let due := (List.range mets.length).filterMap fun i =>
      match mets[i]? with
      | some m => if boundTo m r then some (i, a.laneRaw r.key m.arg) else none
      | none => none
    a.onU fun u => u.addBatch h.epn time tm.2 false none (some r.key) due

/-- The results that a command added score their entries. -/
def Agg.scoreNew (a : Agg) (old : List (Nat × RdxResult)) : Agg :=
  ((a.rdx.results.filter fun r => decide (r ∉ old)).map Prod.snd).reverse.foldl Agg.scoreResult a

/-- An output gives its level for a scope address (08 R281): a package's, or the tray's; other scopes give none.
Mark: DEDUCED (log entry 24, unsafe). -/
def Agg.putEns (a : Agg) (key scope addr level : Nat) : Agg :=
  if 2 ≤ scope then a
  else a.onV fun v =>
    { v with ens := (v.ens.filter fun e => !(e.1 == key && e.2.2.1 == addr)) ++ [(key, scope, addr, level)] }

/-- TREE_VERDICT on an aggregator: the verdict, then its level to the dies (08 R281). -/
def Agg.treeDone (a : Agg) : Agg :=
  let b := a.onU Unit.treeDone
  match a.u.sco.runTree with
  | [] => a
  | j :: _ =>
    match a.u.vec? j.vec, (a.u.bank a.u.sco.active).ens? j.slot with
    | some v, some e =>
      if v.bank = a.u.sco.active then
        (b.putEns j.slot (e.tplan / 64) v.head.scopea (slotSt b.u.sco.trees v.bank j.slot).level).voteAll
      else b
    | _, _ => b

/-- Levels of a dense slot's outputs to the dies. -/
def Agg.denseLevels (a : Agg) (v : Vec) (m : Model) : Agg :=
  if v.bank = a.u.sco.active then
    ((List.range m.nout).foldl
      (fun (a : Agg) o =>
        a.putEns (256 + m.slot * 16 + o) (m.tplan / 64) v.head.scopea (slotSt a.u.sco.outs v.bank (m.slot * 16 + o)).level)
      a).voteAll
  else a

/-- Dense jobs that have begun and not yet given their verdict. -/
def Unit.denseOpen (u : Unit) : List Job := u.sco.runDense.toList ++ u.sco.waits.map DenseWait.job

/-- A dense step on an aggregator, and the levels of the verdicts it handed on (08 R281). -/
def Agg.denseStep (a : Agg) (f : Unit → Unit) : Agg :=
  let b := a.onU f
  let gone := a.u.denseOpen.filter fun j => decide (j ∉ b.u.denseOpen)
  gone.foldl (fun (b : Agg) j => match a.u.denseJob? j with | some (v, m) => b.denseLevels v m | none => b) b

/-- Outputs whose Weir state was cleared give no level until their next verdict (05 R200; 08 R281).
Mark: DEDUCED (log entry 24, unsafe). -/
def Agg.ensPrune (a : Agg) : Agg :=
  let act := a.u.sco.active
  let ok := fun (k : Nat) =>
    if k < 256 then (slotSt a.u.sco.trees act k).valid else (slotSt a.u.sco.outs act (k - 256)).valid
  let l := a.vote.ens.filter fun e => ok e.1
  if l.length = a.vote.ens.length then a else (a.onV fun v => { v with ens := l }).voteAll

/-- One port list of GATE (16 R531): to the administrative registers, then armed with the instant of the effect.
Mark: DEDUCED (log entry 22, unsafe). -/
def Agg.gateList (a : Agg) (base : Nat) (c : Content) (g : GateList) : Agg :=
  let p := g.port % 8
  let adm : Tab (Nat × Nat) := (List.range g.ents.length).foldl
    (fun (t : Tab (Nat × Nat)) i => match g.ents[i]? with | some e => Tab.put i e t | none => t) []
  let a := a.onU fun u =>
    let u := u.wrFld Reg.sluAtMode 1 0 g.guardNs p
    let u := u.wrFld Reg.sluAtMode 15 8 g.ovh p
    let u := u.wrN Reg.sluAtAdmnum g.ents.length p
    let u := u.wrN Reg.sluAtAdmbasef (base % 2 ^ 32) p
    (u.wrN Reg.sluAtAdmbases0 (base / 2 ^ 32 % 2 ^ 32) p).wrN Reg.sluAtAdmbases1 (base / 2 ^ 64) p
  let r := (a.setSlu p { a.sluice p with adm := adm }).armList p base
  if r.2 then r.1 else r.1.onU fun u => u.audit 4 c.stamp c.onode 9 0 0 c.digest

/-- GATE lists of content that takes effect (16 R531). Mark: DEDUCED (log entry 22, unsafe). -/
def Agg.gateEffect (a : Agg) (c : Content) : Agg :=
  if (Tab.find 11 c.secs).isNone then a
  else (gateLists (a.u.sec 11)).foldl
    (fun (b : Agg) g => b.gateList (instantOf (b.u.ep.lastMain * b.u.epu)) c g) a

end Sys2Proof.Machine
end

