-- ==== Sys2Proof/Machine/PartsCru.lean ====
section
/-! DEFINITION. The state of the Crucible (17): its own core, timebase, energy state, fuses and log. Plain data. -/

namespace Sys2Proof.Machine

/-- The Crucible. -/
structure Cru where
  /-- CRVDD is up. -/
  powered : Bool
  /-- Ticks since power-up, free values drawn, frequency correction, and the timebase of its own (17, after R553). -/
  clk : Nat
  fresh : Nat
  freq : Word
  tb : Timebase
  /-- Frames sent on CRLINK, oldest first. -/
  out : List Out
  /-- Energy accumulator, units of 0.125 fJ, 112 bits (R556). -/
  acc : BitVec 112
  sampn : BitVec 64
  revcnt : Word
  ovrcnt : Word
  rseq : Word
  /-- u and c of the last sample (R556). -/
  ulast : Int
  clast : Int
  /-- Samples since power-up; of those that the next reading covers: TQ not 0, OVERRANGE. -/
  since : Nat
  lost : Bool
  beyond : Bool
  /-- Last sample out of range (R557). -/
  overNow : Bool
  /-- TQ at the last sample (R563). -/
  lastTq : Nat
  /-- The next reading is the first after power-up. -/
  restart : Bool
  error : Bool
  /-- SEAL and BROKEN fuses (R562). -/
  sealed : Bool
  broken : Bool
  /-- PAR0-PAR7 (R561). -/
  pars : List Word
  /-- SWCRC as last computed (R564). -/
  swcrc : Word
  /-- Log entries made, oldest first (R563). -/
  log : List (List Byte)
  /-- Next entry of the resend cycle. -/
  resend : Nat
  /-- Last reading's payload, to be sent a second time, and the tick of its first sending (R559). -/
  reading : Option (List Byte × Nat)
  /-- Calibration port: bytes of the last answer, and whether the last operation was refused (R562). -/
  resp : List Byte
  nack : Bool
  deriving DecidableEq, Repr

end Sys2Proof.Machine
end

