-- ==== Sys2Proof/Machine/Mailbox.lean ====
section
/-! DEFINITION. Mailboxes and the event recorder's own commands (14_mailbox_recorder): queues, doorbells, timeouts,
side resets, the service requests, buckets, held occurrences, the persistent history, EVREAD and EVCLEAR. -/

namespace Sys2Proof.Machine

/-! ### Channels and sides -/

/-- A side at reset (R492). -/
def side0 : MbxSide := ⟨0x00010001, 0x3E8, 0, 0, 0, 0, 0, 0, [], [], [], false, none⟩

/-- Channels of a part (R470). -/
def mbxChans (p : Part) : Nat := match p with | .die => 8 | .agg => 16

/-- A channel. -/
def Unit.chan (u : Unit) (ch : Nat) : MbxChan := Tab.getD u.mbx.chans ch ⟨side0, side0⟩

/-- Side K or side H of a channel. -/
def MbxChan.get (c : MbxChan) (k : Bool) : MbxSide := if k then c.k else c.h

/-- Replace a side. -/
def MbxChan.set (c : MbxChan) (k : Bool) (s : MbxSide) : MbxChan := if k then { c with k := s } else { c with h := s }

/-- Put a side of a channel back. -/
def Unit.setSide (u : Unit) (ch : Nat) (k : Bool) (s : MbxSide) : Unit :=
  { u with mbx := { u.mbx with chans := Tab.put ch ((u.chan ch).set k s) u.mbx.chans } }

/-- A side of a channel. -/
def Unit.mside (u : Unit) (ch : Nat) (k : Bool) : MbxSide := (u.chan ch).get k

/-- Set a flag at a side. -/
def Unit.mflag (u : Unit) (ch : Nat) (k : Bool) (bit : Nat) : Unit :=
  let s := u.mside ch k
  u.setSide ch k { s with flags := setBit s.flags bit true }

/-- Sender epoch of a side (R479). -/
def Unit.mepoch (u : Unit) (k : Bool) : Nat := if k then u.mbx.epochK else u.mbx.epochH

/-- The bits of a doorbell table as a word. -/
def bitsWord (t : Tab Nat) : Nat := (t.map fun (p : Nat × Nat) => 2 ^ p.1).sum

/-- Live bits of a side: DB bits that DBMASK leaves (R475). -/
def MbxSide.live (s : MbxSide) : Tab Nat := s.db.filter fun (p : Nat × Nat) => !bitAt s.mask p.1

/-- Whether side H of any channel has a live bit (R475). -/
def Unit.liveH (u : Unit) : Bool := u.mbx.chans.any fun c => !c.2.h.live.isEmpty

/-- MB_WAKE falls when no live bit remains on side H of any channel (R475). -/
def Unit.wakeCheck (u : Unit) : Unit := if u.liveH then u else { u with mbx := { u.mbx with wake := false } }

/-- The receiver refuses a push or a doorbell set (R473, R493). -/
def MbxSide.denies (s : MbxSide) (stamp : Word) : Bool :=
  !bitAt s.cfg 0 || decide (fieldOf stamp 15 12 < fieldOf s.cfg 7 4)

/-- A push into the other side's queue (R472, R473). `k` is the sender's side. -/
def Unit.mpush (u : Unit) (ch : Nat) (k : Bool) (w stamp : Word) : Unit :=
  let r := u.mside ch (!k)
  if r.denies stamp then u.mflag ch k 3
  else if r.queue.length ≥ 16 then
    let s := u.mside ch k
    u.setSide ch k { s with flags := setBit s.flags 2 true, fullcnt := satInc s.fullcnt }
  else u.setSide ch (!k) { r with queue := r.queue ++ [⟨w, stamp, u.mepoch k⟩] }

/-- A pop of a side's own queue (R472, R479): the word, 0 when empty. Mark: DEDUCED (log entry 48, unsafe). -/
def Unit.mpop (u : Unit) (ch : Nat) (k : Bool) : Word × Unit :=
  let s := u.mside ch k
  match s.queue with
  | [] => (0, u.mflag ch k 5)
  | w :: q =>
    let differs := match s.lastEpoch with | some e => decide (e ≠ w.epoch) | none => false
    (w.word, u.setSide ch k { s with
      queue := q, lastEpoch := some w.epoch, flags := if differs then setBit s.flags 4 true else s.flags })

/-- The receiver is woken by a live bit (R475): side K of a die unit powers the LAD island, side H asserts MB_WAKE. -/
def Unit.mwake (u : Unit) (k : Bool) : Unit :=
  if k then (if 2 ≤ u.power then (u.wrBit Reg.pwrStat 5 true).wrBit Reg.pwrWakesrc 3 true else u) else { u with mbx := { u.mbx with wake := true } }

/-- A doorbell set by a side (R473-R475). -/
def Unit.mset (u : Unit) (ch : Nat) (k : Bool) (bits : Nat) (stamp : Word) : Unit :=
  let r := u.mside ch (!k)
  let l := bitList bits 32
  if l.isEmpty then u
  else if r.denies stamp then u.mflag ch k 3
  else
    let mark := fun (t : Tab Nat) => l.foldl
      (fun (t : Tab Nat) b => if (Tab.find b t).isSome then t else Tab.put b u.clk t) t
    let r' := { r with db := mark r.db, dbcnt := satAdd r.dbcnt l.length }
    let s := u.mside ch k
    let u := (u.setSide ch (!k) r').setSide ch k { s with pend := mark s.pend }
    if bitAt r'.cfg 16 && l.any (fun b => !bitAt r'.mask b) then u.mwake (!k) else u

/-- Clear PEND bits at a side; a timeout may fire again once none is left (R477). -/
def MbxSide.unpend (s : MbxSide) (p : Nat → Bool) : MbxSide :=
  let q := s.pend.filter fun (x : Nat × Nat) => !p x.1
  { s with pend := q, fired := s.fired && !q.isEmpty }

/-- The receiver acknowledges doorbell bits (R474). -/
def Unit.mack (u : Unit) (ch : Nat) (k : Bool) (bits : Nat) : Unit :=
  let r := u.mside ch k
  let u := u.setSide ch k { r with db := r.db.filter fun (x : Nat × Nat) => !bits.testBit x.1 }
  let u := u.setSide ch (!k) ((u.mside ch (!k)).unpend fun b => bits.testBit b)
  u.wakeCheck

/-- MBX_TIMEOUT: a PEND bit has stayed set for TO µs (R477). -/
def Unit.mtimeout (u : Unit) (ch : Nat) (k : Bool) : Unit :=
  let s := u.mside ch k
  let due := s.pend.any fun (x : Nat × Nat) => decide (usT (fieldOf s.timeout 15 0) ≤ u.since x.2)
  if due && !s.fired then
    u.setSide ch k { s with flags := setBit s.flags 0 true, tocnt := satInc s.tocnt, fired := true }
  else u

/-- One channel at the reset of a side (R478). -/
def MbxChan.reset (c : MbxChan) (k : Bool) : MbxChan :=
  let r := c.get k
  let s := c.get (!k)
  let s := (s.unpend fun b => (Tab.find b r.db).isSome)
  let s := { s with flags := setBit s.flags 1 true, dropcnt := satAdd s.dropcnt r.queue.length }
  (c.set k { r with queue := [], db := [] }).set (!k) s

/-- Reset of a side: its inbound queues and doorbells flush (R478). -/
def Unit.sideReset (u : Unit) (k : Bool) : Unit :=
  let chans := (List.range (mbxChans u.kind)).foldl
    (fun (t : Tab MbxChan) ch => Tab.put ch ((u.chan ch).reset k) t) u.mbx.chans
  let m := { u.mbx with chans := chans }
  { u with mbx := if k then { m with resetK := true } else { m with resetH := true } }.wakeCheck

/-- Release of the reset of a side: its sender epoch advances (R479). -/
def Unit.sideRelease (u : Unit) (k : Bool) : Unit :=
  let m := u.mbx
  { u with mbx := if k then { m with resetK := false, epochK := (m.epochK + 1) % 256 }
                  else { m with resetH := false, epochH := (m.epochH + 1) % 256 } }

/-- Age of the oldest live bit in whole microseconds (R476). -/
def Unit.dbAge (u : Unit) (s : MbxSide) : Nat :=
  min 65535 ((s.live.map fun (x : Nat × Nat) => u.since x.2 / 250).foldl max 0)

/-! ### Service requests -/

/-- Stamp of side K's own writes (R471). -/
def Unit.kStamp (u : Unit) : Word := if u.isDie then 0xF000F000 else 0xF010F000

/-- Pop `n` words of side K's queue. -/
def Unit.mpopN (u : Unit) (ch : Nat) : Nat → List Word × Unit
  | 0 => ([], u)
  | n + 1 =>
    let r := u.mpop ch true
    let t := r.2.mpopN ch n
    (r.1 :: t.1, t.2)

/-- The reply of side K (R481): one word, then doorbell bit 0 of side H. -/
def Unit.mreply (u : Unit) (ch op status : Nat) : Unit :=
  (u.mpush ch true (BitVec.ofNat 32 ((op + 0x80) % 256 * 2 ^ 24 + status)) u.kStamp).mset ch true 1 u.kStamp

/-- A request that side K serves: the header word, the words present, and the unit once they are read and the doorbell
bits cleared (R481); none when no request waits. `ok` picks the OP. Mark: DEDUCED (log entry 48, unsafe). -/
def Unit.mrequest (u : Unit) (ch : Nat) (ok : Nat → Bool) : Option (MbxWord × List Word × Bool × Unit) :=
  let s := u.mside ch true
  if (Tab.find 0 s.db).isNone || u.mbx.resetK || decide (mbxChans u.kind ≤ ch) then none
  else match s.queue with
    | [] => none
    | h :: _ =>
      if !ok (fieldOf h.word 31 24) then none
      else
        let u := (u.mpop ch true).2
        let have' := (u.mside ch true).queue.length
        let nw := fieldOf h.word 23 20
        let r := u.mpopN ch (min nw have')
        some (h, r.1, decide (nw ≤ have'), r.2.mack ch true 0xFFFFFFFF)

/-- POSTEVENT (R481; 02 R87, R88). -/
def Unit.postEvent (u : Unit) (ch : Nat) : Unit :=
  let s := u.mside ch true
  let age := match Tab.find 0 s.db with | some c => u.since c | none => 0
  let delay := if age > 500 then u.dbAge s else 0
  match u.mrequest ch (fun op => op == 1) with
  | none => u
  | some (h, args, full, v) =>
    let code := fieldOf h.word 11 0
    if code < 0xC00 then v.mreply ch 1 2
    else if fieldOf h.word 23 20 > 8 ∨ !full then v.mreply ch 1 3
    else (v.eventAt code args true v.tb.now delay h.stamp h.epoch).mreply ch 1 0

/-- PING (R481). -/
def Unit.ping (u : Unit) (ch : Nat) : Unit :=
  match u.mrequest ch (fun op => op == 2) with
  | none => u
  | some (_, _, full, v) => v.mreply ch 2 (if full then 0 else 3)

/-- Any other request (R481). Mark: DEDUCED (log entry 48, unsafe). -/
def Unit.unknownRequest (u : Unit) (ch : Nat) : Unit :=
  match u.mrequest ch (fun op => op != 1 && op != 2) with
  | none => u
  | some (h, _, full, v) => v.mreply ch (fieldOf h.word 31 24) (if full then 1 else 3)

/-! ### The event recorder -/

/-- BUCKET_REFILL: hall-time multiples of 1 ms passed since the last refill (R483). After a backward step they count
from the time stepped to. -/
def Unit.bucketRefill (u : Unit) : Unit :=
  let ms := timeMs u.tb.now
  let n := ms - u.evr.refillMs
  if ms = u.evr.refillMs then u
  else
    let fill := fun (p : Nat × Nat) =>
      (p.1, min (u.fld Reg.evrAtCfg 15 8 p.1 * 1000) (p.2 + n * u.fld Reg.evrAtCfg 31 16 p.1))
    { u with evr := { u.evr with refillMs := ms, tokens := u.evr.tokens.map fill } }

/-- A write of EVR[sel].CFG fills the bucket again (R483). -/
def Unit.evrCfg (u : Unit) (code : Nat) (v : Word) : Unit :=
  { u.wr Reg.evrAtCfg v code with evr := { u.evr with tokens := Tab.del code u.evr.tokens } }

/-- HELD_EVENT_COMMIT: held occurrences become records as room allows, in ascending code order (R486).
Mark: DEDUCED (log entry 48, unsafe). -/
def Unit.heldEvents (u : Unit) : Unit :=
  u.evr.held.foldl
    (fun (u : Unit) (p : Nat × EvEntry) =>
      let d : Draft := ⟨0x20, p.2.flags % 2, .alarm, p.2.time, p.2.tq, evBytes p.2, none⟩
      match (if u.hostOff then none else u.room .alarm (32 + d.payload.length)) with
      | some sp =>
        let v := u.accept d d.payload false false sp
        { v with evr := { v.evr with held := Tab.del p.1 v.evr.held } }
      | none => u) u

/-- The event entry in the payload of a journaled ALARM-class EVENT record (R488). -/
def parseEv (b : List Byte) (tq : Nat) : EvEntry :=
  { code := leAt b 0 2, flags := leAt b 2 1, args := (wordsOf' (min 8 (leAt b 3 1)) (b.drop 32))
    time := leAt b 4 10, delay := leAt b 14 2, stamp := BitVec.ofNat 32 (leAt b 16 4), sepoch := leAt b 20 1
    src := BitVec.ofNat 24 (leAt b 21 3), supp := leAt b 24 4, nseq := leAt b 28 4, tq := tq }
where
  /-- Argument words. -/
  wordsOf' : Nat → List Byte → List Word
    | 0, _ => []
    | n + 1, b => BitVec.ofNat 32 (leAt b 0 4) :: wordsOf' n (b.drop 4)

/-- A journaled ALARM-class EVENT record of a die unit enters the history (R488).
Mark: DEDUCED (log entry 48, unsafe). -/
def Unit.histRecord (u : Unit) (r : Rec) : Unit :=
  if u.bit Reg.evrCtrl 2 && decide (r.typ = 0x20) && decide (r.classNo = 0) then
    { u with evr := { u.evr with unflushed := u.evr.unflushed ++ [parseEv r.payload (bitsOf r.cls.toNat 7 4)] } }
  else u

/-- Entries that the history keeps: 64 MiB less the sector kept erased (R488). -/
def histCap : Nat := 1047552

/-- Write entries to the history; as many of the oldest sectors of 1,024 entries go as room is needed for (R488). -/
def Unit.histWrite (u : Unit) (l : List EvEntry) : Unit :=
  let h := u.evr.history ++ l
  { u with evr := { u.evr with history := h.drop ((h.length - histCap + 1023) / 1024 * 1024), flushClk := u.clk } }

/-- HISTORY_FLUSH: the unflushed entries are written when R488 says so. A write that fails (`ok` false) sets HISTFAIL and
raises an ALARM; its entries stay unflushed (R489). Mark: DEDUCED (log entry 48, unsafe). -/
def Unit.histFlush (u : Unit) (ok : Bool) : Unit :=
  let l := u.evr.unflushed
  let due := decide (l.length ≥ 64) || decide (u.since u.evr.flushClk ≥ msT (u.fld Reg.evrFlushper 15 0))
    || l.any (fun e => e.flags.testBit 1)
  if u.isAgg && !l.isEmpty && due && !u.inReset 5 then
    if ok then { u with evr := { u.evr with unflushed := [] } }.histWrite l
    else { (u.err Reg.evrErr 3).alarm .histFail with evr := { u.evr with flushClk := u.clk } }
  else u

/-- All unflushed entries are written, before a partition reset of the aggregator acts (R488). -/
def Unit.histFlushAll (u : Unit) : Unit := { u with evr := { u.evr with unflushed := [] } }.histWrite u.evr.unflushed

/-- Power-fail warning: at most the newest 192 entries are written, the others are lost (R489).
Mark: DEDUCED (log entry 59, unsafe). -/
def Unit.histPowerFail (u : Unit) : Unit :=
  let l := u.evr.unflushed
  let lost := l.length - 192
  let u := { u with evr := { u.evr with unflushed := [] } }.histWrite (lastN 192 l)
  if lost = 0 then u else (u.countBy Reg.evrHlostcnt lost).err Reg.evrErr 2

/-- EVREAD: history entries of a range of NSEQ are committed with REPLAY (R491). -/
def Unit.evRead (u : Unit) (first count : Nat) : Unit :=
  (u.evr.history.filter fun e => decide ((e.nseq + 2 ^ 32 - first) % 2 ^ 32 < count)).foldl
    (fun (u : Unit) (e : EvEntry) =>
      u.submit ⟨0x20, e.flags % 2, .record, e.time, e.tq, evBytes { e with flags := e.flags ||| 8 }, none⟩) u

/-- NSEQ of the last entry of a list, 0 when it is empty. -/
def lastNseq (l : List EvEntry) : Nat := match l.getLast? with | some e => e.nseq | none => 0

/-- EVCLEAR: the ring, the history or both are cleared, and EVCLEARED follows (R491). -/
def Unit.evClear (u : Unit) (ring history : Bool) : Unit :=
  let r := if ring then lastNseq u.evr.ring else 0
  let h := if history then lastNseq (u.evr.history ++ u.evr.unflushed) else 0
  let u := { u with evr := { u.evr with
      ring := if ring then [] else u.evr.ring
      history := if history then [] else u.evr.history
      unflushed := if history then [] else u.evr.unflushed } }
  u.event 0x0E0 [BitVec.ofNat 32 (b2n ring + 2 * b2n history), BitVec.ofNat 32 r, BitVec.ofNat 32 h]

/-! ### Registers -/

/-- Peer state shown to a side (R477, R492): 0 up, 1 in reset, 2 asleep, 3 powered down. -/
def Unit.peerState (u : Unit) (k : Bool) : Nat :=
  if (if k then u.mbx.resetH else u.mbx.resetK) then 1
  else if u.isAgg then 0
  else if !k && u.bit Reg.pwrStat 5 then 0
  else if u.power = 2 then 2 else if u.power = 3 then 3 else 0

/-- MBX registers as a side reads them (R492). `k` is the reader's side. -/
def Unit.mbxView (u : Unit) (ofs ch : Nat) (k : Bool) : Option Word :=
  let w := fun (n : Nat) => some (BitVec.ofNat 32 n)
  let s := u.mside ch k
  let o := u.mside ch (!k)
  let n := mbxChans u.kind
  let beyond := fun (p : MbxSide → Bool) => ((List.range n).map fun c => if p (u.mside c k) then 2 ^ c else 0).sum
  if ofs = Reg.mbxStat then w (beyond (fun x => !x.live.isEmpty) + 65536 * beyond (fun x => decide (x.flags ≠ 0)))
  else if ofs = Reg.mbxEpoch then w (u.mepoch k + 256 * u.mepoch (!k))
  else if ofs = Reg.mbxAtCfg then some (if k then setFld s.cfg 13 8 0 else s.cfg)
  else if ofs = Reg.mbxAtTxstat then w (o.queue.length + 256 * u.peerState k)
  else if ofs = Reg.mbxAtPend then w (bitsWord s.pend)
  else if ofs = Reg.mbxAtTo then some s.timeout
  else if ofs = Reg.mbxAtFlags then some s.flags
  else if ofs = Reg.mbxAtDropcnt then some s.dropcnt
  else if ofs = Reg.mbxAtFullcnt then some s.fullcnt
  else if ofs = Reg.mbxAtRxdata then some (match s.queue with | x :: _ => x.word | [] => 0)
  else if ofs = Reg.mbxAtRxstamp then some (match s.queue with | x :: _ => x.stamp | [] => 0)
  else if ofs = Reg.mbxAtRxstat then
    w (s.queue.length + (match s.queue with | x :: _ => 256 * x.epoch | [] => 0))
  else if ofs = Reg.mbxAtDb then w (bitsWord s.db)
  else if ofs = Reg.mbxAtDbmask then some s.mask
  else if ofs = Reg.mbxAtDbage then w (u.dbAge s)
  else if ofs = Reg.mbxAtDbcnt then some s.dbcnt
  else if ofs = Reg.mbxAtTocnt then some s.tocnt
  else none

/-- A write of MBX registers other than pushes and doorbells (R492, R493). -/
def Unit.mbxWrite (u : Unit) (ofs ch : Nat) (k : Bool) (v : Word) : Unit :=
  let s := u.mside ch k
  if ofs = Reg.mbxAtCfg then
    let irq := fieldOf v 13 8
    if !k && u.isDie && decide (irq > 7) then u.accErr
    else u.setSide ch k { s with cfg := v &&& (if k then 0x000100F1 else 0x00013FF1) }
  else if ofs = Reg.mbxAtTo then
    if fieldOf v 15 0 = 0 then u.accErr else u.setSide ch k { s with timeout := v &&& 0xFFFF }
  else if ofs = Reg.mbxAtDbmask then (u.setSide ch k { s with mask := v }).wakeCheck
  else if ofs = Reg.mbxAtFlags then u.setSide ch k { s with flags := s.flags &&& ~~~v }
  else u

/-- Clear an RC counter of a side after a read. -/
def Unit.mbxClear (u : Unit) (ofs ch : Nat) (k : Bool) : Unit :=
  let s := u.mside ch k
  if ofs = Reg.mbxAtDropcnt then u.setSide ch k { s with dropcnt := 0 }
  else if ofs = Reg.mbxAtFullcnt then u.setSide ch k { s with fullcnt := 0 }
  else if ofs = Reg.mbxAtDbcnt then u.setSide ch k { s with dbcnt := 0 }
  else if ofs = Reg.mbxAtTocnt then u.setSide ch k { s with tocnt := 0 }
  else u

/-- The interrupt of a side of a channel is asserted (R475): the line or vector it drives. -/
def Unit.mbxIrq (u : Unit) (ch : Nat) (k : Bool) : Option Nat :=
  let s := u.mside ch k
  if s.live.isEmpty then none else some (if k then 0 else fieldOf s.cfg 13 8)

/-- EVR registers that the recorder holds (R494). -/
def Unit.evrView (u : Unit) (ofs inst : Nat) : Option Word :=
  let w := fun (n : Nat) => some (BitVec.ofNat 32 n)
  if ofs = Reg.evrStat then w (u.evr.ring.length + 65536 * b2n (!u.evr.unflushed.isEmpty && u.isAgg))
  else if ofs = Reg.evrNseq then w u.evr.nseq
  else if ofs = Reg.evrHfirst then w (match u.evr.history with | e :: _ => e.nseq | [] => 0)
  else if ofs = Reg.evrHlast then w (lastNseq u.evr.history)
  else if Reg.evrRd ≤ ofs ∧ ofs < Reg.evrRd + 64 then
    w (match u.evr.ring[u.fld Reg.evrRingidx 11 0]? with
       | some e => leAt (evBytes e) (ofs - Reg.evrRd) 4
       | none => 0)
  else if ofs = Reg.evrAtTokens then w (u.evTokens inst)
  else none

end Sys2Proof.Machine
end

