-- ==== Sys2Proof/Machine/PatternLoad.lean ====
section
/-! DEFINITION. Loading of patterns, inserts and firmware (16 R516-R536): the container, the checks of R524 with the
content checks that each section's own chapter states, placement in the shadow bank (05 R188, R203), the two load
paths (R533, R534), and the effect of verified content at its main latch (R532). -/

namespace Sys2Proof.Machine

/-- The STYPE of each section in ascending order (16 R522). -/
def styps : List Nat := [1, 2, 3, 4, 5, 6, 7, 8, 9, 10, 11]

/-- A section type of a pattern or insert allowed for a target (16 R522). -/
def stypeFor (die : Bool) (t : Nat) : Bool :=
  if die then decide (1 ≤ t) && decide (t ≤ 10) else decide (3 ≤ t) && decide (t ≤ 11) && decide (t ≠ 10)

/-- Every byte is 0. -/
def allZero (b : List Byte) : Bool := b.all fun x => x == 0

/-- Numbers rise strictly. -/
def rising : List Int → Bool
  | a :: b :: t => decide (a < b) && rising (b :: t)
  | _ => true

/-- No number occurs twice. -/
def noRepeat (l : List Nat) : Bool := decide l.Nodup

/-! ### Certificates and the container -/

/-- The public key of a certificate (16 R517). -/
def certKey (c : List Byte) : Nat := leAt c 0x24 96

/-- OWNERID of an operator certificate (16 R517). -/
def certOwner (c : List Byte) : Nat := leAt c 8 8

/-- A certificate is valid as an operator certificate (16 R517). -/
def operatorCert (c : List Byte) : Bool :=
  decide (c.length = 240) && decide (leAt c 0 4 = 0x54435A4B) && decide (leAt c 4 1 = 1) && decide (leAt c 5 1 = 5)
    && allZero (slice c 6 2) && allZero (slice c 0x10 8) && allZero (slice c 0x22 2) && allZero (slice c 0x84 12)
    && Config.sigValid (Config.romKey 0) (Config.sha384 (c.take 0x90)) (slice c 0x90 96)

/-- An entry of a section table (16 R522). -/
structure SecRow where
  styp : Nat
  sver : Nat
  ofs : Nat
  len : Nat
  zeros : Bool
  deriving DecidableEq, Repr

/-- A container as its header reads (16 R521). -/
structure Cont where
  bytes : List Byte
  target : Nat
  kind : Nat
  arb : Nat
  cert : Bool
  totlen : Nat
  certofs : Nat
  eff : Nat
  base : Nat
  rows : List SecRow
  deriving DecidableEq, Repr

/-- Read a container's header and table. -/
def parseCont (b : List Byte) : Cont :=
  { bytes := b, target := leAt b 6 1, kind := leAt b 7 1, arb := leAt b 8 4, cert := (leAt b 12 1).testBit 0
    totlen := leAt b 0x10 4, certofs := leAt b 0x14 4, eff := leAt b 0x18 8, base := leAt b 0x20 48
    rows := (chunksOf 16 (leAt b 13 1) (b.drop 0x50)).map fun (r : List Byte) =>
      ⟨leAt r 0 1, leAt r 1 1, leAt r 4 4, leAt r 8 4, allZero (slice r 2 2) && allZero (slice r 12 4)⟩ }

/-- Firmware containers. -/
def Cont.isFw (c : Cont) : Bool := decide (c.kind ≥ 2)

/-- SHA-384 of the signed bytes (16 R522). -/
def Cont.digest (c : Cont) : Digest := Config.sha384 (c.bytes.take (c.totlen - 96))

/-- The certificate that the container carries. -/
def Cont.certBytes (c : Cont) : List Byte := slice c.bytes c.certofs 240

/-- The sections by STYPE. -/
def Cont.secs (c : Cont) : Tab Section :=
  c.rows.foldl (fun (t : Tab Section) r => Tab.put r.styp ⟨r.sver, slice c.bytes r.ofs r.len⟩ t) []

/-- Check 1, FORMAT (16 R524, R521). -/
def Cont.formatOk (c : Cont) : Bool :=
  let b := c.bytes
  decide (b.length ≥ 176) && decide (leAt b 0 4 = 0x54505A4B) && decide (leAt b 4 2 = 1) && decide (c.kind ≤ 3)
    && decide (leAt b 12 1 < 2) && decide (leAt b 13 1 ≤ 11) && allZero (slice b 14 2) && decide (c.totlen = b.length)
    && (c.cert || decide (c.certofs = 0)) && (decide (c.kind = 1) || decide (c.base = 0))
    && (!c.isFw || decide (c.arb ≤ 64))

/-- Check 8, TABLE (16 R522, R524). -/
def Cont.tableOk (c : Cont) (die : Bool) : Bool :=
  let lim := if c.cert then min c.certofs (c.totlen - 96) else c.totlen - 96
  let first := 0x50 + 16 * c.rows.length
  let ends := first :: c.rows.map fun r => r.ofs + r.len
  c.rows.all (fun r => r.zeros && decide (r.ofs % 8 = 0) && decide (r.ofs + r.len ≤ lim)
      && (if c.isFw then decide (r.styp = 0x20) else stypeFor die r.styp))
    && ((c.rows.zip ends).all fun (p : SecRow × Nat) => decide (p.2 ≤ p.1.ofs))
    && (if c.isFw then decide (c.rows.length = 1) && (decide (c.kind = 2) == die)
        else noRepeat (c.rows.map SecRow.styp))

/-! ### Content checks of the sections -/

/-- The sections that stand behind a check: those of the container, the others as in force. -/
structure Whole where
  die : Bool
  secs : Tab Section
  epfu : Nat

/-- Bytes of a section; empty where absent. -/
def Whole.sec (w : Whole) (t : Nat) : List Byte := match Tab.find t w.secs with | some s => s.bytes | none => []

/-- The section's head, its count and its length are right (16 R527). -/
def headOk (b : List Byte) (count body : Nat) : Bool :=
  allZero (slice b 2 6) && decide (secCount b = count) && decide (b.length = 8 + body)

/-- The format that a sensor channel admits (03 R98, R112). -/
def fmtFits (ch fmt : Nat) : Bool :=
  if ch < 64 then fmt == 1 else if ch < 128 then fmt == 0 else if ch < 224 then fmt == 2 else fmt == 3 || fmt == 4

/-- TAP (16 R528). -/
def tapOk (b : List Byte) : Bool :=
  headOk b 256 2048 && (List.range 256).all fun ch => fmtFits ch (fieldOf (tapSensor b ch) 11 8)

/-- A half of SRC0 or SRC1 names an event line, a value bus (16 R529). -/
def CntEnt.half (e : CntEnt) (k : Nat) : Nat :=
  if k = 0 then fieldOf e.src0 15 0 else if k = 1 then fieldOf e.src0 31 16
  else if k = 2 then fieldOf e.src1 15 0 else fieldOf e.src1 31 16

/-- An enabled counter entry (03 R95, R127; 16 R529). -/
def CntEnt.ok (e : CntEnt) : Bool :=
  let m := e.mode
  let line := fun k => decide (e.half k ≤ 16383)
  let bus := decide (e.half 0 ≤ 255)
  if m = 0 ∨ m = 1 then line 0
  else if m = 2 then
    decide (fieldOf e.cfg 27 26 ≠ 3) && decide (fieldOf e.cfg 25 24 ≠ 3)
      && (List.range (2 + fieldOf e.cfg 25 24)).all line
  else if m = 3 then line 0 && line 1
  else if m = 4 then bus && (!bitAt e.cfg 23 || line 1)
  else if m = 7 then false
  else bus

/-- CNT (16 R529). -/
def cntOk (b : List Byte) : Bool :=
  let t := cntTail b
  let ng := leAt t 2 2
  let nf := leAt t 1 1
  let on := (cntOn b).map CntEnt.idx
  let snap := cntSnapSet b
  let fast := cntFastSet b
  headOk b 2048 (24576 + 8 + 2 * ng + 2 * nf) && (cntOn b).all CntEnt.ok && decide (ng ≤ 1696) && decide (nf ≤ 64)
    && decide (4 ≤ cntMainSlots b) && decide (cntMainSlots b ≤ 15) && allZero (slice t 4 4)
    && snap.all (fun i => on.contains i) && noRepeat snap && noRepeat fast
    && fast.all (fun i => decide (i ≥ 2048) || on.contains i)
    && (wordsOf 2 nf (t.drop (8 + 2 * ng))).all fun w =>
        if w.testBit 15 then decide (w % 32768 ≤ 63) else decide (w ≤ 2047)

/-- DOM that 05 R170 states for a source kind and argument. -/
def domFits (src arg dom : Nat) : Bool :=
  if src = 3 then (if arg < 64 then dom == 1 else if arg < 128 then dom == 0 else dom == 2)
  else if src = 5 then dom == 2 else if src = 6 then decide (dom ≤ 2) else dom == 1

/-- ARG of a source kind of the die unit (05 R170). -/
def argFits (src arg : Nat) : Bool :=
  if src = 0 then decide (arg ≤ 2047) else if src = 1 ∨ src = 2 then decide (arg ≤ 63)
  else if src = 3 then decide (arg ≤ 255) else decide (arg ≤ 15)

/-- A feature entry (05 R169, R170). -/
def featOk (die : Bool) (i : Nat) (raw : List Byte) : Bool :=
  let f := parseFeat raw
  let arg := if f.src = 5 then decide (f.arg % 256 < i) && decide (bitsOf f.arg 15 8 < i) && decide (f.arg < 65536)
    else if f.src = 6 then !die && decide (bitsOf f.arg 15 13 = 0) && decide (f.arg < 2 ^ 26)
    else die && argFits f.src f.arg
  decide (f.src ≤ 6) && arg && domFits f.src f.arg f.dom && decide (f.missing ≤ f.ncuts)
    && decide (f.shift ≤ (if f.src = 3 ∨ f.src = 5 then 0 else 31))
    && decide (leAt raw 5 1 ≤ (if f.src = 6 then 1 else 0)) && (decide (f.src = 3) || decide (f.maxage = 0))
    && allZero (slice raw 12 4)

/-- Every element with its index satisfies `p`. -/
def allIx {α : Type} (p : Nat → α → Bool) (i : Nat) : List α → Bool
  | [] => true
  | x :: t => p i x && allIx p (i + 1) t

/-- FEAT and CUT (05 R169, R170, R177). -/
def featsOk (w : Whole) : Bool :=
  let fb := w.sec 3
  let cb := w.sec 4
  let n := secCount fb
  let fs := (chunksOf 16 n (secBody fb)).map parseFeat
  let tot := (fs.map Feat.ncuts).sum
  let bank : Bank := ⟨w.secs, []⟩
  (fb.isEmpty || (headOk fb n (16 * n) && decide (n ≤ 256) && allIx (featOk w.die) 0 (chunksOf 16 n (secBody fb))))
    && (if cb.isEmpty then decide (tot = 0) else headOk cb tot (4 * tot))
    && allIx (fun i (f : Feat) => rising ((bank.cuts i).map (domValue f.dom))) 0 fs

/-- Bounds of an entry for field `f` (05 R187). -/
def boundsOk (t : TreeD) (lohi : List Nat) : Bool :=
  (List.range 10).all fun f =>
    let lo := lohi.getD f 0 % 16
    let hi := lohi.getD f 0 / 16
    let n := if f < t.nf then t.nthr.getD f 0 else 0
    decide (lo ≤ n) && decide (hi ≤ n) && (decide (lo = 0) || decide (hi = 0) || decide (lo < hi))

/-- A tree descriptor (05 R186, R187). -/
def treeOk (feats : List Feat) (t : TreeD) : Bool :=
  let used := t.fidx.take t.nf
  decide (1 ≤ t.nf) && decide (t.nf ≤ 10) && decide (t.depth ≤ 8) && decide (1 ≤ t.nleaf)
    && decide (t.nleaf ≤ 2 ^ t.depth) && noRepeat used && used.all (fun f => decide (f < feats.length))
    && (t.fidx.drop t.nf).all (fun x => x == 0) && (t.nthr.drop t.nf).all (fun x => x == 0)
    && t.nthr.all (fun x => decide (x ≤ 15))
    && (List.range 10).all fun f =>
        let n := t.nthr.getD f 0
        let th := t.thr.getD f []
        let nc := match feats[t.fidx.getD f 0]? with | some x => x.ncuts | none => 0
        rising ((th.take n).map Int.ofNat) && (th.take n).all (fun x => decide (1 ≤ x) && decide (x ≤ nc))
          && (th.drop n).all fun x => x == 0

/-- Thresholds lie in order and in 40 bits (05 R187, 06 R220). -/
def thresholdsOk (t : List Int) : Bool :=
  t.all (fun x => decide (-(2 ^ 39 : Int) ≤ x) && decide (x < (2 ^ 39 : Int)))
    && decide (t.getD 0 0 ≤ t.getD 1 0) && decide (t.getD 1 0 ≤ t.getD 2 0)

/-- TRIG suits the part (05 R185, 06 R218). -/
def trigOk (die : Bool) (trig tplan : Nat) : Bool := if die then decide (trig ≤ 1) && decide (tplan = 0) else trig == 2

/-- An ensemble (05 R185, R187). -/
def ensOk (die : Bool) (feats : List Feat) (e : Ens) : Bool :=
  decide (e.slot < (if die then 8 else 32)) && trigOk die e.trig e.tplan && decide (e.flags < 4)
    && decide (1 ≤ e.ntrees) && decide (e.ntrees ≤ 512) && decide (1 ≤ e.nent) && decide (e.nent ≤ storeSize (if die then .die else .agg))
    && decide ((e.trees.map TreeD.nleaf).sum = e.nent) && e.trees.all (treeOk feats) && thresholdsOk e.t
    && (e.rise ++ e.fall).all (fun x => decide (1 ≤ x))
    && e.trees.all fun t => ((e.ents.drop t.first).take t.nleaf).all (boundsOk t)

/-- Zero bytes of the TREE section: header tail, descriptor tails, entry tails (05 R185, R186). -/
def treeZeros : Nat → List Byte → Bool
  | 0, _ => true
  | n + 1, b =>
    let nt := leAt b 8 2
    let ne := leAt b 10 2
    allZero (slice b 46 6) && (chunksOf 176 nt (b.drop 52)).all (fun t => allZero (slice t 174 2))
      && (chunksOf 12 ne (b.drop (52 + 176 * nt))).all (fun x => allZero (slice x 10 2))
      && treeZeros n (b.drop (52 + 176 * nt + 12 * ne))

/-- TREE and LEAF (05 R185-R187). -/
def treesOk (w : Whole) : Bool :=
  let tb := w.sec 5
  let lb := w.sec 6
  let bank : Bank := ⟨w.secs, []⟩
  let es := bank.ensembles
  let tot := (es.map Ens.nent).sum
  let n := secCount tb
  (tb.isEmpty || (headOk tb n ((es.map fun e => 52 + 176 * e.ntrees + 12 * e.nent).sum) && treeZeros n (secBody tb)))
    && (if lb.isEmpty then decide (tot = 0) else headOk lb tot (4 * tot))
    && (wordsOf 4 tot (secBody lb)).all (fun x => decide (sext 32 x = sext 24 x))
    && es.all (ensOk w.die bank.feats) && noRepeat (es.map Ens.slot)
    && decide (((es.filter fun e => e.trig == 1).map Ens.ntrees).sum ≤ 256)

/-- An output descriptor (06 R219, R220). -/
def outOk (es : List Ens) (m : Model) (o : DOut) : Bool :=
  let joint := decide (o.comb = 1) || decide (o.comb = 2)
  decide (o.comb ≤ 2) && (if joint then
      o.weir && (match es.find? fun e => e.slot == o.partner with
        | some e => e.trig == m.trig && e.tplan == m.tplan
        | none => false)
    else decide (o.partner = 0))
    && o.t.all (fun x => decide (-(2 ^ 39 : Int) ≤ x) && decide (x < (2 ^ 39 : Int)))
    && ((o.rise ++ o.fall).all fun x => decide (1 ≤ x)) && (!o.weir || thresholdsOk o.t)

/-- Int32 within ±2^30, and a shift of at most 63 (06 R219, R220). -/
def DHid.ok (h : DHid) : Bool :=
  decide (-(2 ^ 30 : Int) ≤ h.bias) && decide (h.bias ≤ (2 ^ 30 : Int)) && decide (h.sh ≤ 63)

/-- A dense model (06 R217-R220). -/
def modelOk (die : Bool) (feats : List Feat) (es : List Ens) (m : Model) : Bool :=
  decide (m.slot < (if die then 4 else 8)) && trigOk die m.trig m.tplan && decide (m.flags < 4)
    && decide (1 ≤ m.nin) && decide (m.nin ≤ 256) && decide (m.nhid ≤ 128) && decide (1 ≤ m.nout)
    && decide (m.nout ≤ 16) && m.ins.all (fun i => decide (i.fidx < feats.length) && decide (i.shi ≤ 63))
    && m.hid.all DHid.ok && m.outs.all (fun o => o.q.ok && outOk es m o)

/-- Zero bytes and the WEIR byte of the DENSE section (06 R218, R219). -/
def denseZeros : Nat → List Byte → Bool
  | 0, _ => true
  | n + 1, b =>
    let nin := leAt b 8 2
    let nh := leAt b 10 2
    let no := leAt b 12 1
    let bi := b.drop 32
    let bh := bi.drop (8 * nin)
    let bo := bh.drop (12 * nh)
    allZero (slice b 13 19) && (chunksOf 8 nin bi).all (fun x => allZero (slice x 3 1))
      && (chunksOf 12 nh bh).all (fun x => allZero (slice x 9 3))
      && (chunksOf 48 no bo).all (fun x => allZero (slice x 42 6) && decide (leAt x 11 1 ≤ 1))
      && denseZeros n (b.drop (modelLen nin nh no))

/-- DENSE (06 R217-R220). -/
def denseOk (w : Whole) : Bool :=
  let b := w.sec 7
  let bank : Bank := ⟨w.secs, []⟩
  let ms := bank.models
  b.isEmpty || (headOk b ms.length ((ms.map fun m => modelLen m.nin m.nhid m.nout).sum)
    && decide (b.length ≤ (if w.die then 49152 else 196608)) && denseZeros ms.length (secBody b)
    && ms.all (modelOk w.die bank.feats bank.ensembles) && noRepeat (ms.map Model.slot))

/-- Source and argument of a metric (06 R233, R234). -/
def metSrcOk (die : Bool) (d : MetD) : Bool :=
  if d.src = 6 then !die && decide (bitsOf d.arg 15 13 = 0) && decide (d.arg < 2 ^ 29) && decide (bitsOf d.arg 27 26 ≤ 3)
  else die && decide (d.src ≤ 4) && argFits d.src d.arg

/-- The sensor type of a margin class (06 R234). -/
def mclassOk (d : MetD) : Bool :=
  d.mclass == 0 || (d.src == 3 && (if d.mclass = 1 then decide (d.arg < 64)
    else if d.mclass = 2 then decide (64 ≤ d.arg) && decide (d.arg < 128) else decide (224 ≤ d.arg)))

/-- A metric descriptor (06 R233, R234). -/
def metOk (die : Bool) (raw : List Byte) : Bool :=
  let d := parseMet raw
  metSrcOk die d && domFits d.src d.arg d.dom && decide (d.shift ≤ 31)
    && decide (leAt raw 3 1 < 128) && (d.src == 6 || !d.lsigned) && mclassOk d && decide (1 ≤ d.k) && decide (d.k ≤ 16)
    && decide (1 ≤ d.caln) && decide (d.slack < (2 ^ 31 : Int)) && decide (1 ≤ d.limit)
    && decide (d.limit < (2 ^ 31 : Int)) && (d.src == 3 || decide (d.maxage = 0))
    && (d.pband || decide (d.pbidx = 0xFFFF)) && allZero (slice raw 9 1) && allZero (slice raw 28 4)

/-- DRIFT (06 R232-R234). -/
def driftOk (die : Bool) (b : List Byte) : Bool :=
  let h := driftHead b
  let raws := chunksOf 32 h.nmet ((secBody b).drop 32)
  let tables := (b.length - 8 - 32 - 32 * h.nmet) / 40
  b.isEmpty || (headOk b h.nmet (32 + 32 * h.nmet + 40 * tables) && decide (h.nmet ≤ 1024)
    && rising (h.cuts.map Int.ofNat) && h.cuts.all (fun c => decide (1 ≤ c)) && decide (1 ≤ h.eng)
    && (if die then decide (h.plan = 0) && decide (h.num = 0) && decide (h.den = 0)
        else decide (h.plan ≤ 63) && decide (h.num ≤ 31) && decide (h.den ≤ 31))
    && allZero (slice (secBody b) 20 12) && raws.all (metOk die)
    && ((List.range tables).all fun i => allZero (slice (secBody b) (32 + 32 * h.nmet + 40 * i + 33) 7))
    && (driftMets b).all (fun d => !d.pband || decide (d.pbidx < tables)))

/-- Index range of a lane's source (04 R135). -/
def laneSrcOk (d : LaneD) : Bool :=
  let e := d.start + d.nm1
  if d.src = 0 then decide (e ≤ 2047) else if d.src = 1 ∨ d.src = 2 then decide (e ≤ 63)
  else if d.src = 3 then decide (e ≤ 255) else if d.src = 5 then decide (d.start = 0)
  else decide (d.src ≤ 6) && decide (e = 0)

/-- A lane descriptor (04 R133, R135, R139). -/
def laneOk (raw : Nat) : Bool :=
  let d := parseLaneD raw
  decide (d.op ≤ 11) && (d.op == 9 || decide (d.km1 = 0)) && laneSrcOk d && !raw.testBit 19 && decide (raw < 2 ^ 48)

/-- The first three lanes of a straggler plan (04 R163). -/
def stragLanesOk (l : List LaneD) : Bool :=
  match l with
  | a :: b :: c :: _ =>
    a.op == 3 && a.src == 4 && b.op == 9 && b.src == 4 && a.phase == b.phase && c.op == 3 && c.src == 6
  | _ => false

/-- Deadlines rise up to the plan's scope (04 R132). -/
def deadlinesOk (p : Plan) : Bool :=
  let d := fun i => p.dl.getD i 0
  p.dl.all (fun x => decide (1 ≤ x)) && (decide (p.scope < 1) || decide (d 0 < 10 * d 1))
    && (decide (p.scope < 2) || decide (d 1 < d 2)) && (decide (p.scope < 3) || decide (d 2 < d 3))

/-- A plan (04 R131-R135, R163). -/
def planOk (epfu : Nat) (p : Plan) : Bool :=
  decide (p.id ≤ 63) && decide (1 ≤ p.lanes.length) && decide (p.lanes.length ≤ 32)
    && decide (leAt p.head 3 1 < 32) && decide (1 ≤ p.every) && decide (120 ≤ p.lofs) && deadlinesOk p
    && (if p.strag then decide (1 ≤ p.sk) && decide (p.sk ≤ 32) && decide (p.sk ≤ p.sn) && decide (p.sn ≤ 32)
          && stragLanesOk p.lanes
        else decide (p.sthr = 0) && decide (p.sk = 0) && decide (p.sn = 0))
    && allZero (slice p.head 22 2) && decide (p.frameSize ≤ 8704)
    && (decide (p.trig = 0) || decide (p.lofs < 10000 * epfu))

/-- The lane words of `n` plans. -/
def planLaneWords : Nat → List Byte → List Nat
  | 0, _ => []
  | n + 1, b =>
    let nl := leAt b 2 1
    wordsOf 8 nl (b.drop 24) ++ planLaneWords n (b.drop (24 + 8 * nl))

/-- PLAN (04 R130-R135): up to 64 plans, each number at most once. Mark: DEDUCED (log entry 24, unsafe). -/
def plansOk (epfu : Nat) (b : List Byte) : Bool :=
  let ps := planList b
  b.isEmpty || (headOk b ps.length ((ps.map fun p => 24 + 8 * p.lanes.length).sum) && ps.all (planOk epfu)
    && decide (ps.length ≤ 64) && decide (ps.map fun p => p.id).Nodup && (planLaneWords (secCount b) (secBody b)).all laneOk)

/-- An item of a record layout lies within its image (16 R530). -/
def itemOk (fast : Bool) (w : Word) : Bool :=
  let e := fieldOf w 11 0 + fieldOf w 23 12
  let k := fieldOf w 27 24
  decide (fieldOf w 31 28 = 0) &&
    (if k = 0 then decide (e ≤ (if fast then 64 else 256))
     else if k = 1 then !fast && decide (e ≤ 64) else if k = 2 then !fast && decide (e ≤ 256)
     else if k = 3 then !fast && decide (e ≤ 1696) else decide (k = 4) && fast && decide (e ≤ 64))

/-- RECFMT (16 R530). -/
def recfmtOk (b : List Byte) : Bool :=
  let m := recfmtItems b false
  let f := recfmtItems b true
  b.isEmpty || (headOk b 2 (8 + 4 * m.length + 4 * f.length) && decide (m.length ≤ 64) && decide (f.length ≤ 64)
    && allZero (slice b 10 2) && allZero (slice b (8 + 4 + 4 * m.length + 2) 2)
    && m.all (itemOk false) && f.all (itemOk true))

/-- The port lists of GATE in raw form: ports that exist, a GUARD that SLU[sel].MODE takes, bytes that are 0, masks of five
bits (16 R531; 11 R414). -/
def gateRawOk : Nat → List Byte → Bool
  | 0, _ => true
  | n + 1, b =>
    let k := leAt b 8 2
    decide (leAt b 0 1 < 8) && decide (leAt b 1 1 ≤ 2) && allZero (slice b 3 1) && allZero (slice b 10 2)
      && ((chunksOf 8 k (b.drop 12)).all fun e => decide (leAt e 0 4 < 32)) && gateRawOk n (b.drop (12 + 8 * k))

/-- GATE (16 R531). Mark: DEDUCED (log entry 24, unsafe). -/
def gateOk (b : List Byte) : Bool :=
  let l := gateLists b
  b.isEmpty || (headOk b l.length ((l.map fun g => 12 + 8 * g.ents.length).sum) && decide (l.length ≤ 8)
    && gateRawOk (secCount b) (secBody b))

/-- Check 9, SECTION: the content checks of each section that the container brings; the sections of a model set are
checked together, with those that the insert leaves in place. -/
def sectionsOk (w : Whole) (brings : Nat → Bool) : Bool :=
  (!brings 1 || tapOk (w.sec 1)) && (!brings 2 || cntOk (w.sec 2))
    && (!(styps.any fun t => banked t && brings t) || (featsOk w && treesOk w && denseOk w))
    && (!brings 8 || driftOk w.die (w.sec 8)) && (!brings 9 || plansOk w.epfu (w.sec 9))
    && (!brings 10 || recfmtOk (w.sec 10)) && (!brings 11 || gateOk (w.sec 11))

/-! ### Placement -/

/-- Ranges of entries that a bank's ensembles occupy. -/
def Bank.ranges (b : Bank) : List (Nat × Nat) :=
  b.ensembles.map fun e => (Tab.getD b.base e.slot 0, e.nent)

/-- A range of `n` entries at `s` is free and within the store. -/
def rangeFree (size : Nat) (used : List (Nat × Nat)) (s n : Nat) : Bool :=
  decide (s + n ≤ size) && used.all fun (r : Nat × Nat) => decide (s + n ≤ r.1) || decide (r.1 + r.2 ≤ s)

/-- Lowest free range of `n` entries (05 R188): it starts at 0 or at the end of an occupied range. -/
def lowestRange (size : Nat) (used : List (Nat × Nat)) (n : Nat) : Option Nat :=
  ((0 :: used.map fun r => r.1 + r.2).filter fun s => rangeFree size used s n).foldl
    (fun (m : Option Nat) s => match m with | some x => some (min x s) | none => some s) none

/-- Place the ensembles of a bank in ascending slot order (05 R188). -/
def placeEns (size : Nat) : List Ens → List (Nat × Nat) → Tab Nat → Option (Tab Nat)
  | [], _, t => some t
  | e :: l, used, t =>
    match lowestRange size used e.nent with
    | none => none
    | some s => placeEns size l ((s, e.nent) :: used) (Tab.put e.slot s t)

/-- The ensembles of a bank in ascending slot order. -/
def Bank.bySlot (b : Bank) : List Ens := ((List.range 32).map fun s => b.ens? s).filterMap id

/-- The shadow bank that a container makes, or none where no range fits. -/
def Unit.placeBank (u : Unit) (secs : Tab Section) : Option Bank :=
  let b : Bank := ⟨secs, []⟩
  (placeEns (storeSize u.kind) b.bySlot (u.bank u.sco.active).ranges []).map fun t => ⟨secs, t⟩

/-! ### Verification -/

/-- The sections of the kept part of the pattern that stand beside a container: all of the container's for a full
pattern; the others as in force for an insert. -/
def Unit.whole (u : Unit) (c : Cont) : Whole :=
  let keep := if c.kind = 1 then
      styps.foldl (fun (t : Tab Section) n => match u.section? n with | some s => Tab.put n s t | none => t) []
    else []
  ⟨u.isDie, c.rows.foldl (fun (t : Tab Section) r => Tab.put r.styp ⟨r.sver, slice c.bytes r.ofs r.len⟩ t) keep,
    u.epfu⟩

/-- The container names a section type; a full pattern names every one (16 R525). -/
def Cont.brings (c : Cont) (t : Nat) : Bool := c.kind == 0 || c.rows.any fun r => r.styp == t

/-- The container has scoring sections. -/
def Cont.scoring (c : Cont) : Bool := styps.any fun t => banked t && c.brings t

/-- Key that verifies a container (16 R522); none where no operator key is known. -/
def Unit.contKey (u : Unit) (c : Cont) : Option Nat :=
  if c.isFw then some (Config.romKey 1)
  else if c.cert then some (certKey c.certBytes)
  else if u.pat.cert.isEmpty then none else some (certKey u.pat.cert)

/-- OWNERID of the signer. -/
def Unit.contOwner (u : Unit) (c : Cont) : Option Nat := if c.cert then some (certOwner c.certBytes) else u.pat.owner

/-- Check 5, OWNER (16 R519, R520, R524). -/
def Unit.ownerOk (u : Unit) (c : Cont) : Bool :=
  c.isFw || (match u.pat.owner with | some o => u.contOwner c == some o | none => u.isDie)

/-- The container is a D pattern or insert that an aggregator takes for distribution (16 R526, R535). -/
def Unit.distributes (u : Unit) (c : Cont) : Bool := u.isAgg && decide (c.target = 0x44) && !c.isFw

/-- Regions of the configuration RAM hold the sections (16 R524 NOSPACE; 15 R498). -/
def Unit.fits (u : Unit) (c : Cont) (w : Whole) : Bool :=
  let size := fun (p : Nat → Bool) => ((w.secs.filter fun s => p s.1).map fun s => s.2.bytes.length).sum
  Config.regionFits u.isAgg.toNat 0 (size banked) && Config.regionFits u.isAgg.toNat 1 (size fun t => !banked t)
    && (!c.scoring || (u.placeBank (w.secs.filter fun s => banked s.1)).isSome)

/-- The checks of 16 R524 in their order: the code of the first failure, 0 when none fails. -/
def Unit.verifyCode (u : Unit) (l : Loading) (b : List Byte) : Nat :=
  let c := parseCont b
  let w := u.whole c
  let d := u.distributes c
  if l.bad || !c.formatOk then 1
  else if decide (c.target ≠ (if u.isDie then 0x44 else 0x54)) && !d then 2
  else if c.cert && !(decide (c.certofs + 240 ≤ c.totlen - 96) && operatorCert c.certBytes) then 3
  else if !(match u.contKey c with | some k => Config.sigValid k c.digest (b.drop (c.totlen - 96)) | none => false) then 4
  else if !u.ownerOk c then 5
  else if !c.isFw && decide (c.arb < (if d then u.pat.arbMinD else u.pat.arbMin)) then 6
  else if decide (c.kind = 1)
      && decide ((if d then u.pat.dmeas else u.pat.meas) ≠ some (BitVec.ofNat 384 c.base)) then 7
  else if !c.tableOk (d || u.isDie) then 8
  else if d then 0
  else if c.isFw then
    (if u.isDie && !((c.rows.map SecRow.len).all fun n => decide (n ≤ 16 + 32768)) then 10
     else if c.arb < u.pat.fw.fuse then 12 else 0)
  else if !sectionsOk w c.brings then 9
  else if !u.fits c w then 10
  else if c.scoring && u.sco.swap.isSome then 11
  else 0

/-- A rejection (16 R524): RESULT, the PAT_ERR bit, PAT_REJCNT, a LOADREJ entry. -/
def Unit.loadRej (u : Unit) (code : Nat) (stamp : Word) (onode : Node) (bytes : List Byte) : Unit :=
  let u := { u with pat := { u.pat with result := code } }
  let u := ((u.err Reg.patErr code).count Reg.patRejcnt).irq 8
  u.audit 4 stamp onode code 0 0 (Config.sha384 bytes)

/-- Verified firmware stands in the inactive bank (16 R536); its FWLOAD entry. -/
def Unit.fwStore (u : Unit) (l : Loading) (c : Cont) : Unit :=
  let f := u.pat.fw
  let k := if f.active = 0 then 1 else 0
  let old := if k = 0 then f.bank0 else f.bank1
  let img : FwImage := ⟨c.arb, leAt (slice c.bytes ((c.rows.map SecRow.ofs).headD 0) 16) 4 2, c.digest⟩
  let f := if k = 0 then { f with bank0 := some img, verified := true } else { f with bank1 := some img, verified := true }
  let u := { u with pat := { u.pat with fw := f, result := 0 } }
  u.audit 5 l.stamp l.onode c.arb k (match old with | some i => i.digest | none => 0) c.digest

/-- M after content takes effect (16 R523). Mark: DEDUCED (log entry 50, unsafe). -/
def measAfter (old : Option Digest) (insert : Bool) (d : Digest) : Digest :=
  if insert then Config.sha384 (leBytes 48 (match old with | some m => m.toNat | none => 0) ++ leBytes 48 d.toNat) else d

/-- An aggregator takes a D container for distribution (16 R526, R535). -/
def Unit.distribute (u : Unit) (c : Cont) : Unit :=
  { u with pat := { u.pat with
      result := 0, arbMinD := c.arb
      dmeas := some (measAfter u.pat.dmeas (decide (c.kind = 1)) c.digest)
      dstore := if c.kind = 1 then u.pat.dstore ++ [c.bytes] else [c.bytes] } }

/-- The scoring sections go to the shadow bank, and the loader arms the swap (16 R532, 05 R203). The entries placed
are written anew, and damage of the bank ends (15 R506). -/
def Unit.fillShadow (u : Unit) (c : Cont) (w : Whole) : Unit :=
  let k := 1 - u.sco.active
  match u.placeBank (w.secs.filter fun s => banked s.1) with
  | none => u
  | some b =>
    let placed := fun (i : Nat) => b.ranges.any fun r => decide (r.1 ≤ i) && decide (i < r.1 + r.2)
    let u := u.setBank k b
    { u with sco := { u.sco with
        shadowValid := true, swap := some c.eff
        damaged := u.sco.damaged.filter fun x => x != k
        lostModel := u.sco.lostModel.filter fun x => x != k
        badLeaf := u.sco.badLeaf.filter fun i => !placed i
        storeErr := u.sco.storeErr.filter fun e => !placed e.1 } }

/-- A verified container: firmware, a D container at an aggregator, or content that becomes pending. -/
def Unit.takeContainer (u : Unit) (l : Loading) (c : Cont) : Unit :=
  if u.distributes c then u.distribute c
  else if c.isFw then u.fwStore l c
  else
    let u := { u with pat := { u.pat with
      result := 0
      pending := some ⟨decide (c.kind = 1), c.arb, c.eff, c.digest, c.secs, l.stamp, l.onode,
        if c.cert then some (certOwner c.certBytes) else none⟩ } }
    if c.scoring then u.fillShadow c (u.whole c) else u

/-- The container bytes held, in order, when no byte is missing up to TOTLEN. -/
def Loading.gather (l : Loading) : List Byte := (l.chunks.map Prod.snd).flatten

/-- LOAD_VERIFIED: verification completes (16 R524, R535). -/
def Unit.loadVerified (u : Unit) : Unit :=
  match u.pat.verifying with
  | none => u
  | some l =>
    let u := { u with pat := { u.pat with verifying := none } }
    let b := l.gather
    match u.verifyCode l b with
    | 0 => (u.takeContainer l (parseCont b)).irq 8
    | n + 1 => u.loadRej (n + 1) l.stamp l.onode b

/-! ### The load paths -/

/-- A load would be BUSY (16 R526). -/
def Unit.loadBusy (u : Unit) : Bool := u.pat.loading.isSome || u.pat.verifying.isSome || u.pat.pending.isSome

/-- Begin a load, or reject it as BUSY; the earlier load continues (16 R526). -/
def Unit.loadBegin (u : Unit) (len : Nat) (race : Option Nat) (stamp : Word) (onode : Node) : Unit :=
  if u.loadBusy then u.loadRej 11 stamp onode []
  else { u with pat := { u.pat with loading := some ⟨len, race, [], false, stamp, onode⟩ } }

/-- Largest container of a part (16 R548). -/
def maxCont (p : Part) : Nat := match p with | .die => 1048576 | .agg => 4194304

/-- Bytes received. -/
def Loading.got (l : Loading) : Nat := (l.chunks.map fun c => c.2.length).sum

/-- PAT_DATA: the next container word (16 R533). Mark: DEDUCED (log entry 23, unsafe). -/
def Unit.loadData (u : Unit) (w : Word) : Unit :=
  match u.pat.loading with
  | none => u
  | some l =>
    if l.race.isSome then u
    else
      let n := l.got
      let l := if n ≥ maxCont u.kind then { l with bad := true } else { l with chunks := Tab.put n (leBytes 4 w.toNat) l.chunks }
      { u with pat := { u.pat with loading := some l } }

/-- The chunks cover bytes 0 to TOTLEN − 1 without a hole. -/
def covers (len : Nat) : Nat → Tab (List Byte) → Bool
  | pos, [] => decide (pos = len)
  | pos, (k, b) :: t => decide (k = pos) && covers len (pos + b.length) t

/-- END: the load goes to verification; missing or extra bytes end it as FORMAT (16 R524, R533). -/
def Unit.loadEnd (u : Unit) (len : Nat) : Unit :=
  match u.pat.loading with
  | none => u
  | some l =>
    let l := { l with len := len, bad := l.bad || !covers len 0 l.chunks }
    { u with pat := { u.pat with loading := none, verifying := some l } }

/-- PAT_LOADCTL.END ends a load over an access port; a load over the Race has its own end (16 R526, R533, R534).
Mark: DEDUCED (log entry 23, unsafe). -/
def Unit.loadEndPort (u : Unit) (len : Nat) : Unit :=
  match u.pat.loading with
  | some l => if l.race.isSome then u else u.loadEnd len
  | none => u

/-- ABORT ends a load that is being received or verified. -/
def Unit.loadAbort (u : Unit) : Unit := { u with pat := { u.pat with loading := none, verifying := none } }

/-- Content is due at a main latch (16 R532). -/
def Content.due (c : Content) (epn : Nat) : Bool := decide (c.eff ≤ epn)

/-- The pending content brings scoring sections, so the swap pending is its own. -/
def Content.scoring (c : Content) : Bool := !c.insert || c.secs.any fun s => banked s.1

/-- CANCEL removes pending content and its swap, unless the edge has come (16 R532). -/
def Unit.loadCancel (u : Unit) : Unit :=
  match u.pat.pending with
  | none => u
  | some c =>
    if u.ep.fired.any fun f => f.main.any c.due then u
    else
      let u := { u with pat := { u.pat with pending := none } }
      if c.scoring then { u with sco := { u.sco with swap := none } } else u

/-- PATBEGIN over the Race (16 R534); RACELOAD gates the path (R548). -/
def Unit.patBegin (u : Unit) (o : Origin) (id len : Nat) : Unit :=
  if !u.bit Reg.patCtrl 1 then u else u.loadBegin len (some id) o.stamp o.onode

/-- Whether a chunk overlaps a different chunk. -/
def overlaps (t : Tab (List Byte)) (ofs n : Nat) : Bool :=
  t.any fun (c : Nat × List Byte) => decide (ofs < c.1 + c.2.length) && decide (c.1 < ofs + n)

/-- PATCHUNK over the Race (16 R534): any order; a chunk whose OFS is held already is a repeat. Mark: DEDUCED (log entry 23,
unsafe). -/
def Unit.patChunk (u : Unit) (id ofs : Nat) (b : List Byte) : Unit :=
  match u.pat.loading with
  | none => u
  | some l =>
    if l.race ≠ some id then u
    else if (Tab.find ofs l.chunks).isSome then u
    else
      let bad := decide (ofs % 4 ≠ 0) || overlaps l.chunks ofs b.length || decide (b.length = 0)
        || decide (b.length > 216) || decide (ofs + b.length > maxCont u.kind)
      let l := if bad then { l with bad := true } else { l with chunks := Tab.put ofs b l.chunks }
      { u with pat := { u.pat with loading := some l } }

/-- PATEND over the Race (16 R534). -/
def Unit.patEnd (u : Unit) (id : Nat) : Unit :=
  match u.pat.loading with
  | some l => if l.race = some id then u.loadEnd l.len else u
  | none => u

/-! ### Effect -/

/-- Section bytes in force by STYPE, for the audit. -/
def Unit.allSecs (u : Unit) : Tab Section :=
  styps.foldl (fun (t : Tab Section) n => match u.section? n with | some s => Tab.put n s t | none => t) []

/-- Hash of a section for the audit: of its bytes; an absent old section gives 0, an absent new one is empty. -/
def secHash (s : Option Section) (old : Bool) : Digest :=
  match s with
  | some x => Config.sha384 x.bytes
  | none => if old then 0 else Config.sha384 []

/-- SECTION entries of content (16 R544): one for each section replaced, ascending. -/
def Unit.auditSecs (u : Unit) (c : Content) (old : Tab Section) (at_ : Nat) : Unit :=
  (styps.filter fun t => (Tab.find t c.secs).isSome || (!c.insert && (Tab.find t old).isSome)).foldl
    (fun (u : Unit) t =>
      u.auditAt at_ 3 c.stamp c.onode t 0 (secHash (Tab.find t old) true) (secHash (Tab.find t c.secs) false)) u

/-- Sections outside the banks after content takes effect (16 R525, R532). -/
def contentSecs (old : Tab Section) (c : Content) : Tab Section :=
  let new := c.secs.filter fun s => !banked s.1
  if c.insert then new.foldl (fun (t : Tab Section) s => Tab.put s.1 s.2 t) old else new

/-- Drift states when content takes effect (06 R242): a full pattern acts as an insert that replaces every section (16 R532).
Updates still due of earlier latches keep the states of the metrics that go (03 R121). -/
def Unit.contentDrift (u : Unit) (c : Content) (old : List Byte) : Unit :=
  let to_ := fun (new : List Byte) =>
    { u with drf := { u.drf with
        metrics := keepMetrics old new u.drf.metrics
        batches := u.drf.batches.map fun (b : Batch) => if b.sec = old then { b with gone := u.drf.metrics } else b } }
  match Tab.find 8 c.secs with
  | some s => to_ s.bytes
  | none => if c.insert then u else to_ []

/-- Pending content takes effect at the instant `at_` (16 R523, R525, R526, R532, R544); `old` is what stood before, its swap
made.
Mark: DEDUCED (log entry 50, unsafe). -/
def Unit.applyContent (u : Unit) (c : Content) (old : Tab Section) (at_ : Nat) : Unit :=
  let p := u.pat
  let m := measAfter p.meas c.insert c.digest
  let gen := if c.insert then (p.insgen + 1) % 2 ^ 32 else 0
  let signer := match c.signer with | some o => some o | none => p.owner
  let u := { u with pat := { p with
    secs := contentSecs p.secs c, meas := some m, arb := c.arb, insgen := gen, arbMin := c.arb
    pending := none, patOwner := signer, foreign := p.foreign && !(signer.isSome && signer == p.owner) } }
  let u := if c.insert then u else { u with sco := { u.sco with swapn := 0 } }
  let u := u.contentDrift c (match Tab.find 8 old with | some s => s.bytes | none => [])
  let u := u.count Reg.patLoadcnt
  let mh := match p.meas with | some x => x | none => 0
  let u := if c.insert then u.auditAt at_ 2 c.stamp c.onode c.arb gen mh m else u.auditAt at_ 1 c.stamp c.onode c.arb 0 mh m
  u.auditSecs c old at_

/-- Content with no section, that the part makes itself: a FOREIGN unit empties its pattern at the next main latch (16 R520),
as an in-service pattern with no sections; a RELEASE does (16 R519). -/
def Unit.emptyContent (u : Unit) : Content :=
  ⟨false, u.pat.arb, 0, 0, [], 0, 0, u.pat.patOwner⟩

/-! ### Registers -/

/-- PAT registers that the loader's state gives (16 R548). -/
def Unit.patView (u : Unit) (ofs i : Nat) : Option Word :=
  let w := fun (n : Nat) => some (BitVec.ofNat 32 n)
  let p := u.pat
  let f := p.fw
  let svn := match (if f.active = 0 then f.bank0 else if f.active = 1 then f.bank1 else none) with
    | some x => x.svn | none => 0
  let own := match p.owner with | some o => o | none => (match p.patOwner with | some o => o | none => 0)
  let eff := match p.pending with | some c => c.eff | none => 0
  if ofs = Reg.patStat then
    w (b2n p.meas.isSome + 2 * b2n p.loading.isSome + 4 * b2n p.verifying.isSome + 8 * b2n p.pending.isSome
      + 16 * b2n p.provisional + 32 * b2n p.foreign + 64 * b2n p.owner.isSome + 256 * p.result)
  else if ofs = Reg.patLoadpos then w (match p.loading with | some l => l.got | none => 0)
  else if Reg.patMeas ≤ ofs ∧ ofs < Reg.patMeas + 48 then
    w ((match p.meas with | some m => m.toNat | none => 0) >>> (8 * (ofs - Reg.patMeas)))
  else if ofs = Reg.patInsgen then w p.insgen
  else if ofs = Reg.patArb then w p.arb
  else if ofs = Reg.patArbmin then w p.arbMin
  else if ofs = Reg.patArbmind then w (if u.isAgg then p.arbMinD else 0)
  else if ofs = Reg.patEffl then w eff
  else if ofs = Reg.patEffh then w (eff / 2 ^ 32)
  else if ofs = Reg.patOwnerl then w own
  else if ofs = Reg.patOwnerh then w (own / 2 ^ 32)
  else if ofs = Reg.patFwstat then
    w (f.active + 4 * b2n f.verified + 8 * b2n f.reverted + 256 * svn + 65536 * f.fuse)
  else if ofs = Reg.patAtSecstat then
    w (match u.section? i with | some s => 1 + 256 * s.sver | none => 0)
  else if ofs = Reg.patAtSeclen then w (u.sec i).length
  else if ofs = Reg.patAtSecdata then
    w (if u.rdN Reg.patAtSecofs i < (u.sec i).length then leAt (u.sec i) (u.rdN Reg.patAtSecofs i) 4 else 0)
  else none

end Sys2Proof.Machine
end

