-- ==== Sys2Proof/Machine/Roles.lean ====
section
/-! DEFINITION. The pair and its roles: the pair handshake and fleet join (18 R590-R592; 01 R38), beats, majority and
loss of the partner (08 R311, R314, R326), group and system roles (01 R39-R42; 08 R312), masks of chain commands (08 R319;
10 R381), admission of a repaired tray (08 R322-R324), and the VOT registers (08 R330, R331). -/

namespace Sys2Proof.Machine

/-! ### Beats -/

/-- Change a role. -/
def Agg.onRole (a : Agg) (sys : Bool) (f : Role → Role) : Agg :=
  a.onV fun v => if sys then { v with system := f v.system } else { v with group := f v.group }

/-- ISOLATION: the majority is gone (R311). -/
def Agg.isolation (a : Agg) (sys : Bool) : Agg :=
  let r := a.role sys
  if !r.held || r.isolated || a.majority sys then a
  else (a.onRole sys fun r => { r with isolated := true }).onU fun u => (u.err Reg.votErr 4).alarm .isolated

/-- Deciding resumes when the majority returns (R311). -/
def Agg.resume (a : Agg) (sys : Bool) : Agg :=
  if (a.role sys).isolated && a.majority sys then a.onRole sys fun r => { r with isolated := false } else a

/-- The highest term seen of a role (01 R40, R47). -/
def termReg (sys : Bool) : Nat := if sys then Reg.glbSterm else Reg.glbGterm

/-- Note a term. -/
def Agg.seeTerm (a : Agg) (sys : Bool) (t : Nat) : Agg := a.onU fun u => u.wrN (termReg sys) (max (u.rdN (termReg sys)) t)

/-- Pair status of a TRAY_BEAT: PAIRDEG, the journal ready, and the candidacy bits, which the partner must know (R302; 09
R352; 01 "Group and system roles"). Mark: DEDUCED (log entry 54, unsafe). -/
def Agg.pairByte (a : Agg) : Nat :=
  b2n (a.u.bit Reg.votStat 0) + 2 * b2n a.jrn.ready + 4 * a.u.fld Reg.glbRolecfg 1 0

/-- A beat is heard: of a tray side, or of a group-root side (R311). -/
def Agg.beatIn (a : Agg) (grp : Bool) (n : Node) : Agg :=
  a.onV fun v => if grp then { v with gbeats := Tab.put n.toNat a.u.clk v.gbeats } else { v with beats := Tab.put n.toNat a.u.clk v.beats }

/-- TRAY_BEAT to the group control address, to which this side listens too (R302; 11 R396). -/
def Agg.trayBeat (a : Agg) : Agg :=
  if !a.joined then a
  else (a.beatIn false a.u.node).send a.ctl 1 (.vote (a.voteHead 0 0 0) (.trayBeat ⟨a.u.rd Reg.glbGterm, a.u.rd Reg.glbSterm,
    BitVec.ofNat 8 a.pairByte, BitVec.ofNat 8 a.vote.adm.state⟩)) 0

/-- Send a proxy access of a slot toward a die unit (01 R49, 10 R375). Mark: DESIGN CHOICE (log entry 20, unsafe). -/
def Agg.proxySend (a : Agg) (slot port die ofs : Nat) (data : Option Word) (wide : Bool) (word : Nat) : Agg :=
  let q : PxReq := ⟨a.u.clk, data.isSome, wide, word, false, none⟩
  { a with u := a.u.raceOwn port 1 32 (.proxy port slot die ofs data wide)
           px := Tab.put slot ((Tab.getD a.px slot []) ++ [q]) a.px }

/-- Change a field of a register of every die of the tray through the proxy window (R322): each die's register is read, and
written back with the field when the answer comes. Mark: DESIGN CHOICE (log entry 20, unsafe). -/
def Agg.proxyAll (a : Agg) (e : PxEdit) : Agg :=
  (List.range 256).foldl (fun (a : Agg) k =>
    if a.reaches k then
      let b := a.proxySend 15 (k / 32) (k % 32) e.ofs none false 0
      { b with px := Tab.put 15 (((Tab.getD b.px 15 []).dropLast) ++ [⟨a.u.clk, false, false, 0, false, some { e with die := k }⟩]) b.px }
    else a) a

/-- Set WIT_RATE.RBASE of every die of the tray to 0, or to what it was before (R322).
Mark: DEDUCED (log entry 44, unsafe). -/
def Agg.writeRbase (a : Agg) (back : Bool) : Agg := a.proxyAll ⟨0, Reg.witRate, 4, 0, if back then none else some 0⟩

/-- Set or clear FLM_CTRL.FORCE0 of every die of the tray during TESTING and SWEEP (13 R459).
Mark: DEDUCED (log entry 44, unsafe). -/
def Agg.writeForce0 (a : Agg) (on : Bool) : Agg := a.proxyAll ⟨0, Reg.flmCtrl, 2, 2, some (b2n on)⟩

/-- What the pair set for the test is taken back (R322; 13 R459). Mark: DEDUCED (log entry 44, unsafe). -/
def Agg.sweepUndo (a : Agg) : Agg :=
  let st := a.vote.adm.state
  let a := if st = 2 then a.writeRbase true else a
  if st = 1 ∨ st = 2 then a.writeForce0 false else a

/-- Admission fails (R322, R323). Mark: DEDUCED (log entry 44, unsafe). -/
def Agg.admFail (a : Agg) : Agg :=
  (a.sweepUndo.onV fun v => { v with adm := { v.adm with state := 6, failed := true } }).onU fun u =>
    (u.err Reg.votErr 7).alarm .admFail

/-- A side has left a state of the admission alone (R322): one has failed, or stopped, or is more than one state ahead; the
commands that move the sides reach them one after the other. Mark: DEDUCED (log entry 44, unsafe). -/
def leftAlone (own was now : Nat) : Bool :=
  let busy := fun (n : Nat) => decide (1 ≤ n) && decide (n ≤ 4)
  (now == 6 && busy was && own != 6) || (now == 0 && busy was && busy own)
    || (busy own && busy now && (decide (own > now + 1) || decide (now > own + 1)))

/-- The partner's TRAY_BEAT (R322, R326; 09 R352). -/
def Agg.partnerBeat (a : Agg) (b : TrayBeat) : Agg :=
  let was := a.partner
  let old := a.vote.padm
  let a := ({ a with partner := true }.onU fun u => u.wrBit Reg.votStat 0 false).onV fun v => { v with padm := b.adm.toNat, pcand := bitsOf b.pair.toNat 3 2 }
  let a := if b.pair.toNat.testBit 1 then a.giveBack else a
  let a := if leftAlone a.vote.adm.state old b.adm.toNat then a.admFail else a
  if was then a else a.fwdUpdate

/-- TRAY_BEAT_RECEIVE (R311). -/
def Agg.trayBeatReceive (a : Agg) (src : Node) (b : TrayBeat) : Agg :=
  let a := (a.seeTerm false b.gterm.toNat).seeTerm true b.sterm.toNat
  let a := a.beatIn false src
  let a := if src = a.partnerAddr then a.partnerBeat b else a
  (a.resume false).decideReady

/-- The pair is eligible for a role (01, "Group and system roles"; R41): both sides have joined and set the candidacy bit,
and for the system role the pair holds its group's. -/
def Agg.roleEligible (a : Agg) (sys : Bool) : Bool :=
  a.joined && a.partner && a.u.bit Reg.glbRolecfg (b2n sys) && a.vote.pcand.testBit (b2n sys) && (!sys || a.vote.group.held)

/-- A role is given up (01 R40, R41; 08 R312): its undecided decisions are void.
Mark: DEDUCED (log entry 45, unsafe). -/
def Agg.yieldRole (a : Agg) (sys : Bool) : Agg :=
  let a := { a with hang := if sys then { a.hang with system := none, lastSystem := [] }
                            else { a.hang with group := none, kept := none, wanted := [], probes := [], lastGroup := [] } }
  (a.onRole sys fun r => { r with held := false, quiet := false, isolated := false
                                  heard := if r.held then some a.u.clk else r.heard }).onV fun v =>
    { v with decisions := v.decisions.filter fun d => d.2.sys != sys }

/-- The side has found its partner lost, or never heard it since it joined, and has not reported it (R326). -/
def Agg.partnerGone (a : Agg) : Bool :=
  a.joined && !a.beating a.partnerAddr &&
    (a.partner || (!a.u.bit Reg.votStat 0 && decide (usT 300 ≤ a.u.since a.joinAt)))

/-- PARTNER_LOST: no TRAY_BEAT from the partner for 300 µs (R314, R326; 01 R41; 09 R351, R352). -/
def Agg.partnerLost (a : Agg) : Agg :=
  if !a.partnerGone then a
  else
    let a := ({ a with partner := false }.onU fun u => (u.wrBit Reg.votStat 0 true).alarm .pairDeg)
    ((a.yieldRole true).yieldRole false).takeover.voteAll

/-- GROUP_BEAT (R302). -/
def Agg.groupBeat (a : Agg) : Agg :=
  if !a.joined || !a.vote.group.held then a
  else (a.beatIn true a.u.node).send systemCtl 1 (.vote (a.voteHead 1 a.vote.group.term 0)
    (.groupBeat (BitVec.ofNat 32 a.vote.group.term) (BitVec.ofNat 8 a.traysHeard))) 0

/-- GROUP_BEAT_RECEIVE (R311). Mark: DEDUCED (log entry 45, unsafe). -/
def Agg.groupBeatReceive (a : Agg) (src : Node) : Agg :=
  (a.beatIn true src).resume true

/-! ### Roles -/

/-- Send a claim (01 R39). -/
def Agg.sendClaim (a : Agg) (sys : Bool) : Agg :=
  let a' := a.onRole sys fun r => { r with sent := some a.u.clk }
  a'.send (if sys then systemCtl else a.ctl) 1 (.role sys (trayAddr a.tray) (BitVec.ofNat 32 (a.role sys).term)) 0

/-- ROLE_CLAIM: the holder's claim, 100 µs after the last one; one that is no longer eligible stops (01 R39, R41). -/
def Agg.roleClaim (a : Agg) (sys : Bool) : Agg :=
  let due := match (a.role sys).sent with | some c => decide (a.u.since c ≥ usT 100) | none => true
  if !(a.role sys).held then a else if !a.roleEligible sys then a.yieldRole sys else if due then a.sendClaim sys else a

/-- ROLE_VACANT: no claim for 300 µs, and the eligible pair claims (01 R40; 08 R312: the quiet period). -/
def Agg.roleVacant (a : Agg) (sys : Bool) : Agg :=
  let r := a.role sys
  let vacant := match r.heard with | some c => decide (a.u.since c ≥ usT 300) | none => false
  if r.held || !vacant || !a.roleEligible sys then a
  else
    let t := a.u.rdN (termReg sys) + 1
    let a := a.onRole sys fun r =>
      { r with held := true, term := t % 2 ^ 32, won := a.u.clk, quiet := true, isolated := false }
    (a.seeTerm sys (t % 2 ^ 32)).sendClaim sys

/-- A claim wins against the own one (01 R40): the higher term; of equal terms the lower T, or the lower G.
Mark: DEDUCED (log entry 45, unsafe). -/
def Agg.loses (a : Agg) (sys : Bool) (holder : Node) (term : Nat) : Bool :=
  let r := a.role sys
  let f := fun (t : Nat) => if sys then t / 64 else t % 64
  decide (term > r.term) || (term == r.term && decide (f (trayOf holder) < f a.tray))

/-- ROLE_CLAIM_RECEIVE (01 R40, R41). The partner's claim is the pair's own. -/
def Agg.roleClaimReceive (a : Agg) (sys : Bool) (holder : Node) (term : Nat) : Agg :=
  let r := a.role sys
  let a := a.seeTerm sys term
  if trayOf holder = a.tray then
    (if r.held && r.term == term then a
     else a.onRole sys fun r => { r with held := true, term := term, won := a.u.clk, quiet := true })
  else if r.held && !a.loses sys holder term then a
  else
    let a := if r.held then a.yieldRole sys else a
    a.onRole sys fun r => { r with heard := some a.u.clk, holder := holder }

/-- QUIET_PERIOD_END: 400 µs or 1.2 ms after the winning claim (08 R312). -/
def Agg.quietEnd (a : Agg) (sys : Bool) : Agg :=
  let r := a.role sys
  if r.quiet && decide (a.u.since r.won ≥ usT (if sys then 1200 else 400)) then
    (a.onRole sys fun r => { r with quiet := false }).decideReady
  else a

/-! ### Masks of chain commands -/

/-- A mask of one copy of a command comes to its issuer; with every die in either mask the command is done (08 R319). -/
def Agg.takeMask (a : Agg) (p cseq mask : Nat) (other : Bool) : Agg :=
  let set := fun (f : InFlight) => if other then { f with other := some mask } else { f with own := some mask }
  let mine := fun (f : InFlight) => f.port == p && f.cmd.cseq.toNat == cseq
  let all := 2 ^ (a.chain p).len - 1
  let done := fun (f : InFlight) => ((f.own.getD 0) ||| (f.other.getD 0)) &&& all == all
  a.onV fun v => { v with flights := (v.flights.map fun f => if mine f then set f else f).filter fun f => !(mine f && done f) }

/-- CMDRET: a copy ends at this head (10 R381): its mask is the issuer's. Mark: DEDUCED (log entry 49, unsafe). -/
def Agg.cmdRet (a : Agg) (p : Nat) (c : ChainCmd) : Agg :=
  if !a.u.raceUp p then a
  else
    let a := (a.onU fun u => u.raceRx p 1 (32 + c.op.alen)).noteCseq p c.cseq.toNat
    if c.issuer = a.u.node then a.takeMask p c.cseq.toNat c.mask.toNat false
    else a.send c.issuer 1 (.maskRet p c.cseq c.mask) 0

/-- Dies missing from both masks. -/
def Agg.missing (a : Agg) (f : InFlight) : List Nat :=
  let got := (f.own.getD 0) ||| (f.other.getD 0)
  (List.range (a.chain f.port).len).filter fun d => !got.testBit d

/-- CMD_REISSUE: after VOT_CMDTO the partner sends the command again, with the same CSEQ (08 R319). -/
def Agg.cmdReissue (a : Agg) (p cseq : Nat) : Agg :=
  match a.vote.flights.find? fun f => f.port == p && f.cmd.cseq.toNat == cseq with
  | none => a
  | some f =>
    if f.reissued || (a.missing f).isEmpty || decide (a.u.since f.at_ < usT (a.u.fld Reg.votCmdto 15 0)) then a
    else
      let a := a.onV fun v => { v with flights := v.flights.map fun g => if g = f then { f with reissued := true } else g }
      (if a.partner then a.handCmd p f.cmd 1 else a.sendCmd p f.cmd).onU fun u =>
        (u.count Reg.votResendcnt).err Reg.votErr 3

/-- CMD_UNACK: dies still missing are reported, and count as not reached (08 R319). -/
def Agg.cmdUnack (a : Agg) (p cseq : Nat) : Agg :=
  match a.vote.flights.find? fun f => f.port == p && f.cmd.cseq.toNat == cseq with
  | none => a
  | some f =>
    if !f.reissued || decide (a.u.since f.at_ < usT (2 * a.u.fld Reg.votCmdto 15 0)) then a
    else
      let b := ((a.missing f).foldl (fun (a : Agg) d => a.lose (32 * p + d)) a).onV fun v =>
        { v with flights := v.flights.erase f }
      if (a.missing f).isEmpty then b else b.onU fun u => u.err Reg.votErr 6

/-! ### Admission -/

/-- Margin levels of a period of the sweep: V 1 to 8, F 1 to 8, then 0 and 0 (R322).
Mark: DEDUCED (log entry 44, unsafe). -/
def sweepLevels (step : Nat) : Nat × Nat := if step < 8 then (step + 1, 0) else if step < 16 then (0, step - 7) else (0, 0)

/-- Change the admission. -/
def Agg.onAdm (a : Agg) (f : Admission → Admission) : Agg := a.onV fun v => { v with adm := f v.adm }

/-- Demand the levels of a period. -/
def Agg.demand (a : Agg) (step : Nat) : Agg := a.onU fun u => u.emit (.sweep (sweepLevels step).1 (sweepLevels step).2)

/-- ADMIT_START (R322). Mark: DEDUCED (log entry 44, unsafe). -/
def Agg.admitStart (a : Agg) (wgid : Nat) : Agg :=
  if a.vote.adm.state = 0 ∧ a.joined = true then
    (a.onAdm fun _ => { state := 1, wgid := wgid, step := 0, at_ := a.u.clk, failed := false, rbase := [] }).writeForce0 true
  else a

/-- Every chain that has dies is enumerated whole (R322; 01 R31). -/
def Agg.allChecked (a : Agg) : Bool :=
  (List.range 8).all fun p => (a.chain p).status == .complete || (a.chain p).status == .empty

/-- ADMIT_TEST_DONE (R322). -/
def Agg.admitTestDone (a : Agg) (pass : Bool) : Agg :=
  if a.vote.adm.state ≠ 1 then a
  else if !pass || !a.allChecked then a.admFail
  else ((a.onAdm fun x => { x with state := 2, step := 0, at_ := a.u.clk }).writeRbase false).demand 0

/-- Oscillator ticks of one of the 17 periods of the sweep (R322). -/
def Agg.sweepPeriod (a : Agg) : Nat := msT (1000 * a.u.fld Reg.votSweept 15 0) / 17

/-- SWEEP_STEP (R322). Mark: DEDUCED (log entry 44, unsafe). -/
def Agg.sweepStep (a : Agg) : Agg :=
  let x := a.vote.adm
  if x.state ≠ 2 ∨ x.step ≥ 16 ∨ a.u.since x.at_ < a.sweepPeriod then a
  else (a.onAdm fun x => { x with step := x.step + 1, at_ := a.u.clk }).demand (x.step + 1)

/-- A record of a die of the tray breaks a criterion of the sweep (R323): a margin request not answered with MG_OK = 1 within
WIT_MACKTO, a MISMATCH, NOVOTE or UNDECIDED, a Weir level above NORMAL, a hard flag.
Mark: DEDUCED (log entry 44, unsafe). -/
def sweepBreaks (r : Rec) : Bool :=
  let b := r.payload
  let n := fun (o : Nat) => leAt b o 1
  if r.typ = 0x14 then n 0 == 1 || n 0 == 2 || n 0 == 3 || (n 0 == 5 && !(n 1).testBit 3)
  else if r.typ = 0x11 then decide (n 1 % 4 ≠ 0)
  else if r.typ = 0x12 then (List.range (n 1)).any fun o => decide (n (0x44 + 16 * o) % 4 ≠ 0) || decide (n (0x45 + 16 * o) % 4 ≠ 0)
  else if r.typ = 0x15 then decide (leAt b 14 2 ≠ 0)
  else false

/-- Metrics in DRIFT after a drift record of a die (06 R241). -/
def driftNote (k : Nat) (r : Rec) (l : List (Nat × Nat)) : List (Nat × Nat) :=
  let b := r.payload
  let l := if (leAt b 10 2).testBit 2 then l.filter fun x => x.1 != k else l
  (List.range (leAt b 9 1)).foldl
    (fun (l : List (Nat × Nat)) c =>
      let m := leAt b (0x10 + 16 * c) 2
      let rest := l.filter fun x => decide (x ≠ (k, m))
      if (leAt b (0x12 + 16 * c) 1).testBit 0 then rest ++ [(k, m)] else rest) l

/-- A record of a die of the tray is journaled during an admission (R323). -/
def Agg.sweepJudge (a : Agg) (r : Rec) : Agg :=
  if kindOf r.src ≠ 0 ∨ trayOf r.src ≠ a.tray then a
  else
    let a := if r.typ = 0x13 then a.onV fun v => { v with drift := driftNote (dieKey r.src) r v.drift } else a
    if a.vote.adm.state = 2 ∧ sweepBreaks r = true then a.admFail else a

/-- A hard flag, or a level above NORMAL of an output of this side, ends a sweep at once (R323). -/
def Agg.sweepSettle (a : Agg) : Agg :=
  if a.vote.adm.state ≠ 2 then a
  else if (a.vote.dies.any fun d => decide (a.hardOf d.1 ≠ 0)) || a.vote.ens.any fun e => decide (e.2.2.2 ≠ 0) then a.admFail
  else a

/-- SWEEP_END (R322, R323): after the 17th period the sweep has passed when it stands and no metric is in DRIFT.
Mark: DEDUCED (log entry 44, unsafe). -/
def Agg.sweepEnd (a : Agg) : Agg :=
  let x := a.vote.adm
  if x.state ≠ 2 ∨ x.step < 16 ∨ a.u.since x.at_ < a.sweepPeriod then a
  else if a.vote.drift.isEmpty && a.vote.dies.all fun d => decide (d.2.comps.getD 3 0 = 0) then
    a.sweepUndo.onAdm fun x => { x with state := 3 }
  else a.admFail

/-- ADMIT_LOADED: both sides propose ADMIT (R322); with VOTEEN 0 the proposal is not sent and waits (R330). -/
def Agg.admitLoaded (a : Agg) : Agg :=
  if a.vote.adm.state ≠ 3 then a
  else
    let n := trayAddr a.tray
    let p : Proposal :=
      { subj := n, verd := 4, cause := 15, pflags := 0, score := BitVec.ofNat 16 a.vote.adm.wgid
        step := BitVec.ofNat 32 a.lastStep, rdie := n, decid := BitVec.ofNat 64 (a.inForce n).decid }
    let a := a.onAdm fun x => { x with state := 4 }
    if a.votes then a.sendProposal p 0
    else a.onV fun v => { v with props := Tab.put n.toNat ⟨p, a.u.clk, 0⟩ v.props }

/-- ADMIT_ABORT (R323). -/
def Agg.admitAbort (a : Agg) : Agg :=
  (a.sweepUndo.onAdm fun x => { x with state := 0, step := 0 }).onV fun v =>
    { v with props := v.props.filter fun p => decide (p.2.p.verd ≠ 4) }

/-! ### The pair handshake and fleet join -/

/-- DEVID of a part: the first 16 bytes of SHA-384 over "KZID" and the device key's X (16 R518). -/
def devid (p : Part) : Nat :=
  let key := Config.romKey (match p with | .die => 3 | .agg => 4)
  leNat (slice (leBytes 48 (Config.sha384 ([0x4B, 0x5A, 0x49, 0x44] ++ leBytes 48 key)).toNat) 0 16)

/-- The own HELLO (18 R590). -/
def Agg.hello (a : Agg) : Hello :=
  { g := BitVec.ofNat 6 (a.tray / 64), t := BitVec.ofNat 6 a.tray, side := a.side, ack := a.pair.hello.isSome
    owned := a.u.pat.owner.isSome, len := (List.range 8).map fun p => BitVec.ofNat 8 (a.chain p).len
    genmax := (List.range 8).map fun p => BitVec.ofNat 8 (a.u.fld Reg.raceAtGenmax 1 0 p)
    arbmind := BitVec.ofNat 32 a.u.pat.arbMinD, owner := BitVec.ofNat 64 (a.u.pat.owner.getD 0)
    devid := BitVec.ofNat 128 (devid .agg) }

/-- Change the handshake. -/
def Agg.onPair (a : Agg) (f : Pair → Pair) : Agg := { a with pair := f a.pair }

/-- PAIRHELLO: every 1 ms until the handshake is complete, every 10 ms after a failure (18 R590).
Mark: DEDUCED (log entry 54, unsafe). -/
def Agg.pairHello (a : Agg) : Agg :=
  let wait := msT (if a.pair.failed then 10 else 1)
  let due := match a.pair.sent with | some c => decide (a.u.since c ≥ wait) | none => true
  if a.pair.done || !due then a
  else (a.onPair fun p => { p with sent := some a.u.clk }).send a.partnerAddr 1 (.vote (a.voteHead 0 0 0) (.hello a.hello)) 0

/-- A part of the operator certificate. -/
def Agg.pairUpHalf (a : Agg) (half : Bool) : PairUp :=
  let bit := fun (s : Side) => b2n (if s = a.side then a.joined else a.partner)
  ⟨half, BitVec.ofNat 2 (bit .a + 2 * bit .b), BitVec.ofNat 32 a.u.pat.arbMinD, slice a.u.pat.cert (120 * b2n half) 120, a.u.node⟩

/-- PAIRUP to a chain (18 R591): both halves, once there is an operator certificate.
Mark: DEDUCED (log entry 54, unsafe). -/
def Agg.pairUp (a : Agg) (p : Nat) : Agg :=
  if a.u.pat.cert.isEmpty || !a.u.raceUp p then a
  else (a.issue p 0xFFFFFF 0 (.pairUp (a.pairUpHalf false))).issue p 0xFFFFFF 0 (.pairUp (a.pairUpHalf true))

/-- Chunks of a container on its way to the dies (16 R534): 216 bytes fill ALEN. -/
def Agg.sendChunks (a : Agg) (p : Nat) (id : Word) (b : List Byte) : Nat → Nat → Agg
  | _, 0 => a
  | o, n + 1 =>
    let c := slice b o 216
    if c.isEmpty then a
    else (a.issue p 0xFFFFFF 0 (.patChunk id (BitVec.ofNat 32 o) c)).sendChunks p id b (o + 216) n

/-- Load a container into the dies of a chain (16 R534, R535). How LOADID is chosen is not stated: the next CSEQ.
Mark: DEDUCED (log entry 23, unsafe). -/
def Agg.sendPattern (a : Agg) (p : Nat) (b : List Byte) : Agg :=
  let id : Word := BitVec.ofNat 32 (Tab.getD a.vote.cseq p 0)
  let a := a.issue p 0xFFFFFF 0 (.patBegin id (BitVec.ofNat 32 b.length))
  (a.sendChunks p id b 0 (b.length + 1)).issue p 0xFFFFFF 0 (.patEnd id)

/-- What a chain gets at the pair handshake: SETGEN, PAIRUP, and the D pattern with its inserts (18 R589, R591; 16 R535).
Side A sends them, or the side that proceeds alone. Mark: DEDUCED (log entry 54, unsafe). -/
def Agg.serve (a : Agg) (p : Nat) : Agg :=
  if decide (a.side = .b) && !a.pair.alone then a
  else
    let a := match (a.chain p).gmask with | some m => a.chooseGen p m | none => a
    let a := a.pairUp p
    if a.u.raceUp p then a.u.pat.dstore.foldl (fun (a : Agg) b => a.sendPattern p b) a else a

/-- The handshake ends: the lower ARBMIND becomes the D floor (18 R590). Mark: DEDUCED (log entry 23, unsafe). -/
def Agg.pairDone (a : Agg) (h : Hello) : Agg :=
  let a := a.onU fun u => { u with pat := { u.pat with arbMinD := min u.pat.arbMinD h.arbmind.toNat } }
  let a := (a.onPair fun p => { p with done := true }).fwdUpdate
  (List.range 8).foldl Agg.serve a

/-- Why a partner's HELLO fails the handshake (18 R590; 01 R29, R38). Mark: DEDUCED (log entry 54, unsafe). -/
def Agg.helloBad (a : Agg) (h : Hello) : List (Nat × Nat) :=
  let m := a.hello
  (if h.g ≠ m.g ∨ h.t ≠ m.t then [(Reg.glbRolestat, 2)] else []) ++ (if h.side = m.side then [(Reg.glbRolestat, 3)] else [])
    ++ (if h.len ≠ m.len then [(Reg.glbPairstat, 3)] else [])
    ++ (if h.owned ∧ m.owned ∧ h.owner ≠ m.owner then [(Reg.glbPairstat, 4)] else [])

/-- PAIRHELLO_RECEIVE (18 R590). -/
def Agg.pairHelloReceive (a : Agg) (h : Hello) : Agg :=
  let bad := a.helloBad h
  if !bad.isEmpty then
    if a.pair.done then a
    else (a.onPair fun p => { p with failed := true, hello := none }).onU fun u =>
      (bad.foldl (fun (u : Unit) x => u.wrBit x.1 x.2 true) u).alarm .pairFail
  else
    let clr := fun (u : Unit) => [(Reg.glbRolestat, 2), (Reg.glbRolestat, 3), (Reg.glbPairstat, 3), (Reg.glbPairstat, 4)].foldl
      (fun (u : Unit) (x : Nat × Nat) => if u.bit x.1 x.2 then u.wrBit x.1 x.2 false else u) u
    let a := (a.onPair fun p => { p with hello := some h, failed := false }).onU clr
    if h.ack && !a.pair.done then a.pairDone h else a

/-- PAIR_TIMEOUT: no partner HELLO for GLB_PAIRTO ms; the side proceeds alone (18 R590). -/
def Agg.pairTimeout (a : Agg) : Agg :=
  if a.pair.done || a.pair.alone || a.pair.hello.isSome || a.pair.failed
      || decide (a.u.since a.pair.since < msT (a.u.fld Reg.glbPairto 15 0)) then a
  else
    let a := ((a.onPair fun p => { p with alone := true }).onU fun u => u.wrBit Reg.votStat 0 true)
    (List.range 8).foldl Agg.serve ((a.onJ fun j => { j with take := true }).fwdUpdate)

/-- A fleet port that the join may rest on: up, and keyed where MACsec is on (18 R592). -/
def Agg.joinPort (a : Agg) : Bool :=
  (a.upPorts 0xFF).any fun p => !a.u.bit Reg.fltAtMsecctl 0 p || (a.port p).msec.keyed

/-- A SYNCRSP for the own streams is held (18 R592). -/
def Agg.ownSynced (a : Agg) : Bool :=
  [768, 769, 770, 771].all fun i => (a.jst i).fwd && (a.jst i).sync.isNone && (a.jst i).sent.isSome

/-- FLEET_JOIN (18 R592; 09 R356): the address is fixed here (01 R37), and from here the lack of claims is counted
(01 R39). -/
def Agg.fleetJoin (a : Agg) : Agg :=
  if a.joined || !(a.pair.done || a.pair.alone) || a.pair.failed || !a.joinPort || !a.ownSynced then a
  else
    let now := fun (r : Role) => { r with heard := some ((r.heard).getD a.u.clk) }
    ((({ a with joined := true, joinAt := a.u.clk }.onRole false now).onRole true now).onU fun u => { u with node := a.identity, nodeOk := true }.offerAll).powerLoss.fwdUpdate

/-! ### Registers -/

/-- The verdict in force for a die: its own, or its tray's when that is higher or the die has none (R301, R324, R330). -/
def Agg.verdictBehind (a : Agg) (n : Node) : InForce :=
  let t := a.inForce (trayAddr (trayOf n))
  match Tab.find n.toNat a.vote.inforce with
  | some f => if f.verd < t.verd then t else f
  | none => t

/-- VOT[sel] of a die (R330, R331). -/
def Agg.votDieView (a : Agg) (ofs k : Nat) : Option Word :=
  let w := fun (n : Nat) => some (BitVec.ofNat 32 n)
  let x := a.dieVote k
  let n := a.dieAddr k
  let f := a.verdictBehind n
  let g := a.groupOfDie k
  if ofs = Reg.votAtScore then
    w (x.score + 2 ^ 21 * b2n (a.vote.governed.any fun q => decide (q.subj = n))
      + 2 ^ 22 * b2n (a.vote.props.any fun p => decide (p.2.p.subj = n) || decide (p.2.p.rdie = n)) + 2 ^ 23 * b2n (a.straggler (k / 32) (k % 32))
      + 2 ^ 24 * x.comp + 2 ^ 26 * a.inForceOf n + 2 ^ 28 * x.cause)
  else if ofs = Reg.votAtComp then w (x.lscore + 1024 * a.stragOf k + 2 ^ 20 * a.ens281 k)
  else if ofs = Reg.votAtHard then w (a.hardOf k)
  else if ofs = Reg.votAtWg then w (match g with | some y => y.wgid + 2 ^ 31 | none => 0)
  else if ofs = Reg.votAtGen then w (match g with | some y => y.gen | none => 0)
  else if ofs = Reg.votAtDecidl then w f.decid
  else if ofs = Reg.votAtDecidh then w (f.decid / 2 ^ 32)
  else none

/-- VOT_GOVLOG: word `i` of the log (R330). -/
def Agg.govWord (a : Agg) (i : Nat) : Nat :=
  match a.vote.log[i / 2]? with
  | some e => if i % 2 = 0 then e.1.toNat + 2 ^ 24 * b2n e.2.2 + 2 ^ 31 else e.2.1 / 2 ^ 32
  | none => 0

/-- VOT registers that the vote holds (R330); `k` is the die selected. -/
def Agg.votView (a : Agg) (ofs k : Nat) : Option Word :=
  let w := fun (n : Nat) => some (BitVec.ofNat 32 n)
  let v := a.vote
  if ofs = Reg.votStat then
    w (b2n (a.u.bit Reg.votStat 0) + 2 * b2n v.group.isolated + 4 * b2n v.system.isolated + 8 * b2n v.group.quiet
      + 16 * b2n v.system.quiet + 256 * (a.traysHeard % 128) + 65536 * (a.groupsHeard % 128) + 2 ^ 24 * v.adm.state)
  else if ofs = Reg.votGovcnt then w (a.govC + 256 * v.governed.length)
  else if ofs = Reg.votWgcnt then w (a.wgCount a.u.tb.now % 512)
  else if inRange ofs Reg.votGovlog 128 then w (a.govWord ((ofs - Reg.votGovlog) / 4))
  else a.votDieView ofs k

/-- GLB_ROLESTAT and GLB_PAIRSTAT (01 R47; 18 R594). -/
def Agg.roleView (a : Agg) (ofs : Nat) : Option Word :=
  let w := fun (n : Nat) => some (BitVec.ofNat 32 n)
  if ofs = Reg.glbRolestat then w (b2n a.vote.group.held + 2 * b2n a.vote.system.held + a.u.fld Reg.glbRolestat 3 2 * 4)
  else if ofs = Reg.glbPairstat then
    w (b2n a.pair.done + 2 * b2n a.pair.hello.isSome + 4 * b2n a.pair.alone + a.u.fld Reg.glbPairstat 4 3 * 8)
  else if ofs = Reg.hltAggstat then
    w (((a.upPorts 0xFF).map fun k => 2 ^ k).sum + 256 * (((List.range 8).filter a.u.raceUp).map fun k => 2 ^ k).sum
      + 65536 * b2n a.jrn.ready + 2 ^ 24 * a.u.fld Reg.hltAggstat 31 24)
  else none

end Sys2Proof.Machine
end

