-- ==== Sys2Proof/Machine/Security.lean ====
section
/-! DEFINITION. Operator commands (16 R539-R541), attestation (16 R542), firmware swap and commit (16 R536-R538), the
audit trail in flash (16 R547), and the registers of the SEC and AUD blocks (16 R549, R550). -/

namespace Sys2Proof

/-- Bytes of an operator command (16 R539). -/
def OpCmd.bytes (c : OpCmd) (opc : Nat) (args : List Byte) : List Byte :=
  [0x4B, 0x5A, 0x4F, 0x50, 1, 0] ++ Machine.leBytes 2 opc ++ Machine.leBytes 3 c.target.toNat ++ Machine.zeros 1
    ++ Machine.leBytes 10 c.issue.toNat ++ Machine.zeros 2 ++ Machine.leBytes 8 c.nonce.toNat
    ++ Machine.leBytes 4 args.length ++ args ++ c.sig

end Sys2Proof

namespace Sys2Proof.Machine

/-! ### Operator commands -/

/-- Opcodes of R541. -/
def opcodes : List Nat := [1, 2, 3, 0x10, 0x11, 0x20, 0x21, 0x30, 0x31, 0x32]

/-- OPC of a command's bytes. -/
def opcOf (b : List Byte) : Nat := leAt b 6 2

/-- Arguments of a command's bytes. -/
def opArgs (b : List Byte) : List Byte := slice b 36 (leAt b 0x20 4)

/-- The header is well formed and the length fits it (16 R539). -/
def opFormat (b : List Byte) : Bool :=
  decide (leAt b 0 4 = 0x504F5A4B) && decide (leAt b 4 2 = 1) && decide (leAt b 0x0B 1 = 0) && decide (leAt b 0x16 2 = 0)
    && decide (leAt b 0x20 4 ≤ 8600) && decide (b.length = 132 + leAt b 0x20 4) && opcodes.contains (opcOf b)

/-- Arguments of OPEN and TEARDOWN (16 R541). -/
def wgArgs (g : WatchGroup) : List Byte :=
  leBytes 2 g.wgid.toNat ++ zeros 2 ++ leBytes 10 g.tf.toNat ++ zeros 2 ++ leBytes 2 g.trays.length ++ zeros 2
    ++ (g.trays.map fun t => leBytes 1 (t.1.toNat / 64) ++ leBytes 1 (t.1.toNat % 64) ++ zeros 2
          ++ (t.2.map fun w => leBytes 4 w.toNat).flatten).flatten

/-- The watch group that arguments of OPEN or TEARDOWN describe. -/
def wgOf (b : List Byte) : WatchGroup :=
  { wgid := BitVec.ofNat 12 (leAt b 0 2), tf := BitVec.ofNat 80 (leAt b 4 10)
    trays := (List.range (leAt b 16 2)).map fun i =>
      let o := 20 + 36 * i
      (BitVec.ofNat 12 (leAt b o 1 * 64 + leAt b (o + 1) 1),
        (List.range 8).map fun k => BitVec.ofNat 32 (leAt b (o + 4 + 4 * k) 4)) }

/-- Lengths and reserved bytes of the arguments of an opcode (16 R541). -/
def opArgsOk (opc : Nat) (b : List Byte) : Bool :=
  let n := b.length
  let zero := fun (o k : Nat) => decide (leAt b o k = 0)
  if opc = 1 ∨ opc = 2 then
    decide (n = 20 + 36 * leAt b 16 2) && decide (leAt b 0 2 < 4096) && zero 2 2 && zero 14 2 && zero 18 2
      && (List.range (leAt b 16 2)).all fun i =>
        decide (leAt b (20 + 36 * i) 1 < 64) && decide (leAt b (21 + 36 * i) 1 < 64) && zero (22 + 36 * i) 2
  else if opc = 3 then decide (n = 4) && decide (leAt b 0 1 < 64) && zero 1 1
  else if opc = 0x10 then decide (n = 8) && decide (1 ≤ leAt b 4 2) && decide (leAt b 4 2 ≤ 128) && zero 6 2
  else if opc = 0x11 then decide (n = 4) && decide (leAt b 0 1 < 4) && zero 1 3
  else if opc = 0x20 then decide (n = 164) && zero 1 3
  else if opc = 0x21 then decide (n = 20) && decide (leAt b 16 1 < 64) && decide (leAt b 17 1 < 64) && zero 18 2
      && decide (leAt b 0 16 = devid .agg)
  else if opc = 0x30 ∨ opc = 0x31 then operatorCert b
  else decide (n = 16) && decide (leAt b 0 16 = devid .agg)

/-- The state that a command needs (16 R541): ENROLL an UNOWNED part and an access port, KEYROTATE the same OWNERID. -/
def Unit.opStateOk (u : Unit) (opc : Nat) (args : List Byte) (port : Bool) : Bool :=
  if opc = 0x30 then u.pat.owner.isNone && port
  else if opc = 0x31 then u.pat.owner == some (certOwner args)
  else true

/-- Key that verifies a command (16 R539, R541): the owner's; of ENROLL the certificate's. -/
def Unit.opKey (u : Unit) (b : List Byte) : Option Nat :=
  if opcOf b = 0x30 then some (certKey (opArgs b))
  else if u.pat.cert.isEmpty then none else some (certKey u.pat.cert)

/-- The part accepts no command of this time (16 R540). -/
def Unit.opLate (u : Unit) (issue : Nat) : Bool :=
  !u.epochsFire || decide (((u.tb.now : Int) - (issue : Int)).natAbs > 10 * 2 ^ 32)

/-- Pairs accepted in the last 20 s, at most 4,096 (16 R540). -/
def Unit.opSeen (u : Unit) : List (Nat × Nat × Nat) :=
  lastN 4096 (u.secu.seen.filter fun p => decide (u.since p.2.2 ≤ msT 20000))

/-- RESULT of a command (16 R540): 0, or the first failure. `names` says whether TARGET names the part.
Mark: DEDUCED (log entry 34, unsafe). -/
def Unit.opCode (u : Unit) (b : List Byte) (names : Node → Bool) (port : Bool) : Nat :=
  let opc := opcOf b
  let args := opArgs b
  let issue := leAt b 0x0C 10
  let nonce := leAt b 0x18 8
  if !opFormat b then 1
  else match u.opKey b with
    | none => 3
    | some k =>
      let n := b.length - 96
      if !Config.sigValid k (Config.sha384 (b.take n)) (b.drop n) then 2
      else if u.opLate issue then 4
      else if u.opSeen.any fun p => decide (p.1 = issue) && decide (p.2.1 = nonce) then 5
      else if !names (BitVec.ofNat 24 (leAt b 8 3)) then 6
      else if !opArgsOk opc args then 7
      else if !u.opStateOk opc args port then 8
      else 0

/-- A command fails (16 R540, R544). -/
def Unit.opReject (u : Unit) (b : List Byte) (code : Nat) (stamp : Word) (onode : Node) : Unit :=
  let u := { u with secu := { u.secu with result := code } }.err Reg.secErr 0
  u.audit 8 stamp onode (opcOf b) code 0 (Config.sha384 b)

/-- A command is accepted (16 R540, R544). -/
def Unit.opAccept (u : Unit) (b : List Byte) (stamp : Word) (onode : Node) : Unit :=
  let seen := lastN 4096 (u.opSeen ++ [(leAt b 0x0C 10, leAt b 0x18 8, u.clk)])
  let u := { u with secu := { u.secu with result := 0, seen := seen } }.count Reg.secCmdcnt
  u.audit 7 stamp onode (opcOf b) 0 0 (Config.sha384 b)

/-- TARGET names this aggregator, a group that it belongs to, or every part (16 R540; 08 R290). -/
def Agg.opNames (a : Agg) (n : Node) : Bool :=
  addrEff n == a.u.node || n == 0xFFFFFF || n == a.ctl || (n == systemCtl && a.vote.group.held)
    || a.vote.groups.any fun g => wgAddr g.wgid == n

/-- Owner and certificate change (16 R519, R544). -/
def Unit.setOwner (u : Unit) (what : Nat) (owner : Option Nat) (cert : List Byte) (stamp : Word) (onode : Node) : Unit :=
  let h := fun (c : List Byte) => if c.isEmpty then (0 : Digest) else Config.sha384 c
  let u' := { u with pat := { u.pat with owner := owner, cert := cert } }
  u'.audit 9 stamp onode what 0 (h u.pat.cert) (h cert)

/-- RELEASE (16 R519): UNOWNED; the stored patterns, the node override and the MACsec keys are erased. The part's own
pattern empties at the next main latch. Mark: DEDUCED (log entry 34, unsafe). -/
def Agg.releaseOwner (a : Agg) (stamp : Word) (onode : Node) : Agg :=
  let u := a.u.setOwner 2 none [] stamp onode
  let pend := if u.pat.meas.isSome then some u.emptyContent else none
  let u := { u with pat := { u.pat with dstore := [], dmeas := none, pending := pend } }
  { a with u := u, ovr := none, cak := []
           ports := a.ports.map fun p => (p.1, { p.2 with msec := ⟨false, false, false, 0, 0, false⟩ }) }

/-- What an accepted command does (16 R541). Mark: DEDUCED (log entry 34, unsafe). -/
def Agg.opAct (a : Agg) (b : List Byte) (stamp : Word) (onode : Node) : Agg :=
  let opc := opcOf b
  let x := opArgs b
  if opc = 1 then a.groupCommand (wgOf x) true b
  else if opc = 2 then a.groupCommand (wgOf x) false b
  else if opc = 3 then a.setSpares (leAt x 0 1) (leAt x 2 2)
  else if opc = 0x10 then { a with u := a.u.evRead (leAt x 0 4) (leAt x 4 2) }
  else if opc = 0x11 then { a with u := a.u.evClear (decide (leAt x 0 1 % 2 = 1)) (decide (leAt x 0 1 ≥ 2)) }
  else if opc = 0x20 then
    { a with cak := (bitList (leAt x 0 1) 8).foldl (fun t p => Tab.put p (leAt x 4 16, x.drop 20) t) a.cak }
  else if opc = 0x21 then { a with ovr := some (leAt x 16 1 * 64 + leAt x 17 1) }
  else if opc = 0x30 then { a with u := a.u.setOwner 0 (some (certOwner x)) x stamp onode }
  else if opc = 0x31 then { a with u := a.u.setOwner 1 (some (certOwner x)) x stamp onode }
  else a.releaseOwner stamp onode

/-- An operator command is handled (16 R539-R541). -/
def Agg.opHandle (a : Agg) (b : List Byte) (stamp : Word) (onode : Node) (port : Bool) : Agg :=
  let code := a.u.opCode b a.opNames port
  if code ≠ 0 then { a with u := a.u.opReject b code stamp onode }
  else { a with u := a.u.opAccept b stamp onode }.opAct b stamp onode

/-- An operator command at an aggregator: while the control cluster restarts it waits (16 R537). -/
def Agg.opCommand (a : Agg) (b : List Byte) (stamp : Word) (onode : Node) (port : Bool) : Agg :=
  if a.u.inReset 5 then
    a.onU fun u => { u with secu := { u.secu with waiting := u.secu.waiting ++ [⟨b, stamp, onode, port⟩] } }
  else a.opHandle b stamp onode port

/-- The commands that waited for the control cluster (16 R537). -/
def Agg.opWaited (a : Agg) : Agg :=
  a.u.secu.waiting.foldl (fun (a : Agg) w => a.opHandle w.bytes w.stamp w.onode w.port)
    (a.onU fun u => { u with secu := { u.secu with waiting := [] } })

/-- An operator command as a row brings it (16 R539). Mark: DESIGN CHOICE (log entry 16, unsafe). -/
def Agg.opRow (a : Agg) (c : OpCmd) (opc : Nat) (args : List Byte) : Agg :=
  let b := c.bytes opc args
  match c.via with
  | .port o => if o.suits .agg then a.opCommand b o.stamp 0 (!o.sideK) else a
  | .fleet i => a.arrive i fun a => a.opCommand b 0xF010F000 i.orig false

/-- The command that SEC_CMDDATA holds (16 R539, R549). -/
def Unit.opWords (u : Unit) : List Byte :=
  let w := fun (i : Nat) => leBytes 4 (u.rdN Reg.secCmddata i)
  let n := 33 + (u.rdN Reg.secCmddata 8 + 3) / 4
  (((List.range (min n 4096)).map w).flatten).take (132 + u.rdN Reg.secCmddata 8)

/-- SEC_CMDSTAT.GO at an aggregator. -/
def Agg.opGo (a : Agg) (o : Origin) : Agg := a.opCommand a.u.opWords o.stamp 0 (!o.sideK)

/-- SEC_CMDSTAT.GO at a die unit: no command of R541 acts on a die unit, so one that passes every check fails as STATE. -/
def Unit.opGo (u : Unit) (o : Origin) : Unit :=
  let b := u.opWords
  let names := fun (n : Node) => n == u.node || n == 0xFFFFFF
  let code := u.opCode b names true
  u.opReject b (if code = 0 then 8 else code) o.stamp o.onode

/-! ### Attestation -/

/-- Number of a part among the fused values. -/
def partNo : Part → Nat
  | .die => 0
  | .agg => 1

/-- ATTEST (16 R542, R549): while a report is being produced it is ignored and sets ATTBUSY. -/
def Unit.attest (u : Unit) : Unit :=
  if u.secu.nonce.isSome then u.err Reg.secErr 1
  else
    let n := ((List.range 8).map fun i => leBytes 4 (u.rdN (Reg.secNonce + 4 * i))).flatten
    { u with secu := { u.secu with nonce := some n, ready := false } }

/-- The image of the active bank. -/
def Firmware.image (f : Firmware) : Option FwImage :=
  if f.active = 0 then f.bank0 else if f.active = 1 then f.bank1 else none

/-- Bytes 0x00-0xCF of an attestation report (16 R542). `cru` is the state of the Crucible: [0] fused off, [1] sealed.
`fwm` stands for the digest of the base image, to which the spec gives none. -/
def Unit.report (u : Unit) (nonce : List Byte) (cru fwm : Nat) : List Byte :=
  let m := match u.pat.meas with | some d => d.toNat | none => 0
  let img := u.pat.fw.image
  let fl := b2n u.pat.provisional + 2 * b2n u.pat.foreign + 4 * b2n (!u.sco.damaged.isEmpty) + 8 * cru
  ([0x4B, 0x5A, 0x41, 0x54, 1] : List Byte) ++ leBytes 1 (match u.kind with | .die => 0x44 | .agg => 0x54) ++ zeros 2
    ++ leBytes 16 (devid u.kind) ++ nonce ++ leBytes 10 u.tb.now ++ leBytes 1 u.tb.tq ++ zeros 1
    ++ leBytes 3 (if u.nodeOk then u.node.toNat else 0) ++ zeros 1 ++ leBytes 8 (u.pat.owner.getD 0) ++ leBytes 48 m
    ++ leBytes 4 u.pat.insgen ++ leBytes 4 u.pat.arb ++ leBytes 4 u.pat.arbMin
    ++ leBytes 1 (match img with | some i => i.svn | none => 0) ++ leBytes 1 u.pat.fw.fuse ++ leBytes 1 u.pat.fw.active
    ++ leBytes 1 fl ++ leBytes 48 (match img with | some i => i.digest.toNat | none => fwm)
    ++ leBytes 4 (Config.fused (partNo u.kind) 3) ++ zeros 12

/-- ATTEST_READY (16 R542): the report, signed by the device key; with REC it is also committed. -/
def Unit.attestReady (u : Unit) (cru : Nat) : Unit :=
  match u.secu.nonce with
  | none => u
  | some n =>
    let d := u.draw
    let b := d.2.report n cru d.1
    let b := b ++ Config.sign u.deviceKey (Config.sha384 b)
    let u := ({ d.2 with secu := { u.secu with nonce := none, buf := b, ready := true } }.count Reg.secAttcnt).irq 9
    if u.bit Reg.secAttctl 2 then u.record 0x21 .record (audPayload 1 b) else u

/-- The device certificate, rebuilt from the fused fields (16 R517, R518). -/
def deviceCert (p : Part) : List Byte :=
  let f := Config.fused (partNo p)
  [0x4B, 0x5A, 0x43, 0x54, 1, BitVec.ofNat 8 (2 + partNo p)] ++ zeros 2 ++ leBytes 16 (devid p) ++ leBytes 10 (f 0)
    ++ zeros 2 ++ leBytes 96 (Config.romKey (3 + partNo p)) ++ zeros 12 ++ leBytes 96 (f 1)

/-- CERT (16 R542): the device certificate and the product CA certificate; an aggregator adds that of the meter key
(17 R560). -/
def Unit.cert (u : Unit) : Unit :=
  let meter := if u.isAgg then leBytes 240 (Config.fused 1 4) else []
  let b := deviceCert u.kind ++ leBytes 240 (Config.fused (partNo u.kind) 2) ++ meter
  { u with secu := { u.secu with buf := b, ready := true } }.irq 9

/-- BUFDATA_READ (16 R549): the word, and the index advances. -/
def Unit.bufRead (u : Unit) : Unit × Word :=
  let i := u.fld Reg.secBufidx 7 0
  (u.wrN Reg.secBufidx ((i + 1) % 256), BitVec.ofNat 32 (leAt u.secu.buf (4 * i) 4))

/-- SECDATA_READ (16 R548): the word of the selected section, and SECOFS advances by 4. -/
def Unit.secRead (u : Unit) (i : Nat) : Unit × Word :=
  let o := u.rdN Reg.patAtSecofs i
  let b := match Tab.find i u.allSecs with | some s => s.bytes | none => []
  (u.wrN Reg.patAtSecofs (o + 4) i, BitVec.ofNat 32 (leAt b o 4))

/-! ### Firmware -/

/-- The bank that is not active (16 R536). -/
def Firmware.other (f : Firmware) : Nat := if f.active = 0 then 1 else 0

/-- The image of the inactive bank. -/
def Firmware.otherImage (f : Firmware) : Option FwImage := if f.other = 0 then f.bank0 else f.bank1

/-- Hash of an image for the audit. -/
def imageHash (i : Option FwImage) : Digest := match i with | some x => x.digest | none => 0

/-- The active bank changes (16 R537, R544). -/
def Unit.fwSwitch (u : Unit) (bank : Nat) (stamp : Word) (onode : Node) : Unit :=
  let f := u.pat.fw
  let f' := { f with active := bank, previous := f.active, swapAt := none, startAt := some u.clk }
  let f' := { f' with verified := f'.otherImage.isSome }
  let u := { u with pat := { u.pat with fw := f' } }
  u.audit 6 stamp onode (match f'.image with | some i => i.svn | none => 0) bank (imageHash f.image) (imageHash f'.image)

/-- FW_SWAP (16 R537): the unit, and whether the switch is a partition reset. A swap that waits for the idle point is made
by `fwIdle`. Without a verified inactive bank nothing happens. -/
def Unit.fwSwap (u : Unit) (stamp : Word) (onode : Node) : Unit × Bool :=
  let f := u.pat.fw
  match f.otherImage with
  | none => (u, false)
  | some i =>
    if !f.verified then (u, false)
    else
      let same := match f.image with | some x => x.stv == i.stv | none => false
      if u.isDie && same then
        ({ u with pat := { u.pat with fw := { f with swapAt := some u.clk } } }, false)
      else (u.fwSwitch f.other stamp onode, true)

/-- The Ladle reaches an idle point: a waiting swap is made (16 R537). -/
def Unit.fwIdle (u : Unit) : Unit :=
  match u.pat.fw.swapAt with
  | some _ => u.fwSwitch u.pat.fw.other 0xF000F000 0
  | none => u

/-- FW_REVERT (16 R537): 1 s after its start the new firmware has not declared itself healthy. -/
def Unit.fwRevert (u : Unit) : Unit × Bool :=
  match u.pat.fw.startAt with
  | some c =>
    if u.since c < msT 1000 then (u, false)
    else
      let u := u.fwSwitch u.pat.fw.previous (if u.isDie then 0xF000F000 else 0xF010F000) 0
      ({ u with pat := { u.pat with fw := { u.pat.fw with reverted := true, startAt := none } } }.alarm .reverted, true)
  | none => (u, false)

/-- FW_COMMIT (16 R538): the fuse SVN rises to the lower of the banks' SVNs, or the write is refused as SVN.
Mark: DEDUCED (log entry 34, unsafe). -/
def Unit.fwCommit (u : Unit) (stamp : Word) (onode : Node) : Unit :=
  let f := u.pat.fw
  let svn := fun (i : Option FwImage) => match i with | some x => x.svn | none => 0
  let n := min (svn f.bank0) (svn f.bank1)
  if n ≤ f.fuse then { u with pat := { u.pat with result := 12 } }.err Reg.patErr 12
  else { u with pat := { u.pat with fw := { f with fuse := n } } }.audit 10 stamp onode n 0 0 0

/-! ### The audit trail -/

/-- Entries that the flash trail holds: 16 MiB in pages of 4 KiB, 30 to a page; a sector holds 480 (16 R547).
Mark: DEDUCED (log entry 35, unsafe). -/
def trailCap : Nat := 122880

/-- AUDIT_FLASH_WRITE (16 R547): the entries waiting are written; the oldest sector goes when room is needed. A write that
fails (`ok` false) sets FLASHFAIL, and its entries wait on (R550). Mark: DEDUCED (log entry 35, unsafe). -/
def Unit.audFlash (u : Unit) (ok : Bool) : Unit :=
  if !u.isAgg || u.aud.pendFlash.isEmpty then u
  else if !ok then u.err Reg.audErr 1
  else
    let l := u.aud.flash ++ u.aud.pendFlash
    let beyond := l.length - trailCap
    let l := if beyond = 0 then l else l.drop ((beyond + 479) / 480 * 480)
    let own := (l.filter fun b => b.length == 136).map fun b => leAt b 0 4
    let ends := match own, own.getLast? with | f :: _, some e => some (f, e) | _, _ => none
    { u with aud := { u.aud with flash := l, pendFlash := [], flashOwn := ends } }

/-- An AUDIT record of a die unit of the tray is journaled (16 R547). Mark: DEDUCED (log entry 35, unsafe). -/
def Unit.audIn (u : Unit) (r : Rec) : Unit := { u with aud := { u.aud with pendFlash := u.aud.pendFlash ++ [r.payload] } }

/-! ### Registers -/

/-- SEC registers that the state gives (16 R549). Mark: DEDUCED (log entry 35, unsafe). -/
def Unit.secView (u : Unit) (ofs : Nat) : Option Word :=
  let w := fun (n : Nat) => some (BitVec.ofNat 32 n)
  if ofs = Reg.secStat then
    w (3 + 4 * b2n u.pat.owner.isSome + 8 * b2n u.secu.nonce.isSome + 16 * b2n u.secu.ready)
  else if Reg.secDevid ≤ ofs ∧ ofs < Reg.secDevid + 16 then w (devid u.kind >>> (8 * (ofs - Reg.secDevid)))
  else if ofs = Reg.secBufdata then w (leAt u.secu.buf (4 * u.fld Reg.secBufidx 7 0) 4)
  else if ofs = Reg.secBuflen then w u.secu.buf.length
  else if ofs = Reg.secCmddata then some (u.rd Reg.secCmddata (u.fld Reg.secCmdidx 11 0))
  else if ofs = Reg.secCmdstat then w (2 * b2n (!u.secu.waiting.isEmpty) + 256 * u.secu.result)
  else none

/-- AUD registers that the trail gives (16 R550). -/
def Unit.audView (u : Unit) (ofs : Nat) : Option Word :=
  let w := fun (n : Nat) => some (BitVec.ofNat 32 n)
  if ofs = Reg.audStat then
    w (satN 11 (u.aud.ring.filter fun e => e.mark != 2).length + 65536 * b2n (!u.aud.pendFlash.isEmpty))
  else if ofs = Reg.audAseq then w u.aud.next
  else if Reg.audRd ≤ ofs ∧ ofs < Reg.audRd + 136 then
    w (match u.aud.ring[u.fld Reg.audRingidx 9 0]? with
       | some e => leAt (audBytes e) (ofs - Reg.audRd) 4
       | none => 0)
  else if ofs = Reg.audFfirst then w (match u.aud.flashOwn with | some p => p.1 | none => 0)
  else if ofs = Reg.audFlast then w (match u.aud.flashOwn with | some p => p.2 | none => 0)
  else none

end Sys2Proof.Machine
end

