-- ==== Sys2Proof/Machine/Zero.lean ====
section
/-! DEFINITION. The common state of a part as power-on leaves it, before straps are sampled and an address is taken:
every store empty, every register at its reset value, the timebase in UNSET. -/

namespace Sys2Proof.Machine

/-- PTP servo at rest. -/
def ptp0 : Ptp := ⟨none, none, none, 0, 0, 0, 0, 0, none, none⟩

/-- The timebase in UNSET (02 R57). -/
def timebase0 : Timebase :=
  { now := 0, sub := 0, tq := 5, good := 0, bad := 0, lastMark := none, markAt := 0, holdSince := 0, lastPe := 0, qual := none
    next := none, mism := none, refused := none, ptp := ptp0 }

/-- No epoch has fired. -/
def epochs0 : Epochs :=
  { um := 0, uf := 0, started := false, lastMain := 0, lastFast := 0, anyMain := false, mcnt := 0, fcnt := 0
    catchTo := none, catchClk := 0, pend := none, voided := false, fired := [] }

/-- No record is held. -/
def records0 : Records :=
  { streams := [], held := [], dign := 0, refRec := 0, refBulk := 0, refusing := false, refEpoch := none
    powerFail := false, off := false, waiting := [], alarmEpoch := none, gens := [] }

/-- The event recorder, empty. -/
def recorder0 : Recorder :=
  { tokens := [], refillMs := 0, held := [], ring := [], nseq := 0, history := [], unflushed := [], flushClk := 0 }

/-- The audit trail, empty. -/
def audit0 : Audit := { ring := [], next := 0, gap := false, flash := [], pendFlash := [], flashOwn := none }

/-- The compression engine at rest. -/
def flume0 : Flume :=
  { queue := [], cur := none, lastLevel := 0, lastForced := false, refs := [], keys := [], vqueue := [], vrefs := []
    inBytes := 0, outBytes := 0 }

/-- No firmware bank is valid: the base image runs (16 R536; log entry 6).
Mark: DESIGN CHOICE (log entry 6, unsafe). -/
def firmware0 : Firmware :=
  { bank0 := none, bank1 := none, active := 2, verified := false, reverted := false, fuse := 0, swapAt := none
    startAt := none, previous := 2 }

/-- No pattern, no owner. A die unit is provisional until its first handshake (16 R520). -/
def pat0 (k : Part) : Pat :=
  { secs := [], meas := none, arb := 0, insgen := 0, arbMin := 0, arbMinD := 0, owner := none, cert := []
    provisional := decide (k = .die), foreign := false, patOwner := none, loading := none, verifying := none
    pending := none, result := 0, fw := firmware0, dstore := [], dmeas := none }

/-- The scoring island, empty. -/
def score0 : Score :=
  { bank0 := ⟨[], []⟩, bank1 := ⟨[], []⟩, active := 0, shadowValid := false, swap := none, swapNext := none, swapn := 0
    damaged := [], lostModel := [], badLeaf := [], storeErr := [], scrub := 0, nextVec := 0, vecs := [], mainFeats := [], awaited := [], lastFeats := [], lastEpn := 0
    trees := [], runTree := [], treeQ := [], partners := [], outs := [], runDense := none, denseQ := [], waits := []
    denseEpn := [], skip := 0 }

/-- The drift unit, empty: as after any loss of power, its first change record carries RESTART (06 R242). -/
def drift0 : Drift := { metrics := [], batches := [], restart := true, lastBand := none, lastEpn := 0 }

/-- Memories without errors. -/
def ras0 : Ras := { err := [], mems := [], flip := none, resets := [], wb := [], dmaAt := [] }

/-- Mailboxes empty. -/
def mbx0 : Mbx := { chans := [], epochH := 0, epochK := 0, resetH := false, resetK := false, wake := false }

/-- Ports DOWN. -/
def race0 : Race := { ports := [], setgen := [], gen := [], switched := [], genFail := [], fell := [], len := 0, cand := none, apass := false }

/-- No command accepted, no report made. -/
def sec0 : Sec := { seen := [], buf := [], ready := false, nonce := none, result := 0, waiting := [] }

/-- The common state of a part at power-on. -/
def unit0 (k : Part) : Unit :=
  { kind := k, node := 0, nodeOk := false, clk := 0, fresh := (match k with | .die => 0 | .agg => 1), out := [], regs := []
    sel := [], latch := [], resp := 0
    tb := timebase0, ep := epochs0, trg := ⟨[], []⟩, recs := records0, evr := recorder0, aud := audit0, flm := flume0
    pat := pat0 k, sco := score0, drf := drift0, ras := ras0, mbx := mbx0, race := race0, secu := sec0 }

end Sys2Proof.Machine
end

