-- ==== Sys2Proof/Machine/Crucible.lean ====
section
/-! DEFINITION. The Crucible (17): its timebase, samples and the energy register (R553-R558), readings (R559, R560),
parameters and seal (R561, R562), the metrological log (R563, R564), CRLINK and the mirror in the aggregator (R565, R568),
and the allocation to jobs (R567). -/

namespace Sys2Proof.Machine

/-! ### Time -/

/-- The Crucible's timebase as the rules of 02 take it: a part with nothing else (17, after R553). -/
def Cru.asUnit (c : Cru) : Unit :=
  ({ unit0 .agg with clk := c.clk, fresh := c.fresh, tb := c.tb }).wr Reg.timFreq c.freq

/-- Take the timebase back. -/
def Cru.timed (c : Cru) (u : Unit) : Cru := { c with tb := u.tb, fresh := u.fresh, freq := u.rd Reg.timFreq }

/-- CRUCIBLE_MARK: an edge on CR_MARK, and the CR_TOD frame that came complete since the edge before (R553). -/
def Cru.mark (c : Cru) (f : Option (BitVec 128)) : Cru :=
  if !c.powered then c
  else
    let u := match f with | some x => (c.asUnit.todFrame x).1 | none => c.asUnit
    c.timed u.markEdge.1

/-- HOLDOVER and DEGRADED of the Crucible's timebase, as they stand at a sample.
Mark: DEDUCED (log entry 36, unsafe). -/
def Cru.aged (c : Cru) : Cru := c.timed c.asUnit.holdover.degraded

/-- A tick of the model's clock. Mark: DESIGN CHOICE (log entry 4, unsafe). -/
def Cru.tick (c : Cru) : Cru :=
  if !c.powered then c
  else
    let u := c.asUnit.tick
    { c with clk := u.clk, tb := u.tb }

/-! ### The energy register -/

/-- The meter key's number among the keys. -/
def meterKey : Nat := 5

/-- MID: as DEVID, with the meter key (R560). -/
def meterId : Nat := leNat (slice (leBytes 48 (Config.sha384
  ([0x4B, 0x5A, 0x49, 0x44] ++ leBytes 48 (Config.romKey meterKey))).toNat) 0 16)

/-- SWID, and the SWCRC fused with the ROM (R564). -/
def swid : Word := BitVec.ofNat 32 (Config.fused 2 0)
def fusedCrc : Word := BitVec.ofNat 32 (Config.fused 2 1)

/-- A parameter. -/
def Cru.par (c : Cru) (i : Nat) : Word := nth c.pars i 0

/-- PARCRC (R560). -/
def Cru.parcrc (c : Cru) : Word := crc32c ((c.pars.map fun w => leBytes 4 w.toNat).flatten)

/-- EMJ (R556). -/
def Cru.emj (c : Cru) : Nat := c.acc.toNat / (8 * 10 ^ 12) % 2 ^ 64

/-- EFRAC (R556). -/
def Cru.efrac (c : Cru) : Nat := c.acc.toNat % (8 * 10 ^ 12) * 2 ^ 32 / (8 * 10 ^ 12)

/-- LOGFULL is set (R563). -/
def Cru.logFull (c : Cru) : Bool := decide (c.log.length ≥ 1024)

/-- Bytes of a log entry (R563). -/
def logEntry (n kind pid time tq emj old new : Nat) : List Byte :=
  leBytes 2 n ++ leBytes 1 kind ++ leBytes 1 pid ++ leBytes 10 time ++ leBytes 2 tq ++ leBytes 8 emj ++ leBytes 4 old
    ++ leBytes 4 new

/-- Append one entry, and send it. -/
def Cru.logOne (c : Cru) (kind pid old new : Nat) : Cru :=
  let e := logEntry c.log.length kind pid c.tb.now c.tb.tq c.emj old new
  { c with log := c.log ++ [e], out := c.out ++ [.crlink (.logent e)] }

/-- Make a log entry (R563): entry 1,023 is LOGFULL's, made when entry 1,022 is used. -/
def Cru.logMake (c : Cru) (kind pid old new : Nat) : Cru :=
  if c.log.length ≥ 1023 then c
  else
    let c := c.logOne kind pid old new
    if c.log.length = 1023 then c.logOne 9 0 0 0 else c

/-- Enter ERROR (R554). -/
def Cru.fail (c : Cru) (cause : Nat) : Cru := if c.error then c else { c with error := true }.logMake 8 0 cause 0

/-- Voltage in microvolts of a code, and current in microamperes (R556). -/
def Cru.uOf (c : Cru) (v : BitVec 24) : Int := rhe ((v.toInt - (c.par 0).toInt) * (c.par 1).toInt) 24
def Cru.cOf (c : Cru) (i : BitVec 24) : Int := rhe ((i.toInt - (c.par 2).toInt) * (c.par 3).toInt) 24

/-- A code at either end of a channel's range (R556). -/
def atEnd (x : BitVec 24) : Bool := x == 0x7FFFFF || x == 0x800000

/-- The sample's part in the energy register (R556): nothing for a negative product, nothing in ERROR (R554). -/
def Cru.addEnergy (c : Cru) (p : Int) : Cru :=
  if p < 0 then { c with revcnt := satInc c.revcnt }
  else if c.error then c
  else { c with acc := c.acc + BitVec.ofInt 112 p }

/-- Log entries of a change of TQ between samples (R563). -/
def Cru.logTq (c : Cru) : Cru :=
  let old := c.lastTq
  let new := c.tb.tq
  let c := if old = 0 ∧ new ≠ 0 then c.logMake 6 0 0 new else if old ≠ 0 ∧ new = 0 then c.logMake 7 0 old 0 else c
  { c with lastTq := new }

/-- CRUCIBLE_SAMPLE (R555-R557, R563). `ue` says that the energy state read uncorrectable.
Mark: DEDUCED (log entry 36, unsafe). -/
def Cru.sample (c : Cru) (v i : BitVec 24) (ue : Bool) : Cru :=
  if !c.powered then c
  else
    let c := c.aged
    let u := c.uOf v
    let a := c.cOf i
    let ends := atEnd v || atEnd i
    let beyond := ends || decide (5 * a.natAbs > 6000 * (c.par 4).toNat)
    let c := c.addEnergy (u * a)
    let c := { c with
      sampn := c.sampn + 1, ovrcnt := if ends then satInc c.ovrcnt else c.ovrcnt, ulast := u, clast := a
      since := c.since + 1, lost := c.lost || decide (c.tb.tq ≠ 0), beyond := c.beyond || beyond, overNow := beyond }
    let c := c.logTq
    if ue then c.fail 1 else c

/-- CFLAGS (R560). -/
def Cru.cflags (c : Cru) : Nat :=
  b2n c.sealed + 2 * b2n c.broken + 4 * b2n c.lost + 8 * b2n c.beyond + 16 * b2n c.error + 32 * b2n c.restart
    + 64 * b2n c.logFull

/-- The reading instant: the latest whole multiple of RPER (R559). -/
def Cru.readingTime (c : Cru) : Nat :=
  let n := c.tb.now * 1000 / 2 ^ 32 / max 1 (c.par 5).toNat * max 1 (c.par 5).toNat
  n / 1000 * 2 ^ 32 + (n % 1000 * 2 ^ 32 + 999) / 1000

/-- Bytes 0x00-0x5F of a reading (R560). -/
def Cru.readingBytes (c : Cru) : List Byte :=
  leBytes 1 0 ++ leBytes 1 c.cflags ++ leBytes 1 c.tb.tq ++ zeros 1 ++ leBytes 4 c.rseq.toNat
    ++ leBytes 10 c.readingTime ++ zeros 2 ++ leBytes 8 c.emj ++ leBytes 4 c.efrac ++ leBytes 8 c.sampn.toNat
    ++ leBytes 4 c.revcnt.toNat ++ leBytes 4 c.ovrcnt.toNat ++ leBytes 4 (wrapN 32 c.ulast) ++ leBytes 4 (wrapN 32 c.clast)
    ++ leBytes 16 meterId ++ leBytes 4 swid.toNat ++ leBytes 4 c.swcrc.toNat ++ leBytes 4 c.parcrc.toNat
    ++ leBytes 2 c.log.length ++ zeros 10

/-- CRUCIBLE_READING (R559, R560). -/
def Cru.readingMake (c : Cru) : Cru :=
  if !c.powered then c
  else
    let b := c.readingBytes
    let b := b ++ Config.sign meterKey (Config.sha384 b)
    { c with rseq := c.rseq + 1, lost := false, beyond := false, restart := false, reading := some (b, c.clk)
             out := c.out ++ [.crlink (.reading b)] }

/-- READING_REPEAT: the second copy, 10 ms later (R559). -/
def Cru.readingRepeat (c : Cru) : Cru :=
  match c.reading with
  | some (b, t) =>
    if !c.powered || decide (c.clk < t + msT 10) then c
    else { c with reading := none, out := c.out ++ [.crlink (.reading b)] }
  | none => c

/-! ### CRLINK -/

/-- STAT: the state of R568 and its flags; STARTING until the first sample. Mark: DEDUCED (log entry 36, unsafe). -/
def Cru.stat (c : Cru) : Nat :=
  (if c.error then 4 else if c.since = 0 then 2 else 3) + 8 * b2n c.sealed + 16 * b2n c.broken + 64 * b2n c.overNow
    + 128 * b2n c.logFull + 256 * c.tb.tq

/-- CRLINK_LIVE (R565). -/
def Cru.live (c : Cru) : Cru :=
  if !c.powered then c
  else { c with out := c.out ++ [.crlink (.live (BitVec.ofNat 16 c.stat) (BitVec.ofNat 64 c.emj) (BitVec.ofNat 32 c.efrac)
    (BitVec.ofNat 80 c.tb.now) (BitVec.ofInt 32 c.ulast) (BitVec.ofInt 32 c.clast))] }

/-- CRLINK_IDENT (R565). -/
def Cru.ident (c : Cru) : Cru :=
  if !c.powered then c
  else { c with out := c.out ++ [.crlink (.ident (BitVec.ofNat 128 meterId) swid c.swcrc c.pars)] }

/-- LOG_RESEND (R563): one entry of the cycle; nothing in the place of one not yet made. -/
def Cru.logResend (c : Cru) : Cru :=
  if !c.powered then c
  else
    let o := match c.log[c.resend]? with | some e => [Out.crlink (.logent e)] | none => []
    { c with resend := (c.resend + 1) % 1024, out := c.out ++ o }

/-! ### The calibration port -/

/-- CAL_READ (R562): identification MID, SWID, SWCRC; a parameter; the register EMJ and EFRAC; the state.
Mark: DEDUCED (log entry 36, unsafe). -/
def Cru.calRead (c : Cru) (x : CalItem) : Cru :=
  if !c.powered then c
  else
    let b := match x with
      | .ident => leBytes 16 meterId ++ leBytes 4 swid.toNat ++ leBytes 4 c.swcrc.toNat
      | .par p => leBytes 4 (c.par p.val).toNat
      | .register => leBytes 8 c.emj ++ leBytes 4 c.efrac
      | .state => leBytes 2 c.stat
    { c with resp := b, nack := false }

/-- CAL_LOG_READ (R562): an entry that is not made answers with NACK. -/
def Cru.calLog (c : Cru) (n : Nat) : Cru :=
  if !c.powered then c
  else match c.log[n]? with
    | some e => { c with resp := e, nack := false }
    | none => { c with nack := true }

/-- A parameter's range (R561). -/
def parOk (p : Nat) (v : Word) : Bool :=
  let s := v.toInt
  if p = 0 ∨ p = 2 then decide (s.natAbs ≤ 2 ^ 23)
  else if p = 1 ∨ p = 3 then decide (1 ≤ s)
  else if p = 4 then decide (1000 ≤ v.toNat) && decide (v.toNat ≤ 300000)
  else if p = 5 then decide (100 ≤ v.toNat) && decide (v.toNat ≤ 60000) && decide (v.toNat % 100 = 0)
  else false

/-- CAL_WRITE (R561, R562): when sealed, only with CR_CALEN, and the BROKEN fuse first; where its entry fills the log, the
write is refused after it (R563).
Mark: DEDUCED (log entry 36, unsafe). -/
def Cru.calWrite (c : Cru) (p : Nat) (v : Word) (calen : Bool) : Cru :=
  if !c.powered then c
  else if c.logFull || (c.sealed && !calen) || !parOk p v then { c with nack := true }
  else
    let c := if c.sealed && !c.broken then { c with broken := true }.logMake 5 0 c.parcrc.toNat 0 else c
    if c.logFull then { c with nack := true }
    else { c.logMake 3 p (c.par p).toNat v.toNat with pars := setNth c.pars p v, nack := false }

/-- CAL_SEAL (R562). -/
def Cru.calSeal (c : Cru) (calen : Bool) : Cru :=
  if !c.powered then c
  else if c.sealed || !calen || c.logFull then { c with nack := true }
  else { c with sealed := true, nack := false }.logMake 4 0 0 c.parcrc.toNat

/-- CR_SEAL_LED (R562): 0 dark, 1 steady, 2 flashing at 1 Hz. -/
def Cru.led (c : Cru) : Nat := if !c.powered then 0 else if c.broken then 2 else if c.sealed then 1 else 0

/-! ### Power -/

/-- SWCRC_CHECK (R564, R554). -/
def Cru.swcrcCheck (c : Cru) (crc : Word) : Cru :=
  if !c.powered then c
  else
    let c := { c with swcrc := crc }
    if crc ≠ fusedCrc then c.fail 2 else c

/-- CRUCIBLE_POWERUP (R554, R563, R564): ERROR clears when its condition is gone. -/
def Cru.powerUp (c : Cru) (crc : Word) (ue : Bool) : Cru :=
  if c.powered then c
  else
    let c := { c with powered := true, clk := 0, freq := 0, tb := timebase0, since := 0, lost := false, beyond := false
                      overNow := false, lastTq := 5, restart := true, error := false, swcrc := crc, resend := 0
                      reading := none, resp := [], nack := false }
    let c := c.logMake 1 0 0 crc.toNat
    if ue then c.fail 1 else if crc ≠ fusedCrc then c.fail 2 else c

/-- CRUCIBLE_POWERDOWN (R563): the entry, and the state saved. -/
def Cru.powerDown (c : Cru) : Cru :=
  if !c.powered then c else { c.logMake 2 0 c.rseq.toNat 0 with powered := false, reading := none }

/-! ### The mirror in the aggregator -/

/-- The mirror before any frame (R568: ABSENT). -/
def mirror0 : Mirror :=
  { seen := none, stat := 0, emj := 0, efrac := 0, time := 0, vlast := 0, ilast := 0, rseq := none, revcnt := 0
    ovrcnt := 0, parcrc := 0, logn := 0, swid := 0, swcrc := 0, mid := 0, pars := [], log := [], last := none }

/-- Change the mirror. -/
def Agg.onCru (a : Agg) (f : Mirror → Mirror) : Agg := { a with cru := f a.cru }

/-- Package results of plan APLAN of the own tray, with the instants of their epochs. -/
def Agg.allocResults (a : Agg) : List (Nat × RdxResult) :=
  a.rdx.results.filter fun r => decide (r.2.key.plan.val = a.u.fld Reg.cruAlloccfg 13 8) && decide (r.2.key.scope.val = 0)
    && decide (trayOf r.2.key.addr = a.tray)

/-- Instant of the latest completed epoch before an instant (R567); 0 where there is none. -/
def Agg.allocEpoch (a : Agg) (t : Nat) : Nat :=
  ((a.allocResults.map Prod.fst).filter fun x => decide (x < t)).foldl max 0

/-- Weight of a package for the allocation: lane ALANE of its COMPLETE result of that epoch (R567). -/
def Agg.allocWeight (a : Agg) (at_ p : Nat) : Nat :=
  let lane := a.u.fld Reg.cruAlloccfg 20 16
  match a.allocResults.find? fun r => decide (r.1 = at_) && decide (bitsOf r.2.key.addr.toNat 9 7 = p) with
  | some (_, r) => if r.status.val = 0 then (match r.lanes[lane]? with | some l => l.value.toNat | none => 0) else 0
  | none => 0

/-- Shares of the watch groups of the tray, whole millijoules (R567): WGID, GEN, EMJ; WGID 0xFFF takes the rest. `time` is the
reading instant. -/
def Agg.alloc (a : Agg) (time de : Nat) : List (Nat × Nat × Nat) :=
  let w := (List.range 8).map (a.allocWeight (a.allocEpoch time))
  let tot := w.sum
  let share := fun (g : WGroup) =>
    ((List.range 8).map fun p =>
      let n := (a.chain p).len
      if tot = 0 ∨ n = 0 then 0 else de * w.getD p 0 * popCount ((g.masks a.tray).getD p 0) 32 / (tot * n)).sum
  let gs := a.vote.groups.filter fun g => ((g.masks a.tray).any fun m => decide (m ≠ 0))
    && (match g.until_ with | some t => decide (a.u.tb.now ≤ t) | none => true)
  let l := gs.map fun g => (g.wgid, g.gen, share g)
  l ++ [(0xFFF, 0, de - (l.map fun e => e.2.2).sum)]

/-- EKIND 1 payload (R567). -/
def allocPayload (rseq : Nat) (l : List (Nat × Nat × Nat)) : List Byte :=
  leBytes 1 1 ++ leBytes 1 l.length ++ zeros 2 ++ leBytes 4 rseq
    ++ (l.map fun e => leBytes 2 e.1 ++ zeros 2 ++ leBytes 4 e.2.1 ++ leBytes 8 e.2.2).flatten

/-- Commit an ENERGY record: its TIME is the reading instant, its GEN 0 (R559). -/
def Unit.energy (u : Unit) (time tq : Nat) (payload : List Byte) : Unit := u.submit ⟨0x23, 0, .record, time, tq, payload, none⟩

/-- The aggregator takes a reading (R559, R567): the first copy of an RSEQ is committed. -/
def Agg.energyIn (a : Agg) (b : List Byte) : Agg :=
  let rseq := leAt b 4 4
  if a.cru.rseq = some rseq then a
  else
    let time := leAt b 8 10
    let tq := leAt b 2 1
    let emj := leAt b 0x14 8
    let prev := a.cru.last
    let a := a.onCru fun m => { m with rseq := some rseq, revcnt := leAt b 0x28 4, ovrcnt := leAt b 0x2C 4
                                       parcrc := leAt b 0x50 4, logn := leAt b 0x54 2, last := some emj }
    let a := { a with u := a.u.energy time tq b }
    match prev with
    | none => a
    | some e =>
      if a.u.bit Reg.cruAlloccfg 0 && (decide (a.side = .a) || !a.partner) then
        { a with u := a.u.energy time tq (allocPayload rseq (a.alloc time (emj - e))) }
      else a

/-- CRLINK_RECEIVE (R565, R568). -/
def Agg.crlink (a : Agg) (f : CrFrame) (ok : Bool) : Agg :=
  if !ok then { a with u := a.u.count Reg.cruLinkerr }
  else
    let a := a.onCru fun m => { m with seen := some a.u.clk }
    match f with
    | .live st e fr t v i =>
      a.onCru fun m => { m with stat := st.toNat, emj := e.toNat, efrac := fr.toNat, time := t.toNat, vlast := v.toNat
                                ilast := i.toNat }
    | .reading b => a.energyIn b
    | .logent e =>
      a.onCru fun m => { m with log := Tab.put (leAt e 0 2) e m.log, logn := max m.logn (leAt e 0 2 + 1) }
    | .ident mid s c p => a.onCru fun m => { m with mid := mid.toNat, swid := s.toNat, swcrc := c.toNat, pars := p }

/-- CRU registers (R568). CRLINK is up while a frame has come within 2 ms, twice the period of LIVE. -/
def Agg.cruView (a : Agg) (ofs : Nat) : Option Word :=
  let w := fun (n : Nat) => some (BitVec.ofNat 32 n)
  let m := a.cru
  let up := match m.seen with | some c => decide (a.u.since c ≤ msT 2) | none => false
  if ofs = Reg.cruStat then w (if a.cruOff then 1 else m.stat % 32 + 32 * b2n up + m.stat / 64 * 64)
  else if ofs = Reg.cruEmjl then w m.emj
  else if ofs = Reg.cruEmjh then w (m.emj / 2 ^ 32)
  else if ofs = Reg.cruEfrac then w m.efrac
  else if ofs = Reg.cruTimef then w m.time
  else if ofs = Reg.cruTimes0 then w (m.time / 2 ^ 32)
  else if ofs = Reg.cruTimes1 then w (m.time / 2 ^ 64 % 2 ^ 16)
  else if ofs = Reg.cruVlast then w m.vlast
  else if ofs = Reg.cruIlast then w m.ilast
  else if ofs = Reg.cruRseq then w (m.rseq.getD 0)
  else if ofs = Reg.cruLogn then w m.logn
  else if ofs = Reg.cruSwid then w m.swid
  else if ofs = Reg.cruSwcrc then w m.swcrc
  else if ofs = Reg.cruParcrc then w m.parcrc
  else if Reg.cruMid ≤ ofs ∧ ofs < Reg.cruMid + 16 then w (m.mid >>> (8 * (ofs - Reg.cruMid)))
  else if ofs = Reg.cruRevcnt then w m.revcnt
  else if ofs = Reg.cruOvrcnt then w m.ovrcnt
  else if Reg.cruPar ≤ ofs ∧ ofs < Reg.cruPar + 32 then some (nth m.pars ((ofs - Reg.cruPar) / 4) 0)
  else if Reg.cruLog ≤ ofs ∧ ofs < Reg.cruLog + 32 then
    w (match Tab.find (a.u.fld Reg.cruLogidx 9 0) m.log with | some e => leAt e (ofs - Reg.cruLog) 4 | none => 0)
  else none

/-- State of the Crucible for an attestation report (16 R542): [0] fused off, [1] sealed.
Mark: DEDUCED (log entry 36, unsafe). -/
def Agg.cruFlags (a : Agg) : Nat := b2n a.cruOff + 2 * b2n (decide (a.cru.stat / 8 % 2 = 1))

end Sys2Proof.Machine
end

