-- ==== Sys2Proof/Machine/Ras.lean ====
section
/-! DEFINITION. Protection of internal memories (15_memory_protection), as far as it lies in the common part: the code
(R496, R497), correctable errors and remapping (R500-R502), the scrubber (R503), merge buffers (R504, R505), what is
common to every uncorrectable error (R506), DMA halts (R509), the accounting of partition resets (R510, R511) and the
checker test (R512). -/

namespace Sys2Proof.Machine

/-- The columns H_0 to H_31: the 7-bit values with three bits set, ascending (R496). -/
def eccCols : List Nat := (List.range 128).filter fun n => popCount n 7 == 3

/-- Column of bit `k` of a protected word: H_k for data, 2^j for check bit j (R496). -/
def eccCol (k : Nat) : Nat := if k < 32 then eccCols.getD k 0 else 2 ^ (k - 32)

/-- Check value of data (R496). -/
def eccCheck (data : Nat) : Nat := ((bitList data 32).map eccCol).foldl Nat.xor 0

/-- Syndrome of a difference from a codeword (R497): the XOR of the columns of the bits that differ. -/
def eccSyndrome (e : BitVec 39) : Nat := ((bitList e.toNat 39).map eccCol).foldl Nat.xor 0

/-- The bit that a correctable syndrome names (R497); none when the syndrome is uncorrectable. -/
def eccBit (s : Nat) : Option Nat := (List.range 39).find? fun k => eccCol k == s

/-- Words of a memory (R498); 0 where the part has none and for the ternary store. -/
def memWords (p : Part) (m : Nat) : Nat :=
  match p with
  | .die => [65536, 131072, 65536, 16384, 16384, 98304, 16384, 0, 24576, 16384, 49152, 8192, 14336].getD m 0
  | .agg => [0, 0, 0, 0, 0, 393216, 65536, 0, 24576, 0, 0, 8192, 57344, 65536, 65536, 2097152, 65536, 65536,
      753664].getD m 0

/-- The memory's island is powered and its partition out of reset (R498; 18 R569, R572). -/
def Unit.memOn (u : Unit) (m : Nat) : Bool :=
  if u.isAgg then
    !(if m = 5 ∨ m = 6 then u.inReset 1 else if m = 8 ∨ m = 12 ∨ m = 18 then u.inReset 3
      else if m = 13 ∨ m = 14 then u.inReset 5 else if m = 11 then false else u.inReset 6)
  else
    let p := u.power
    if m = 0 then decide (p < 2) && !u.inReset 0
    else if m = 2 then decide (p < 2) && !u.inReset 2
    else if m = 9 ∨ m = 10 then decide (p < 2) && !u.inReset 0
    else if m = 1 ∨ m = 8 ∨ m = 12 then decide (p < 3) && !u.inReset 3
    else if m = 3 ∨ m = 4 then (decide (p < 2) || u.bit Reg.pwrStat 5) && !u.inReset 4
    else if m = 5 ∨ m = 6 then decide (p = 0) && !u.inReset 1
    else true

/-- Key of a word's difference. -/
def errKey (m addr : Nat) : Nat := m * 2 ^ 24 + addr

/-- Difference of a stored word from its codeword. -/
def Unit.errAt (u : Unit) (m addr : Nat) : BitVec 39 := Tab.getD u.ras.err (errKey m addr) 0

/-- Store the difference of a word. -/
def Unit.setErr (u : Unit) (m addr : Nat) (e : BitVec 39) : Unit :=
  { u with ras := { u.ras with err := Tab.set 0 (errKey m addr) e u.ras.err } }

/-- Protection state of a memory that nothing has touched. -/
def mem0 : MemSt := ⟨List.replicate 8 none, List.replicate 4 none, 0, none, []⟩

/-- Protection state of a memory. -/
def Unit.memSt (u : Unit) (m : Nat) : MemSt := Tab.getD u.ras.mems m mem0

/-- Put it back. -/
def Unit.setMem (u : Unit) (m : Nat) (x : MemSt) : Unit :=
  { u with ras := { u.ras with mems := Tab.put m x u.ras.mems } }

/-- Arguments of MEMCE and its kin (R513). -/
def memArgs (m addr synd : Nat) : List Word := [BitVec.ofNat 32 m, BitVec.ofNat 32 addr, BitVec.ofNat 32 synd]

/-- Index of the entry of an address in the correctable-error table, or of the lowest free entry (R501). -/
def ceSlot (t : List (Option CeEnt)) (addr : Nat) : Option Nat :=
  match t.findIdx? fun e => e.any fun x => x.addr == addr with
  | some i => some i
  | none => t.findIdx? Option.isNone

/-- Enter an error in the table (R501, R506): the unit and the entry's new count, 0 when it finds no entry. -/
def Unit.ceEnter (u : Unit) (m addr synd : Nat) (ue : Bool) : Unit × Nat :=
  let x := u.memSt m
  match ceSlot x.ce addr with
  | none => ((u.count Reg.rasAtCeovf m).err Reg.rasErr 2, 0)
  | some i =>
    let old := match x.ce.getD i none with
      | some e => e
      | none => ⟨addr, synd, 0, false, false⟩
    let n := min 255 (old.count + 1)
    (u.setMem m { x with ce := x.ce.set i (some { old with synd := synd, count := n, ue := old.ue || ue }) }, n)

/-- A hard address is copied to a remap word, or there is none left (R502). -/
def Unit.remapWord (u : Unit) (m addr synd : Nat) : Unit :=
  let x := u.memSt m
  match x.remap.findIdx? Option.isNone with
  | none => (u.err Reg.rasErr 3).event 0x043 (memArgs m addr synd)
  | some k =>
    let ce := x.ce.map fun e => match e with
      | some y => some (if y.addr = addr then { y with remapped := true } else y)
      | none => none
    let u := u.setMem m { x with ce := ce, remap := x.remap.set k (some addr) }
    u.event 0x042 [BitVec.ofNat 32 (m + 256 * k), BitVec.ofNat 32 addr]

/-- A correctable error on a read (R500-R502): the write-back waits. -/
def Unit.correctable (u : Unit) (m addr synd bit : Nat) : Unit :=
  let u := ((u.count Reg.rasAtCecnt m).count Reg.rasCecnt).err Reg.rasErr 0
  let u := { u with ras := { u.ras with wb := if u.ras.wb.contains (m, addr) then u.ras.wb else u.ras.wb ++ [(m, addr)] } }
  let r := u.ceEnter m addr synd false
  let u := r.1.event 0x040 (memArgs m addr synd)
  if r.2 = 2 ∧ u.bit Reg.rasCtrl 1 then
    let u := u.setErr m addr (u.errAt m addr ^^^ BitVec.ofNat 39 (2 ^ bit))
    { u with ras := { u.ras with wb := u.ras.wb.filter fun w => w != (m, addr) } }.remapWord m addr synd
  else u

/-- What is common to every uncorrectable error (R506): recorded, counted, reported, and the word rewritten as 0. -/
def Unit.uncorrectable (u : Unit) (m addr synd : Nat) : Unit :=
  let u := ((u.count Reg.rasAtUecnt m).count Reg.rasUecnt).err Reg.rasErr 1
  let u := (u.ceEnter m addr synd true).1
  let u := u.setMem m { u.memSt m with lastUe := some (addr, synd) }
  let u := (u.irq 3).event 0x041 (memArgs m addr synd)
  { u.setErr m addr 0 with ras := { (u.setErr m addr 0).ras with wb := u.ras.wb.filter fun w => w != (m, addr) } }

/-- Read a word (R497): the unit, and the syndrome of an uncorrectable error. -/
def Unit.readWord (u : Unit) (m addr : Nat) : Unit × Option Nat :=
  let s := eccSyndrome (u.errAt m addr)
  if s = 0 then (u, none)
  else match eccBit s with
    | some b => (u.correctable m addr s b, none)
    | none => (u, some s)

/-- Advance the scrubber of a memory (R503). -/
def Unit.scrubNext (u : Unit) (m : Nat) : Unit :=
  let x := u.memSt m
  let n := memWords u.kind m
  let u := u.setMem m { x with scrub := if x.scrub + 1 < n then x.scrub + 1 else 0 }
  if x.scrub + 1 < n then u else u.count Reg.rasAtPasscnt m

/-- The scrubber reads this memory (R503). -/
def Unit.scrubs (u : Unit) (m : Nat) : Bool :=
  u.bit Reg.rasCtrl 0 && decide (u.fld Reg.rasAtScrubper 23 0 m ≠ 0) && decide (0 < memWords u.kind m) && u.memOn m

/-- A scrub read of the next word, which an upset may have struck (R503): the unit, and address and syndrome of an
uncorrectable error. Mark: DEDUCED (log entry 40, safe). -/
def Unit.scrubRead (u : Unit) (m : Nat) (upset : BitVec 39) : Unit × Option (Nat × Nat) :=
  let a := (u.memSt m).scrub
  let u := u.setErr m a (u.errAt m a ^^^ upset)
  if !u.scrubs m then (u, none)
  else
    let r := u.readWord m a
    (r.1.scrubNext m, r.2.map fun s => (a, s))

/-- A DMA channel that is not halted reads a word, which an upset may have struck (R497, R509): the unit, and the syndrome of
an uncorrectable error. Mark: DEDUCED (log entry 40, safe). -/
def Unit.dmaRead (u : Unit) (chan m a : Nat) (upset : BitVec 39) : Unit × Option Nat :=
  if memWords u.kind m ≤ a then (u, none)
  else
    let u := u.setErr m a (u.errAt m a ^^^ upset)
    if u.bit Reg.rasDmastat chan || !u.memOn m then (u, none) else u.readWord m a

/-- ECC_WRITE_BACK: a corrected word is written back (R500). -/
def Unit.writeBack (u : Unit) (m addr : Nat) : Unit :=
  if !u.ras.wb.contains (m, addr) then u
  else
    let e := u.errAt m addr
    let u := { u with ras := { u.ras with wb := u.ras.wb.filter fun w => w != (m, addr) } }
    match eccBit (eccSyndrome e) with
    | some b => u.setErr m addr (e ^^^ BitVec.ofNat 39 (2 ^ b))
    | none => u

/-- A write of a word by an agent: a write-back of it is dropped (R500), and an armed flip strikes it (R512). -/
def Unit.memWrite (u : Unit) (m addr : Nat) : Unit :=
  let u := { u with ras := { u.ras with wb := u.ras.wb.filter fun w => w != (m, addr) } }
  match u.ras.flip with
  | some (mask, k) =>
    if k = m then
      let u := { u.setErr m addr mask with ras := { (u.setErr m addr mask).ras with flip := none } }
      (u.err Reg.rasErr 6).event 0x049 [BitVec.ofNat 32 m, BitVec.ofNat 32 addr]
    else u.setErr m addr 0
  | none => u.setErr m addr 0

/-- Some agent wrote to a memory at an address that no rule gives: a free value, when an armed flip waits for it. -/
def Unit.wrote (u : Unit) (m : Nat) : Unit :=
  match u.ras.flip with
  | some (_, k) =>
    if k = m then
      let r := u.draw
      r.2.memWrite m (r.1 % memWords u.kind m)
    else u
  | none => u

/-- Bytes of a narrow write (R504). -/
def narrowBytes (w : NarrowWrite) : List (Option Byte) :=
  (List.range 4).map fun k =>
    if w.mask.toNat.testBit k then some (BitVec.ofNat 8 (w.data.toNat / 256 ^ k)) else none

/-- The oldest entry of a merge buffer is merged and written (R504, R505): the unit, and an uncorrectable error that the
read before the merge found. -/
def Unit.mergeOldest (u : Unit) (m : Nat) : Unit × Option (Nat × Nat) :=
  let x := u.memSt m
  match x.merge with
  | [] => (u, none)
  | e :: rest =>
    let u := u.setMem m { x with merge := rest }
    let r := u.readWord m e.addr
    match r.2 with
    | some s => (r.1, some (e.addr, s))
    | none => (r.1.memWrite m e.addr, none)

/-- A narrow write (R504): into the entry of its word or a free one, the oldest giving way to a fifth word; an entry
whose four bytes are valid is written at once. The errors found go to the front of `l`.
Mark: DEDUCED (log entry 40, safe). -/
def Unit.mergeWrite (u : Unit) (m : Nat) (w : NarrowWrite) : Unit × List (Nat × Nat) :=
  let a := w.addr.toNat
  let x := u.memSt m
  let old := match x.merge.find? fun e => e.addr == a with
    | some e => e.bytes
    | none => List.replicate 4 none
  let e : MergeEnt := ⟨a, ((narrowBytes w).zip old).map fun p => p.1.or p.2⟩
  let held := x.merge.any fun e => e.addr == a
  let full := e.bytes.all Option.isSome
  let r := if !held && !full && decide (x.merge.length ≥ 4) then u.mergeOldest m else (u, none)
  let x := r.1.memSt m
  let l := if held then x.merge.map fun y => if y.addr = a then e else y else x.merge ++ [e]
  let errs := match r.2 with | some p => [p] | none => []
  if full then
    ((r.1.setMem m { x with merge := l.filter fun y => y.addr != a }).memWrite m a, errs)
  else (r.1.setMem m { x with merge := l }, errs)

/-- MERGE_FLUSH: the narrow writes that reached a memory since the last flush, and then 32 idle cycles (R504): the unit,
and the uncorrectable errors found. -/
def Unit.mergeFlush (u : Unit) (m : Nat) (l : List NarrowWrite) : Unit × List (Nat × Nat) :=
  let step := fun (r : Unit × List (Nat × Nat)) (w : NarrowWrite) =>
    let q := r.1.mergeWrite m w
    (q.1, r.2 ++ q.2)
  let r := l.foldl step (u, [])
  let q := r.1.mergeOldest m
  (q.1, r.2 ++ (match q.2 with | some p => [p] | none => []))

/-- CE_CLEAR: every entry that is not REMAPPED is freed (R501). -/
def Unit.ceClear (u : Unit) (m : Nat) : Unit :=
  let x := u.memSt m
  u.setMem m { x with ce := x.ce.map fun e => match e with
    | some y => if y.remapped then some y else none
    | none => none }

/-- FLIP_ARM (R512): an arm naming TCAM or an absent memory is ignored and counted. -/
def Unit.flipArm (u : Unit) (m : Nat) : Unit :=
  if memWords u.kind m = 0 then u.accErr
  else
    let mask := u.rdN Reg.rasFlipl + u.fld Reg.rasFliph 6 0 * 2 ^ 32
    { u with ras := { u.ras with flip := some (BitVec.ofNat 39 mask, m) } }

/-- A DMA channel halts on an uncorrectable read (R509). -/
def Unit.dmaHalt (u : Unit) (chan m addr : Nat) : Unit :=
  let u := { u with ras := { u.ras with dmaAt := Tab.put chan u.clk u.ras.dmaAt } }
  ((u.wrBit Reg.rasDmastat chan true).err Reg.rasErr 5).event 0x047 [BitVec.ofNat 32 (chan + 256 * m), BitVec.ofNat 32 addr]

/-- A DMA channel resumes (R509). -/
def Unit.dmaRun (u : Unit) (chan : Nat) : Unit := u.wrBit Reg.rasDmastat chan false

/-- DMA_RESUME: 10 µs after the halt. The trace drain, channel 3, resumes under 12 R427 instead (R509). -/
def Unit.dmaResume (u : Unit) (chan : Nat) : Unit :=
  if chan = 3 ∨ u.since (Tab.getD u.ras.dmaAt chan 0) < usT 10 then u else u.dmaRun chan

/-- Partitions of a part (R507, R513). -/
def hasPart (p : Part) (k : Nat) : Bool :=
  match p with
  | .die => decide (k ≤ 4)
  | .agg => k == 1 || k == 3 || k == 5 || k == 6

/-- Partition resets within the last second (R511). -/
def Unit.recentResets (u : Unit) : List Nat := u.ras.resets.filter fun c => decide (u.since c < 250000000)

/-- Count a partition reset (R511): the unit, and whether it is the third within a second. -/
def Unit.countReset (u : Unit) : Unit × Bool :=
  let l := u.recentResets ++ [u.clk]
  ({ u with ras := { u.ras with resets := l } }.count Reg.rasPrstcnt, decide (l.length ≥ 3))

/-- What every partition reset does in the common part (R510, R511): the unit, and whether it is the third. -/
def Unit.partCommon (u : Unit) (k : Nat) (byReg : Bool) : Unit × Bool :=
  let u := (u.wrBit Reg.rasStat k true).rstCause 2
  let u := u.event 0x045 [BitVec.ofNat 32 (k + 256 * b2n byReg)]
  u.countReset

/-- RAS registers that the protection state gives (R514, R515). -/
def Unit.rasView (u : Unit) (ofs m : Nat) : Option Word :=
  let w := fun (n : Nat) => some (BitVec.ofNat 32 n)
  let x := u.memSt m
  let e := x.ce.getD (u.fld Reg.rasAtCeidx 2 0 m) none
  if ofs = Reg.rasStat then w (u.fld Reg.rasStat 6 0 + 256 * min 15 u.recentResets.length)
  else if ofs = Reg.rasFlipctl then
    w (u.rdN Reg.rasFlipctl + 2 * b2n u.ras.flip.isSome)
  else if ofs = Reg.rasAtWords then w (memWords u.kind m)
  else if ofs = Reg.rasAtScrubpos then w x.scrub
  else if ofs = Reg.rasAtCeaddr then w (match e with | some y => y.addr | none => 0)
  else if ofs = Reg.rasAtCeinfo then
    w (match e with
       | some y => y.count + 256 * y.synd + 32768 + 65536 * b2n y.remapped + 131072 * b2n y.ue
       | none => 0)
  else if Reg.rasAtRemap ≤ ofs ∧ ofs < Reg.rasAtRemap + 16 then
    w (match x.remap.getD ((ofs - Reg.rasAtRemap) / 4) none with | some a => a + 2 ^ 31 | none => 0)
  else if ofs = Reg.rasAtLastue then
    w (match x.lastUe with | some (a, s) => a + s * 2 ^ 23 + 2 ^ 31 | none => 0)
  else none

end Sys2Proof.Machine
end

