-- ==== Sys2Proof/Machine/Trace.lean ====
section
/-! DEFINITION. The trace unit of the die unit (12): packets and staging (R417-R421), drain and the trace region
(R422-R427), tokens and sessions (R428-R432), low power (R433), watchpoints (R434-R437, R448, R449). -/

namespace Sys2Proof.Machine

/-! Streams. -/

/-- An empty block at a stream offset. -/
def tblock0 (ofs : Nat) (classU : Bool) : TBlock := ⟨ofs, classU, [], none⟩

/-- A core's stream before any session. -/
def tstream0 : TStream :=
  { ctx := ⟨0, 0, 0, false⟩, hidden := false, low := none, run := none, ref := 0, next := none, sinceSync := 0
    lastTime := none, idle := 0, cur := tblock0 0 false, full := [], lost := none, stopped := false, wrapped := false
    ofs := 0, wr := 0, area := [], offered := none }

/-- Change the trace unit. -/
def Die.onT (d : Die) (f : Trace → Trace) : Die := { d with trc := f d.trc }

/-- A core's stream. -/
def Die.ts (d : Die) (c : Nat) : TStream := Tab.getD d.trc.streams c tstream0

/-- Put a core's stream back. -/
def Die.setTs (d : Die) (c : Nat) (s : TStream) : Die :=
  d.onT fun t => { t with streams := Tab.put c s t.streams }

/-- Bytes of staging in use (12, "Staging, drain and the trace region"). -/
def TStream.fill (s : TStream) : Nat := 512 * s.full.length + s.cur.data.length

/-- Bytes of staging per core. -/
def stagingSize : Nat := 8192

/-- The trace unit runs: CAP on, the TRACE partition not in reset (18 R569). -/
def Die.trcRuns (d : Die) : Bool := d.u.capRuns && !d.u.inReset 2

/-- A stream is active (12 R430, R427): in a session, with TRCEN and CFG.EN, not stopped, the drain not halted. -/
def Die.tracing (d : Die) (c : Nat) : Bool :=
  d.trc.session.isSome && d.u.bit Reg.trcCtrl 0 && d.u.bit Reg.trcAtCfg 0 c && !(d.ts c).stopped && !d.trc.halted
    && d.trcRuns

/-- The session is of class U. -/
def Die.classU (d : Die) : Bool := match d.trc.session with | some s => s.classU | none => false

/-- The partly filled block, filled with PAD, becomes a full block (12 R423, R424). -/
def TStream.close (s : TStream) (classU : Bool) : TStream :=
  if s.cur.data.isEmpty then s
  else
    let n := 512 - s.cur.data.length
    { s with full := s.full ++ [{ s.cur with data := s.cur.data ++ zeros n }]
             cur := tblock0 (s.ofs + n) classU, ofs := s.ofs + n, sinceSync := s.sinceSync + n }

/-- Put a packet in staging; none when it does not fit (12 R423, R424). -/
def TStream.put (s : TStream) (classU : Bool) (pkt : List Byte) (sync : Bool) : Option TStream :=
  let s := if s.cur.data.isEmpty then { s with cur := tblock0 s.ofs classU } else s
  let t := if s.cur.data.length + pkt.length > 512 then s.close classU else s
  if t.fill + pkt.length > stagingSize then none
  else
    let at_ := t.cur.data.length
    let first := if sync && t.cur.sync.isNone then some at_ else t.cur.sync
    let cur : TBlock := { t.cur with data := t.cur.data ++ pkt, sync := first }
    let t := { t with cur := cur, ofs := t.ofs + pkt.length, sinceSync := t.sinceSync + pkt.length }
    some (if cur.data.length = 512 then t.close classU else t)

/-- Bytes lost (12 R424, R425): counted per core and in all; under R424 they set TRC_ERR.OVERFLOW. -/
def Die.loseTrace (d : Die) (c n : Nat) (ovf : Bool) : Die :=
  let u := (d.u.countBy Reg.trcAtLost n c).countBy Reg.trcLostcnt n
  { d with u := if ovf then u.err Reg.trcErr 0 else u }

/-- Emit a packet: into staging, or lost (12 R424). -/
def Die.emitRaw (d : Die) (c : Nat) (pkt : List Byte) (sync : Bool) : Die :=
  let s := d.ts c
  match s.lost with
  | some n => (d.setTs c { s with lost := some (satN 32 (n + pkt.length)) }).loseTrace c pkt.length true
  | none =>
    match s.put d.classU pkt sync with
    | some t => d.setTs c { t with idle := d.u.clk }
    | none => (d.setTs c { s with lost := some pkt.length }).loseTrace c pkt.length true

/-- The TIME that stands before another packet (12 R420). -/
def Die.emitTime (d : Die) (c : Nat) : Die :=
  let s := d.ts c
  match s.lastTime with
  | none => d
  | some t =>
    let ns := (d.u.tb.now - t) * 1000000000 / 2 ^ 32
    if s.lost.isSome || decide (ns < d.u.fld Reg.trcTres 15 0) then d
    else
      let d := d.emitRaw c (leBytes 1 0x60 ++ leBytes 4 (satN 32 ns)) false
      d.setTs c { d.ts c with lastTime := some d.u.tb.now }

/-- Emit a packet other than TIME. -/
def Die.emitPkt (d : Die) (c : Nat) (pkt : List Byte) : Die := (d.emitTime c).emitRaw c pkt false

/-- OWNER of a context: 1 tenant, 0 host (12 R416, R418). -/
def TraceCtx.owner (x : TraceCtx) : Nat := if x.gen = 0 then 0 else 1

/-- Emit a SYNC that carries an address (12 R418-R420). Mark: DEDUCED (log entry 32, unsafe). -/
def Die.syncAt (d : Die) (c sub addr : Nat) : Die :=
  let d := d.emitTime c
  let x := (d.ts c).ctx
  let pkt := leBytes 1 (0x10 + sub) ++ leBytes 1 x.priv ++ leBytes 1 x.owner ++ leBytes 10 d.u.tb.now ++ zeros 3
    ++ leBytes 8 addr ++ leBytes 4 x.gen
  let d := d.emitRaw c pkt true
  if (d.ts c).lost.isSome then d
  else d.setTs c { d.ts c with ref := addr, sinceSync := 0, lastTime := some d.u.tb.now }

/-- Emit a SYNC. Its address is the next instruction to retire: the target of the last transfer, where that was the
last event, else a value that the trace port does not present, a free one. -/
def Die.sync (d : Die) (c sub : Nat) : Die :=
  match (d.ts c).next with
  | some a => d.syncAt c sub a
  | none =>
    let r := d.u.draw
    { d with u := r.2 }.syncAt c sub (r.1 % 2 ^ 64)

/-- Packets are produced again once 256 bytes are free: OVERFLOW with the bytes lost, then SYNC (12 R424). -/
def Die.recoverTrace (d : Die) (c : Nat) : Die :=
  let s := d.ts c
  match s.lost with
  | none => d
  | some n =>
    if stagingSize - s.fill < 256 || s.hidden || !d.tracing c then d
    else ((d.setTs c { s with lost := none }).emitPkt c (leBytes 1 0x70 ++ leBytes 4 n)).sync c 2

/-- Close the run: its BRANCH-RUN packet, after a SYNC where the reference address lies too far (12 R419). -/
def Die.closeRun (d : Die) (c : Nat) : Die :=
  match (d.ts c).run with
  | none => d
  | some r =>
    let d := d.setTs c { d.ts c with run := none }
    let far := fun (x : Int) => decide (x < -(2 ^ 31 : Int)) || decide (x ≥ (2 ^ 31 : Int))
    let d := if far ((r.addr : Int) - ((d.ts c).ref : Int)) then d.syncAt c 0 r.addr else d
    let dif := (r.addr : Int) - ((d.ts c).ref : Int)
    let d := d.emitPkt c (leBytes 1 (0x20 + b2n r.taken) ++ leBytes 2 r.count ++ leBytes 4 (wrapN 32 dif))
    d.setTs c { d.ts c with ref := r.addr }

/-! Tokens. -/

/-- The operator's public key, where the part holds its certificate (16 R516). -/
def Unit.operKey (u : Unit) : Option Nat := if u.pat.cert.isEmpty then none else some (certKey u.pat.cert)

/-- The token's fields and signature are right for this part (12 R428, R429). -/
def Die.tokenValid (d : Die) (b : List Byte) : Bool :=
  let own := d.u.node.toNat
  let mask := leAt b 0x0C 3
  decide (leAt b 0 4 = 0x4B545A4B) && decide (leAt b 4 1 = 1) && decide (leAt b 5 1 ≤ 1) && decide (leAt b 6 1 ≤ 1)
    && decide (leAt b 7 1 = 0) && decide (leAt b 0x0B 1 = 0) && decide (leAt b 0x0F 1 = 0)
    && decide (leAt b 0x30 16 = 0) && (decide (leAt b 5 1 = 1) || decide (leAt b 0x10 4 = 0))
    && d.u.nodeOk && decide (own &&& mask = leAt b 8 3 &&& mask)
    && (match d.u.operKey with
        | some k => Config.sigValid k (Config.sha384 (b.take 64)) (b.drop 64)
        | none => false)

/-- The held token is in force (12 R429). -/
def Die.tokenInForce (d : Die) : Bool :=
  match d.trc.token with
  | some t => decide (t.state = 2) && d.u.epochsFire && decide (leAt t.bytes 0x14 10 ≤ d.u.tb.now)
      && decide (d.u.tb.now < leAt t.bytes 0x1E 10)
  | none => false

/-- The held token is in force and of a class. -/
def Die.tokenOf (d : Die) (classU : Bool) : Bool :=
  d.tokenInForce && (match d.trc.token with | some t => decide (leAt t.bytes 5 1 = b2n classU) | none => false)

/-- A class U token in force that names the GEN (12 R430). -/
def Die.tokenFor (d : Die) (gen : Nat) : Bool :=
  d.tokenOf true && (match d.trc.token with | some t => decide (leAt t.bytes 0x10 4 = gen) | none => false)

/-- The PRIV grant applies to the session (12 R430, R431). -/
def Die.privGrant (d : Die) : Bool :=
  match d.trc.session, d.trc.token with
  | some s, some t => s.classU && d.tokenFor s.gen && decide (leAt t.bytes 6 1 % 2 = 1)
  | _, _ => false

/-- The session traces a context (12 R431). -/
def Die.visible (d : Die) (x : TraceCtx) : Bool :=
  match d.trc.session with
  | none => false
  | some s => !s.classU || (decide (x.gen = s.gen) && (!x.privd || d.privGrant))

/-- TOKEN audit entry (16 R544). -/
def Die.tokenAudit (d : Die) (o : Origin) (what cls : Nat) (b : List Byte) : Die :=
  { d with u := d.u.audit 11 o.stamp o.onode what cls 0 (Config.sha384 (b.take 64)) }

/-- The bytes of the held token; none held, none. -/
def Die.tokenBytes (d : Die) : List Byte := match d.trc.token with | some t => t.bytes | none => []

/-! Sessions. -/

/-- The session ends (12 R432): every stream stops and its partly filled block is drained.
Mark: DEDUCED (log entry 18, unsafe). -/
def Die.sessionEnd (d : Die) : Die :=
  let cu := d.classU
  d.onT fun t => { t with
    session := none
    streams := t.streams.map fun (p : Nat × TStream) =>
      (p.1, { p.2.close cu with run := none, hidden := false, lost := none, lastTime := none }) }

/-- The session's condition holds no longer (12 R432): it ends, and expiry sets TOKEXP. -/
def Die.sessionCheck (d : Die) : Die :=
  match d.trc.session with
  | none => d
  | some s =>
    if s.classU && decide (d.u.rdN Reg.hltGen ≠ s.gen) then d.sessionEnd
    else if s.tok && !(if s.classU then d.tokenFor s.gen else d.tokenOf false) then
      let beyond := match d.trc.token with | some t => decide (leAt t.bytes 0x1E 10 ≤ d.u.tb.now) | none => false
      let d := if beyond then { d with u := d.u.err Reg.trcErr 3 } else d
      d.sessionEnd
    else d

/-- TOKEN_VERIFY (12 R429): the words written become the held token, and its check begins; ignored while one runs.
Mark: DEDUCED (log entry 32, unsafe). -/
def Die.tokenVerify (d : Die) (o : Origin) : Die :=
  match d.trc.token with
  | some ⟨_, 1⟩ => d
  | _ =>
    let b := ((List.range 40).map fun i => leBytes 4 (d.u.rdN Reg.trcTokdata i)).flatten
    let u := (List.range 40).foldl (fun u i => u.wr Reg.trcTokdata 0 i) d.u
    let d := { d with u := u, trc := { d.trc with token := some ⟨b, 1⟩ } }
    ((d.tokenAudit o 0 (leAt b 5 1)  b).tokenAudit o 1 (leAt b 5 1) b).sessionCheck

/-- TOKEN_VERIFIED (12 R429). -/
def Die.tokenVerified (d : Die) : Die :=
  match d.trc.token with
  | some ⟨b, 1⟩ =>
    if d.tokenValid b then d.onT fun t => { t with token := some ⟨b, 2⟩ }
    else
      let d := d.onT fun t => { t with token := some ⟨b, 3⟩ }
      { d with u := d.u.err Reg.trcErr 2 }
  | _ => d

/-- TOKEN_CLEAR (12 R429). -/
def Die.tokenClear (d : Die) (o : Origin) : Die :=
  let d := d.tokenAudit o 2 (leAt d.tokenBytes 5 1) d.tokenBytes
  (d.onT fun t => { t with token := none }).sessionCheck

/-- TOKEN_IN_FORCE (12 R429, R430): the token governs the class U session that it names. -/
def Die.tokenStarts (d : Die) : Die :=
  match d.trc.session with
  | some s => if s.classU && d.tokenFor s.gen then d.onT fun t => { t with session := some { s with tok := true } } else d
  | none => d

/-- The condition of an OPEN (12 R430). -/
def Die.mayOpen (d : Die) (classU : Bool) : Bool :=
  d.trc.session.isNone &&
    (if classU then d.u.rd Reg.trcSessgen == d.u.rd Reg.hltGen && d.u.bit Reg.hltWg 31 else d.tokenOf false)

/-- A stream at the opening of a session: area and write offset start afresh, but for blocks that STREAM mode still has
to commit. -/
def TStream.opened (s : TStream) (keep classU : Bool) : TStream :=
  { s with hidden := false, run := none, next := none, sinceSync := 0, lastTime := none, cur := tblock0 0 classU
           lost := none, stopped := false, wrapped := false, ofs := 0
           wr := if keep then s.wr else 0, area := if keep then s.area else [] }

/-- SESSION_OPEN (12 R430, R431, R420): refused, or each active stream begins with a SYNC.
Mark: DEDUCED (log entry 32, unsafe). -/
def Die.sessionOpen (d : Die) (o : Origin) (classU : Bool) : Die :=
  if !d.mayOpen classU then { d with u := d.u.err Reg.trcErr 4 }
  else
    let gen := d.u.rdN Reg.trcSessgen
    let tok := if classU then d.tokenFor gen else true
    let d := d.onT fun t => { t with session := some ⟨classU, if classU then gen else 0, tok⟩ }
    let d := d.tokenAudit o 3 (b2n classU) (if tok then d.tokenBytes else [])
    let keep := decide (d.u.fld Reg.trcCtrl 2 1 = 2)
    (List.range 32).foldl (fun (d : Die) c =>
      let d := d.setTs c ((d.ts c).opened keep classU)
      if !d.tracing c then d
      else if d.visible (d.ts c).ctx then d.sync c 8
      else d.setTs c { d.ts c with hidden := true }) d

/-- SESSION_CLOSE (12 R432). -/
def Die.sessionClose (d : Die) (o : Origin) : Die :=
  match d.trc.session with
  | none => d
  | some s => (d.tokenAudit o 4 (b2n s.classU) (if s.tok then d.tokenBytes else [])).sessionEnd

/-! Events. -/

/-- Context packet (12 R418). -/
def ctxPkt (owner priv thr gen : Nat) : List Byte :=
  leBytes 1 0x40 ++ leBytes 1 owner ++ leBytes 1 priv ++ zeros 1 ++ leBytes 4 thr ++ leBytes 4 gen

/-- The context of a slot (12 R421, R431): a change closes the run and gives a CONTEXT; leaving the traced context
gives the CONTEXT of OWNER 0xFF, the return a CONTEXT and a SYNC. -/
def Die.traceContext (d : Die) (c : Nat) (x : TraceCtx) : Die :=
  let s := d.ts c
  let vis := d.visible x
  let changed := decide ((x.gen, x.thr, x.priv) ≠ (s.ctx.gen, s.ctx.thr, s.ctx.priv))
  let d := if changed || !vis then d.closeRun c else d
  let d := if !vis && !s.hidden then d.emitPkt c (ctxPkt 0xFF 0 0 0) else d
  let d := d.setTs c { d.ts c with ctx := x, hidden := !vis, next := if changed then none else (d.ts c).next }
  if !vis then d
  else if s.hidden then (d.emitPkt c (ctxPkt x.owner x.priv x.thr x.gen)).sync c 8
  else if changed then d.emitPkt c (ctxPkt x.owner x.priv x.thr x.gen)
  else d

/-- A retired event of a visible context (12 R418, R419, R421). -/
def Die.traceRetire (d : Die) (c : Nat) : TraceEv → Die
  | .branch a t =>
    let d := d.setTs c { d.ts c with next := none }
    if !d.u.bit Reg.trcAtCfg 1 c then d
    else
      let same := match (d.ts c).run with | some r => decide (r.addr = a.toNat) && r.taken == t | none => false
      let d := if same then d else d.closeRun c
      let n := (match (d.ts c).run with | some r => r.count | none => 0) + 1
      let d := d.setTs c { d.ts c with run := some ⟨a.toNat, t, n⟩ }
      if n = 65535 then d.closeRun c else d
  | .indirect k tgt =>
    let d := (d.closeRun c)
    let d := d.setTs c { d.ts c with next := some tgt.toNat }
    if !d.u.bit Reg.trcAtCfg 2 c then d
    else
      let d := d.emitPkt c (leBytes 1 (0x30 + k.toNat) ++ leBytes 8 tgt.toNat)
      d.setTs c { d.ts c with ref := tgt.toNat }
  | .data a sz wr v =>
    let d := d.setTs c { d.ts c with next := none }
    if !d.u.bit Reg.trcAtCfg 3 c then d
    else
      let val := d.u.bit Reg.trcAtCfg 4 c
      let head := leBytes 1 (0x50 + b2n val + 2 * b2n wr + 4 * sz.toNat) ++ leBytes 8 a.toNat
      d.emitPkt c (if val then head ++ leBytes 8 (v.toNat % 256 ^ 2 ^ sz.toNat) else head)

/-- The SYNC that a stream owes after TRC_SYNCPER bytes (12 R420). Mark: DEDUCED (log entry 32, unsafe). -/
def Die.periodicSync (d : Die) (c : Nat) : Die :=
  if (d.ts c).sinceSync < d.u.fld Reg.trcSyncper 15 0 || (d.ts c).lost.isSome || (d.ts c).hidden then d else d.sync c 4

/-- A slot of the trace port. -/
def Die.traceSlot (d : Die) (c : Nat) (x : TraceSlot) : Die :=
  let ctx : TraceCtx := ⟨x.gen.toNat, x.thr.toNat, x.priv.toNat, x.privd⟩
  if !d.tracing c then d.setTs c { d.ts c with ctx := ctx }
  else
    let d := d.traceContext c ctx
    if (d.ts c).hidden then d else (d.traceRetire c x.ev).periodicSync c

/-- TRACE_EVENT (12 R416-R421). After a full area has stopped the stream, its packets are lost (R425): each event counts
the bytes that its packets would take. -/
def Die.traceEvent (d : Die) (c : Nat) (l : List TraceSlot) : Die :=
  if !d.trcRuns then d
  else
    let stopped := (d.ts c).stopped && d.trc.session.isSome && d.u.bit Reg.trcCtrl 0 && d.u.bit Reg.trcAtCfg 0 c
    if stopped then
      let probe := (l.take 2).foldl (fun d x => d.traceSlot c x) (d.setTs c { d.ts c with stopped := false, full := [] })
      let n := (probe.ts c).ofs - (d.ts c).ofs
      let s := d.ts c
      let d := d.setTs c { probe.ts c with stopped := true, full := s.full, cur := s.cur, ofs := s.ofs
                                           lost := none, idle := s.idle }
      d.loseTrace c n false
    else (l.take 2).foldl (fun d x => d.traceSlot c x) (d.recoverTrace c)

/-! Drain. -/

/-- Blocks that a core's area holds (12 R422, and "Staging, drain and the trace region"). -/
def Die.areaBlocks (d : Die) : Nat := d.u.fld Reg.trcSize 15 0 * 64

/-- The oldest full block goes to the area (12 R423, R425). Mark: DEDUCED (log entry 32, unsafe). -/
def Die.drainOne (d : Die) (c : Nat) : Die :=
  let s := d.ts c
  let n := d.areaBlocks
  let mode := d.u.fld Reg.trcCtrl 2 1
  match s.full with
  | [] => d
  | b :: rest =>
    let room := decide (s.area.length < n)
    if mode ≠ 0 && !room then d
    else
      let s := { s with full := rest, area := lastN n (s.area ++ [b]), wr := (s.wr + 512) % max 1 (n * 512)
                        wrapped := s.wrapped || !room
                        stopped := s.stopped || (mode == 1 && decide (s.area.length + 1 = n)) }
      let d := d.setTs c s
      if mode == 1 && s.stopped then { d with u := d.u.err Reg.trcErr 1 } else d

/-- BLOCK_DRAIN (12 R423). -/
def Die.blockDrain (d : Die) (c : Nat) : Die :=
  if d.trc.halted || !d.trcRuns then d else (d.drainOne c).recoverTrace c

/-- DRAIN_IDLE (12 R423): nothing emitted for 10 µs. -/
def Die.drainIdle (d : Die) (c : Nat) : Die :=
  if d.trc.halted || !d.trcRuns || decide (d.u.since (d.ts c).idle < usT 10) then d
  else ((d.setTs c ((d.ts c).close d.classU)).drainOne c).recoverTrace c

/-- The staging of a core is drained whole (12 R433). -/
def Die.drainAll (d : Die) (c : Nat) : Die :=
  let d := d.setTs c ((d.ts c).close d.classU)
  (List.range 16).foldl (fun d _ => d.drainOne c) d

/-- DRAIN_HALT, and the handling of an uncorrectable staging read (12 R427; 15 R506, R509).
Mark: DEDUCED (log entry 40, safe). -/
def Die.drainHalt (d : Die) (addr : Nat) : Die :=
  let u := ((d.u.err Reg.trcErr 5).dmaHalt 3 2 addr).alarm .drainUe
  { d with u := u, trc := { d.trc with halted := true } }

/-- TRACE_RESUME (12 R427): TRCEN from 0 to 1. -/
def Die.traceResume (d : Die) : Die :=
  { d with u := d.u.dmaRun 3, trc := { d.trc with halted := false } }

/-- The blocks of a TRACE record: whole blocks of one session, consecutive in the stream, at most TRC_RECMAX bytes
(12 R426). -/
def takeBlocks (ofs : Nat) (classU : Bool) : Nat → List TBlock → List TBlock
  | 0, _ => []
  | _, [] => []
  | n + 1, b :: t => if b.ofs = ofs && b.classU == classU then b :: takeBlocks (ofs + 512) classU n t else []

/-- Offset of the first SYNC in a list of blocks (12 R426). -/
def firstSync (at_ : Nat) : List TBlock → Nat
  | [] => 0xFFFF
  | b :: t => match b.sync with | some o => at_ + o | none => firstSync (at_ + 512) t

/-- Payload of a TRACE record (12 R426). -/
def tracePayload (c : Nat) (l : List TBlock) : List Byte :=
  let b := l.headD (tblock0 0 false)
  leBytes 1 c ++ leBytes 1 (b2n (b.ofs == 0) + 2 * b2n b.classU) ++ leBytes 2 (firstSync 0 l) ++ leBytes 8 b.ofs
    ++ zeros 4 ++ (l.map TBlock.data).flatten

/-- TRACE_RECORD (12 R426). -/
def Die.traceRecord (d : Die) (c : Nat) : Die :=
  let s := d.ts c
  match s.area with
  | [] => d
  | b :: _ =>
    if decide (d.u.fld Reg.trcCtrl 2 1 ≠ 2) || s.offered.isSome || !d.trcRuns then d
    else
      let l := takeBlocks b.ofs b.classU (d.u.fld Reg.trcRecmax 13 0 / 512) s.area
      let d := d.setTs c { s with offered := some l.length }
      { d with u := d.u.record 0x24 .bulk (tracePayload c l) }

/-- The compression engine holds the core's TRACE record. -/
def Unit.holdsTrace (u : Unit) (c : Nat) : Bool :=
  let is := fun (x : Draft) => decide (x.typ = 0x24) && decide (leAt x.payload 0 1 = c)
  u.flm.queue.any is || (match u.flm.cur with | some x => is x.draft | none => false)

/-- After a command: a TRACE record that was committed frees its blocks, one that was refused is offered again
(12 R426). `next` is the next SEQ of the BULK stream before the command. -/
def Die.traceSettle (d : Die) (next : Seq) : Die :=
  { d with trc := { d.trc with streams := d.trc.streams.map fun (p : Nat × TStream) =>
      match p.2.offered with
      | none => p
      | some n =>
        if d.u.holdsTrace p.1 then p
        else if (d.u.stream 4).next = next then (p.1, { p.2 with offered := none })
        else (p.1, { p.2 with offered := none, area := p.2.area.drop n }) } }

/-! Low power. -/

/-- CORE_LOW_POWER (12 R433). -/
def Die.coreLow (d : Die) (c : Nat) (enter : Bool) (st : Nat) : Die :=
  let d := d.setTs c { d.ts c with low := if enter then some st else none }
  if !d.tracing c || (d.ts c).hidden then d
  else if enter then d.emitPkt c (leBytes 1 0x80 ++ leBytes 1 st ++ zeros 2)
  else d.sync c 1

/-- Before SLEEP or HOSTOFF (12 R433). -/
def Die.traceSleep (d : Die) : Die :=
  (List.range 32).foldl (fun (d : Die) c =>
    let d := if d.tracing c && !(d.ts c).hidden then d.emitPkt c (leBytes 1 0x80 ++ leBytes 1 0x8F ++ zeros 2) else d
    if d.trc.halted then d else d.drainAll c) d

/-- At the return to QUIET or ACTIVE (12 R433). -/
def Die.traceWake (d : Die) : Die :=
  (List.range 32).foldl (fun (d : Die) c =>
    if d.tracing c && !(d.ts c).hidden then d.sync c 1 else d) d

/-! Watchpoints. -/

/-- A request matches watchpoint `i` (12 R434). -/
def Unit.watchHit (u : Unit) (q : WatchReq) (i : Nat) : Bool :=
  let lo := u.rdN Reg.wchAtLol i + 2 ^ 32 * u.rdN Reg.wchAtLoh i
  let hi := u.rdN Reg.wchAtHil i + 2 ^ 32 * u.rdN Reg.wchAtHih i
  let m := u.fld Reg.wchAtCfg 31 30 i
  let a := q.addr.toNat
  u.bit Reg.wchCtrl 0 && u.bit Reg.wchAtEn 0 i && decide (lo ≤ hi) && decide (0 < q.len.toNat)
    && decide (a ≤ hi) && decide (lo ≤ a + q.len.toNat - 1)
    && (if q.write then decide (m ≥ 2) else decide (m % 2 = 1))

/-- The EVENT action (12 R435). -/
def Die.watchEvent (d : Die) (i : Nat) : Die :=
  { d with u := d.u.event (0x0F0 + i) [d.u.rd Reg.wchAtLastl i, d.u.rd Reg.wchAtLasth i, d.u.rd Reg.wchAtLastinfo i] }

/-- The TRACE action: a WATCH packet in the stream of CFG.CORE (12 R435, R418). -/
def Die.watchTrace (d : Die) (q : WatchReq) (i : Nat) : Die :=
  let c := d.u.fld Reg.wchAtCfg 4 0 i
  if !d.tracing c || (d.ts c).hidden then d
  else
    let pkt := leBytes 1 (0x90 + i) ++ leBytes 1 q.agent.toNat ++ leBytes 1 (b2n q.write)
      ++ leBytes 1 (Nat.log2 q.len.toNat) ++ leBytes 8 q.addr.toNat
    (d.emitPkt c pkt).periodicSync c

/-- A match takes its watchpoint's action (12 R435-R437). -/
def Die.watchAct (d : Die) (q : WatchReq) (i : Nat) : Die :=
  let u := (d.u.count Reg.wchAtHitcnt i).wrN Reg.wchAtLastl (q.addr.toNat % 2 ^ 32) i
  let u := (u.wrN Reg.wchAtLasth (q.addr.toNat / 2 ^ 32) i).wrN Reg.wchAtLastinfo
    (q.agent.toNat + 256 * b2n q.write + 512 * q.len.toNat) i
  let d := { d with u := u }
  let act := d.u.fld Reg.wchAtCfg 29 28 i
  let foreign := match d.trc.session with | some s => s.classU && decide (q.gen.toNat ≠ s.gen) | none => false
  let classO := match d.trc.session with | some s => !s.classU | none => false
  if act = 1 then (if foreign then d else d.watchTrace q i)
  else if act = 2 then (if foreign then d else d.watchEvent i)
  else if act = 3 then
    if !classO then
      let d := { d with u := d.u.err Reg.wchErr 0 }
      if foreign then d else d.watchEvent i
    else
      let d := d.onT fun t => { t with haltAt := Tab.put i d.u.clk t.haltAt }
      if d.u.bit Reg.wchAtHalt 0 i then d
      else { d with u := (d.u.wrBit Reg.wchAtHalt 0 true i).emit (.pin (.haltReq i) 1) }
  else d

/-- WATCH_MATCH (12 R434-R436): ascending request lane, then ascending watchpoint. -/
def Die.watchMatch (d : Die) (l : List WatchReq) : Die :=
  if !d.trcRuns then d
  else (l.take 4).foldl (fun (d : Die) q =>
    (List.range 16).foldl (fun (d : Die) i => if d.u.watchHit q i then d.watchAct q i else d) d) d

/-- HALT_REQ drops (12 R437). -/
def Die.haltDrop (d : Die) (i : Nat) : Die :=
  if d.u.bit Reg.wchAtHalt 0 i then
    { d with u := (d.u.wrBit Reg.wchAtHalt 0 false i).emit (.pin (.haltReq i) 0) }
  else d

/-- HALT.RELEASE: one in the cycle of a match leaves the request asserted for that match (12 R437). -/
def Die.haltRelease (d : Die) (i : Nat) : Die :=
  if Tab.find i d.trc.haltAt = some d.u.clk then d else d.haltDrop i

/-- WATCH_ENABLE (12 R449). -/
def Unit.watchEnable (u : Unit) (i : Nat) (on : Bool) : Unit :=
  if on && decide (u.fld Reg.wchAtCfg 31 30 i = 0) then u.err Reg.wchErr 1 else u.wrBit Reg.wchAtEn 0 on i

/-- TRC and WCH registers that the trace state gives (12 R447, R448). -/
def Die.trcView (d : Die) (ofs i : Nat) : Option Word :=
  let w := fun (n : Nat) => some (BitVec.ofNat 32 n)
  let s := d.ts i
  if ofs = Reg.trcStat then
    w (b2n d.trc.session.isSome + 2 * b2n d.classU + 4 * b2n d.privGrant + 8 * b2n d.tokenInForce
        + 16 * b2n d.trc.halted)
  else if ofs = Reg.trcTokctl then w (4 * (match d.trc.token with | some t => t.state | none => 0))
  else if ofs = Reg.trcTokdata then some (d.u.rd Reg.trcTokdata (d.u.fld Reg.trcTokidx 5 0))
  else if ofs = Reg.trcAtStat then
    w (b2n (d.tracing i) + 2 * b2n s.hidden + 4 * b2n s.stopped + 8 * b2n s.low.isSome + 16 * b2n s.wrapped
        + 256 * (s.fill / 64 % 256))
  else if ofs = Reg.trcAtWrptrl then w s.wr
  else if ofs = Reg.trcAtWrptrh then w (s.wr / 2 ^ 32)
  else if ofs = Reg.trcAtOfsl then w s.ofs
  else if ofs = Reg.trcAtOfsh then w (s.ofs / 2 ^ 32)
  else if ofs = Reg.wchStat then
    w (((List.range 16).map fun k => 2 ^ k * b2n (d.u.bit Reg.wchAtEn 0 k) + 2 ^ (16 + k) * b2n (d.u.bit Reg.wchAtHalt 0 k)).sum)
  else none

end Sys2Proof.Machine
end

