-- ==== Sys2Proof/Machine/Hang.lean ====
section
/-! DEFINITION. Wait-for words of the die unit (12 R438-R441, R450) and hang analysis at the aggregator: tray graph,
assembly and cycle search (12 R442-R446, R451; 08 R325). -/

namespace Sys2Proof.Machine

/-! ### Wait-for words -/

/-- An agent before its first sample. -/
def wfAgent0 : WfAgent := ⟨0, 0, none⟩

/-- Change the wait-for unit. -/
def Die.onWfg (d : Die) (f : Wfg → Wfg) : Die := { d with wfg := f d.wfg }

/-- WAIT of a wait-for word. -/
def waits (w : Word) : Bool := bitAt w 31

/-- Target die of a wait-for word of a die (12 R438). -/
def waitDie (own : Node) (w : Word) : Node :=
  if bitAt w 30 then BitVec.ofNat 24 (fieldOf w 26 7 * 4) else own

/-- The word names its own agent on its own die (12 R439). -/
def waitsSelf (own : Node) (k : Nat) (w : Word) : Bool := fieldOf w 6 0 == k && waitDie own w == own

/-- One agent's sample (12 R439). -/
def WfAgent.sample (x : WfAgent) (own : Node) (k stable : Nat) (w : Word) : WfAgent :=
  let n := if x.n ≠ 0 && w == x.last then satN 16 (x.n + 1) else 1
  let edge := waits w && !waitsSelf own k w && (x.edge == some w || decide (n ≥ stable))
  ⟨w, n, if edge then some w else none⟩

/-- The Ladle samples wait-for words (12 R439, R441; 18 R569). -/
def Die.wfgRuns (d : Die) : Bool :=
  d.u.bit Reg.wfgCtrl 0 && d.u.epochsFire && decide (d.u.power < 2) && !d.u.inReset 4

/-- WAITFOR_SAMPLE (12 R439): a word not listed is 0. -/
def Die.waitforSample (d : Die) (l : List (Fin 128 × Word)) : Die :=
  if !d.wfgRuns then d
  else
    let word := fun (k : Nat) => match l.find? fun p => p.1.val == k with | some p => p.2 | none => (0 : Word)
    let own := d.u.node
    let self := (List.range 128).any fun k => waits (word k) && waitsSelf own k (word k)
    let d := if self then { d with u := d.u.err Reg.wfgErr 0 } else d
    let stable := d.u.fld Reg.wfgStable 3 0
    d.onWfg fun x => { x with
      samples := (x.samples + 1) % 2 ^ 32
      agents := (List.range 128).map fun k => (k, (Tab.getD x.agents k wfAgent0).sample own k stable (word k)) }

/-- The edges held: agent and word, ascending (12 R439). -/
def Wfg.edges (x : Wfg) : List (Nat × Word) :=
  (x.agents.map fun (p : Nat × WfAgent) => match p.2.edge with | some w => [(p.1, w)] | none => []).flatten

/-- Payload of a WAITFOR record (12 R440). -/
def waitforPayload (own : Node) (flags samples : Nat) (l : List (Nat × Word)) : List Byte :=
  leBytes 2 l.length ++ leBytes 1 flags ++ zeros 1 ++ leBytes 4 samples ++ zeros 8
    ++ (l.map fun (p : Nat × Word) =>
          leBytes 1 p.1 ++ leBytes 1 (fieldOf p.2 6 0) ++ leBytes 1 (fieldOf p.2 29 27) ++ zeros 1
            ++ leBytes 3 (waitDie own p.2).toNat ++ zeros 1).flatten

/-- Commit a WAITFOR record of a set of edges; one refused is not counted as reported (12 R440). -/
def Die.waitforRecord (d : Die) (flags : Nat) (l : List (Nat × Word)) : Die :=
  let before := (d.u.stream 3).next
  let u := d.u.record 0x26 .record (waitforPayload d.u.node flags d.wfg.samples l)
  if (u.stream 3).next = before then { d with u := u }
  else { d with u := u.count Reg.wfgRptcnt, wfg := { d.wfg with told := l, toldAt := d.u.clk } }

/-- WAITFOR_REPORT (12 R440): the edge set differs from the last one reported, or the report period is over. -/
def Die.waitforReport (d : Die) : Die :=
  if !d.wfgRuns then d
  else if d.wfg.edges ≠ d.wfg.told then d.waitforRecord 0 d.wfg.edges
  else if d.u.since d.wfg.toldAt ≥ msT (d.u.fld Reg.wfgRptper 15 0) then d.waitforRecord 2 d.wfg.edges
  else d

/-- Before SLEEP or HOSTOFF (12 R441). -/
def Die.waitforSleep (d : Die) : Die := if d.u.bit Reg.wfgCtrl 0 then d.waitforRecord 1 [] else d

/-- A LADLE partition reset clears every edge and the count of samples (12 R440, R441). -/
def Die.waitforClear (d : Die) : Die := d.onWfg fun x => { x with agents := [], samples := 0 }

/-- WFG registers that the samples give (12 R450). -/
def Die.wfgView (d : Die) (ofs k : Nat) : Option Word :=
  let w := fun (n : Nat) => some (BitVec.ofNat 32 n)
  let x := Tab.getD d.wfg.agents k wfAgent0
  if ofs = Reg.wfgStat then
    w (d.wfg.edges.length + 256 * (d.wfg.agents.filter fun (p : Nat × WfAgent) => waits p.2.last).length)
  else if ofs = Reg.wfgAtWord then some x.last
  else if ofs = Reg.wfgAtEdge then some (x.edge.getD 0)
  else if ofs = Reg.wfgAtAge then w x.n
  else none

/-! ### The tray graph -/

/-- A vertex: die address and agent index (12 R439). -/
def vertex (die : Node) (agent : Nat) : Word := BitVec.ofNat 32 (die.toNat + agent * 2 ^ 24)

/-- The die of a vertex. -/
def vertexDie (v : Word) : Node := BitVec.ofNat 24 v.toNat

/-- The tray of a vertex, G and T. -/
def vertexTray (v : Word) : Nat := trayOf (vertexDie v)

/-- The graph of a die as a WAITFOR record gives it (12 R440). -/
def graphOf (r : Rec) : DieGraph :=
  let b := r.payload
  let edge := fun (i : Nat) =>
    (leAt b (16 + 8 * i) 1, leAt b (17 + 8 * i) 1, (BitVec.ofNat 24 (leAt b (20 + 8 * i) 3) : Node))
  ⟨(List.range (leAt b 0 2)).map edge, decide (leAt b 2 1 % 2 = 1), r.time.toNat⟩

/-- Change the hang assembly. -/
def Agg.onHang (a : Agg) (f : Hang → Hang) : Agg := { a with hang := f a.hang }

/-- A WAITFOR record of a die of the tray is journaled (12, "Assembly and cycle search"). -/
def Agg.hangIn (a : Agg) (r : Rec) : Agg :=
  if kindOf r.src = 0 && trayOf r.src == a.tray then
    a.onHang fun h => { h with dies := Tab.put (dieKey r.src) (graphOf r) h.dies }
  else a

/-- A die's record is too old, or has POWER set (12 R442). -/
def Agg.stale (a : Agg) (g : DieGraph) : Bool :=
  g.power || decide (timeMs (a.u.tb.now - g.time) > a.u.fld Reg.wfaStale 15 0)

/-- Edges of the tray graph, from vertex to vertex (12 R442). -/
def Agg.trayEdges (a : Agg) : List (Word × Word) :=
  (a.hang.dies.map fun (p : Nat × DieGraph) =>
    if a.stale p.2 then []
    else p.2.edges.map fun e => (vertex (a.dieAddr p.1) e.1, vertex e.2.2 e.2.1)).flatten

/-- Where a vertex's edge goes. -/
def edgeFrom (l : List (Word × Word)) (v : Word) : Option Word :=
  match l.find? fun e => e.1 == v with | some e => some e.2 | none => none

/-- Follow edges from a vertex within a tray: STAT, path, next vertex on another tray (12, "Assembly and cycle search"). -/
def walkTray (l : List (Word × Word)) (tray : Nat) : Nat → Word → List Word → Nat × List Word × Word
  | 0, _, path => (0, path, 0)
  | n + 1, v, path =>
    let path := path ++ [v]
    match edgeFrom l v with
    | none => (0, path, 0)
    | some w =>
      if vertexTray w ≠ tray then (1, path, w)
      else if path.contains w then (2, path, w)
      else walkTray l tray n w path

/-- Insert a pair by its first word, ascending. -/
def insertExit (e : Word × Word) : List (Word × Word) → List (Word × Word)
  | [] => [e]
  | x :: t => if e.1.toNat ≤ x.1.toNat then e :: x :: t else x :: insertExit e t

/-- A cycle as listed: from the lowest vertex, at most 32 vertices, its total beside them (08 R325).
Mark: DEDUCED (log entry 33, unsafe). -/
def listCycle (p : List Word) : HangCycle :=
  let low := p.foldl (fun (m : Nat) v => min m v.toNat) (2 ^ 32)
  let i := p.findIdx fun v => v.toNat == low
  ⟨BitVec.ofNat 8 (satN 8 p.length), (p.drop i ++ p.take i).take 32⟩

/-- Cycles of a tray: each is found from its lowest vertex. -/
def trayCycles (l : List (Word × Word)) (tray : Nat) : List HangCycle :=
  (l.map fun e =>
    let r := walkTray l tray (l.length + 1) e.1 []
    if r.1 = 2 && r.2.2 == e.1 && r.2.1.all (fun v => decide (e.1.toNat ≤ v.toNat)) then [listCycle r.2.1] else []).flatten

/-- Exits of a tray, by ascending U. -/
def trayExits (l : List (Word × Word)) (tray : Nat) : List (Word × Word) :=
  (l.filter fun e => vertexTray e.2 != tray).foldr insertExit []

/-- This side assembles the tray graph (12, "Assembly and cycle search"). -/
def Agg.assembles (a : Agg) : Bool :=
  a.joined && a.u.bit Reg.wfaCtrl 0 && (decide (a.side = .a) || !a.partner)

/-! ### Deciders -/

/-- The scope of an assembly holds a vertex: the group, or the hall. -/
def Agg.inScope (a : Agg) (sys : Bool) (v : Word) : Bool := sys || vertexTray v / 64 == a.tray / 64

/-- The assembly of a scope. -/
def Agg.asm (a : Agg) (sys : Bool) : Option Assembly := if sys then a.hang.system else a.hang.group

/-- Put it. -/
def Agg.setAsm (a : Agg) (sys : Bool) (x : Option Assembly) : Agg :=
  a.onHang fun h => if sys then { h with system := x } else { h with group := x }

/-- An assembly begins, or the instant is skipped (12 R446). -/
def Agg.asmBegin (a : Agg) (sys : Bool) (n : Nat) : Agg :=
  if !a.decides sys || !a.u.bit Reg.wfaCtrl 0 then a
  else match a.asm sys with
    | some _ => a.onU fun u => (u.count Reg.wfaSkipcnt).err Reg.wfaErr 3
    | none => a.setAsm sys (some ⟨n, a.u.clk, false, [], [], [], [], []⟩)

/-- A walk over answers: STAT, or 4 where an answer lacks; the path; the vertex at which it leaves or closes, or whose answer
lacks. -/
def walkRsps (rs : List WalkRsp) (inside : Word → Bool) : Nat → Word → List Word → List Word → Nat × List Word × Word
  | 0, w, path, _ => (4, path, w)
  | n + 1, w, path, seen =>
    match rs.find? fun r => r.w == w with
    | none => (4, path, w)
    | some r =>
      let path := path ++ r.path
      let seen := seen ++ [w]
      if r.stat ≠ 1 then (r.stat.toNat, path, 0)
      else if !inside r.nextw then (1, path, r.nextw)
      else if seen.contains r.nextw then (2, path, r.nextw)
      else walkRsps rs inside n r.nextw path seen

/-- Cycles that an assembly finds across its trays, or groups (12 R444). -/
def Agg.asmCycles (a : Agg) (sys : Bool) (x : Assembly) : List HangCycle :=
  ((x.exits.map fun e =>
    let r := walkRsps x.rsps (a.inScope sys) (x.rsps.length + 1) e.2 [] []
    if r.1 = 2 && r.2.2 == e.2 then [listCycle r.2.1] else []).flatten).eraseDups

/-- A HANG fence's extension (08 R296). -/
def hangExt (c : HangCycle) : List Byte :=
  leBytes 1 c.verts.length ++ leBytes 1 (b2n (decide (c.total.toNat > c.verts.length))) ++ zeros 2
    ++ (c.verts.map fun v => leBytes 4 v.toNat).flatten

/-- A cycle seen twice is decided (08 R325): cause HANG. The spec names no SEFF for it: a free value. A decision that
concerns a spanning watch group is the system decider's. Mark: DEDUCED (log entry 33, unsafe). -/
def Agg.hangDecide (a : Agg) (sys : Bool) (c : HangCycle) : Agg :=
  let n := vertexDie (c.verts.headD 0)
  let r := a.u.draw
  let a := { a with u := r.2 }
  let dies := (c.verts.map vertexDie).eraseDups
  let up := !sys && dies.any fun d => (a.groupsOf d).any WGroup.span
  let p : Proposal := ⟨n, 7, 14, 0, 0, 0, n, 0⟩
  let f := { a.draftFence p 7 14 (4 * b2n (sys || up)) sys with ext := hangExt c, seff := BitVec.ofNat 32 (r.1 % 2 ^ 24) }
  a.startDecision f [] sys up

/-- The search is complete (12 R444, R446): cycles seen in the last assembly too give a fence.
Mark: DEDUCED (log entry 33, unsafe). -/
def Agg.asmDone (a : Agg) (sys : Bool) (x : Assembly) : Agg :=
  let own := if sys then [] else x.cycles
  let found := (own ++ a.asmCycles sys x).eraseDups
  let last := if sys then a.hang.lastSystem else a.hang.lastGroup
  let a := a.onHang fun h =>
    let h := { h with lastAsmn := x.asmn, lastCycles := found.length, lastExits := x.exits.length }
    if sys then { h with system := none, lastSystem := found } else { h with group := none, kept := some x, wanted := [], probes := [], lastGroup := found }
  (found.filter fun c => last.contains c).foldl (fun (a : Agg) c => a.hangDecide sys c) a

/-- A GROUPGRAPH reaches the system decider (12 R443). -/
def Agg.graphIn (a : Agg) (sys : Bool) (src : Node) (g : HangGraph) : Agg :=
  match a.asm sys with
  | none => a
  | some x =>
    if !a.decides sys || x.closed || decide (x.asmn ≠ g.asmn.toNat) then a
    else a.setAsm sys (some { x with from_ := x.from_ ++ [src], cycles := x.cycles ++ g.cycles, exits := x.exits ++ g.exits })

/-- A list in parts of at most `n`. -/
def partsOf {α : Type} (n : Nat) : Nat → List α → List (List α)
  | 0, l => [l]
  | k + 1, l => if l.length ≤ n then [l] else l.take n :: partsOf n k (l.drop n)

/-- The frames of a graph: one, or its cycles and then its exits in frames of at most 8,704 bytes with FRAG from 0 (12 R443;
11 R395). Mark: DEDUCED (log entry 33, unsafe). -/
def graphFrames (g : HangGraph) : List HangGraph :=
  if g.len ≤ 8688 then [g]
  else
    let cs := (partsOf 60 g.cycles.length g.cycles).filter fun l => !l.isEmpty
    let es := (partsOf 1000 g.exits.length g.exits).filter fun l => !l.isEmpty
    let parts := cs.map (fun c => (c, [])) ++ es.map fun e => ([], e)
    (parts.zip (List.range parts.length)).map fun p =>
      ⟨g.asmn, BitVec.ofNat 8 p.2, BitVec.ofNat 8 parts.length, p.1.1, p.1.2⟩

/-- Send a graph. -/
def Agg.sendGraph (a : Agg) (dest : Node) (h : VoteHead) (body : HangGraph → VoteBody) (g : HangGraph) : Agg :=
  (graphFrames g).foldl (fun (a : Agg) x => a.send dest 1 (.vote h (body x)) 0) a

/-- Send answers, at most 60 in a frame (12 R443). -/
def Agg.sendWalks (a : Agg) (dest : Node) (h : VoteHead) (asmn : Nat) (rs : List WalkRsp) : Agg :=
  let l := partsOf 60 rs.length rs
  (l.zip (List.range l.length)).foldl
    (fun (a : Agg) p => a.send dest 1 (.vote h (.entryRsp (BitVec.ofNat 64 asmn) p.2 l.length p.1)) 0) a

/-- After the group's search: GROUPGRAPH with the group's cycles and the exits that leave the group (12 R443, R444). -/
def Agg.sendGroup (a : Agg) (x : Assembly) : Agg :=
  let g : HangGraph :=
    ⟨BitVec.ofNat 64 x.asmn, 0, 1, a.hang.lastGroup, x.exits.filter fun e => !a.inScope false e.2⟩
  let a := if a.decides true then a.graphIn true a.u.node g else a
  a.sendGraph systemCtl (a.voteHead 1 a.vote.group.term (x.asmn % 2 ^ 32)) .groupGraph g

/-- The search of an assembly that has every answer it asked for. -/
def Agg.asmTry (a : Agg) (sys : Bool) : Agg :=
  match a.asm sys with
  | none => a
  | some x =>
    if !x.closed || !x.asked.isEmpty then a
    else
      let a := a.asmDone sys x
      if sys then a else a.sendGroup x

/-- The walk of a vertex in the own tray, as ENTRYRSP gives it (12 R443). -/
def Agg.walkOf (a : Agg) (w : Word) : WalkRsp :=
  if vertexTray w ≠ a.tray then ⟨w, 3, [], 0⟩
  else
    let l := a.trayEdges
    let r := walkTray l a.tray (l.length + 1) w []
    ⟨w, BitVec.ofNat 2 r.1, r.2.1.take 32, r.2.2⟩

/-- Assembler of a tray: side A, or B where A is not heard. -/
def Agg.assemblerOf (a : Agg) (tray : Nat) : Node :=
  if !a.beating (sideAddr tray .a) && a.beating (sideAddr tray .b) then sideAddr tray .b else sideAddr tray .a

/-- The group decider's answer for a vertex asked by the system decider, when its own data suffice (12 R444). -/
def Agg.groupWalk (a : Agg) (w : Word) : Option WalkRsp :=
  match a.hang.kept with
  | none => none
  | some x =>
    let r := walkRsps x.rsps (a.inScope false) (x.rsps.length + 1) w [] []
    if r.1 = 4 then none else some ⟨w, BitVec.ofNat 2 r.1, r.2.1.take 32, if r.1 = 1 then r.2.2 else 0⟩

/-- The vertex at which a walk over the kept answers needs another answer. -/
def Agg.lackOf (a : Agg) (w : Word) : Word :=
  match a.hang.kept with
  | none => w
  | some x => (walkRsps x.rsps (a.inScope false) (x.rsps.length + 1) w [] []).2.2

/-- Answers join the kept ones. -/
def Agg.keepWalks (a : Agg) (asmn : Option Nat) (rs : List WalkRsp) : Agg :=
  a.onHang fun x => { x with
    probes := x.probes.filter fun w => !rs.any fun r => r.w == w
    kept := x.kept.map fun (k : Assembly) =>
      if asmn.all fun n => k.asmn == n then { k with rsps := k.rsps ++ rs.filter fun r => !k.rsps.any fun q => q.w == r.w } else k }

/-- The own tray's walks that the answer for a vertex needs join the kept answers. -/
def Agg.knowOwn : Nat → Word → Agg → Agg
  | 0, _, a => a
  | n + 1, w, a =>
    let v := a.lackOf w
    let known := match a.hang.kept with | some k => k.rsps.any fun q => q.w == v | none => true
    if (a.groupWalk w).isSome || vertexTray v != a.tray || !a.assembles || known then a
    else Agg.knowOwn n w (a.keepWalks none [a.walkOf v])

/-- The group decider asks trays for what it needs to answer the system decider (12 R444). -/
def Agg.pursue (a : Agg) (asmn : Nat) : Agg :=
  let a := a.hang.wanted.foldl (fun (a : Agg) w => Agg.knowOwn (a.trayEdges.length + 1) w a) a
  let lack := ((a.hang.wanted.filter fun w => (a.groupWalk w).isNone).map a.lackOf).eraseDups
  let ask := lack.filter fun w => !a.hang.probes.contains w
  let a := a.onHang fun x => { x with probes := x.probes ++ ask }
  ask.foldl (fun (a : Agg) w =>
    a.send (a.assemblerOf (vertexTray w)) 1 (.vote (a.voteHead 1 a.vote.group.term (asmn % 2 ^ 32))
      (.entryQ (BitVec.ofNat 64 asmn) [w])) 0) a

/-- Vertices that the system decider asks of its own group: what is known now, and what stays wanted (12 R444). -/
def Agg.askOwnGroup (a : Agg) (asmn : Nat) (ws : List Word) : Agg × List WalkRsp :=
  let a := (a.onHang fun x => { x with wanted := (x.wanted ++ ws).eraseDups }).pursue asmn
  let rs := ws.filterMap a.groupWalk
  (a.onHang fun x => { x with wanted := x.wanted.filter fun w => !rs.any fun r => r.w == w }, rs)

/-- Ask for the walks of vertices (12 R444): of trays in the group, or of groups; the own tray and the own group answer
without a message. -/
def Agg.askWalks (a : Agg) (sys : Bool) (ws : List Word) : Agg :=
  match a.asm sys with
  | none => a
  | some x =>
    let ws := (ws.filter fun w => a.inScope sys w && !x.asked.contains w && !x.rsps.any fun r => r.w == w).eraseDups
    let here := fun (w : Word) =>
      if sys then a.decides false && vertexTray w / 64 == a.tray / 64 else vertexTray w == a.tray && a.assembles
    let own := ws.filter here
    let away := ws.filter fun w => !here w
    let r := if sys then (if own.isEmpty then (a, []) else a.askOwnGroup x.asmn own) else (a, own.map a.walkOf)
    let rest := own.filter fun w => !r.2.any fun q => q.w == w
    let a := r.1.setAsm sys (some { x with rsps := x.rsps ++ r.2, asked := x.asked ++ away ++ rest })
    let dest := fun (w : Word) => if sys then a.rootOf (vertexTray w / 64) else some (a.assemblerOf (vertexTray w))
    away.foldl (fun (a : Agg) w => match dest w with
      | some n => a.send n 1 (.vote (a.voteHead (if sys then 2 else 1) (a.role sys).term (x.asmn % 2 ^ 32))
          (.entryQ (BitVec.ofNat 64 x.asmn) [w])) 0
      | none => a) a

/-- HANG_ASSEMBLY (12 R442-R444, R446): once in each VOT_HANGPER ms (08 R325). -/
def Agg.hangAssembly (a : Agg) : Agg :=
  let n := timeMs a.u.tb.now / max 1 (a.u.fld Reg.votHangper 15 0)
  let again := decide (a.hang.period = some n)
  let a := if again then a else ((a.onHang fun h => { h with period := some n }).asmBegin true n).asmBegin false n
  if again || !a.assembles then a
  else
    let old := (a.hang.dies.filter fun (p : Nat × DieGraph) => a.stale p.2).length
    let a := if old = 0 then a else a.onU fun u => (u.countBy Reg.wfaStalecnt old).err Reg.wfaErr 0
    let l := a.trayEdges
    let cs := trayCycles l a.tray
    let es := trayExits l a.tray
    let a := if es.length > 1024 then a.onU fun u => u.err Reg.wfaErr 1 else a
    let a := a.onHang fun h => { h with lastAsmn := if a.vote.group.held then h.lastAsmn else n
                                        lastCycles := cs.length, lastExits := min 1024 es.length }
    let g : HangGraph := ⟨BitVec.ofNat 64 n, 0, 1, cs, es.take 1024⟩
    if a.decides false then a.graphIn false a.u.node g
    else a.sendGraph a.ctl (a.voteHead 0 0 (n % 2 ^ 32)) .trayGraph g

/-- Answers of a scope: what they lead to is asked in turn (12 R444). -/
def Agg.rspIn1 (a : Agg) (sys : Bool) (asmn : Nat) (rs : List WalkRsp) : Agg :=
  match a.asm sys with
  | none => a
  | some x =>
    if decide (x.asmn ≠ asmn) then a
    else
      let new := rs.filter fun r => !x.rsps.any fun q => q.w == r.w
      let x := { x with rsps := x.rsps ++ new, asked := x.asked.filter fun w => !rs.any fun r => r.w == w }
      let next := (new.filter fun r => r.stat == 1).map WalkRsp.nextw
      (a.setAsm sys (some x)).askWalks sys next

/-- Answers that the own group and tray gave at once lead on too: what they lead to is asked, until nothing new is known. -/
def Agg.followOwn (sys : Bool) : Nat → Agg → Agg
  | 0, a => a
  | n + 1, a =>
    match a.asm sys with
    | none => a
    | some x =>
      let next := (x.rsps.filter fun r => r.stat == 1).map WalkRsp.nextw
      let open_ := next.filter fun w => a.inScope sys w && !x.asked.contains w && !x.rsps.any fun r => r.w == w
      if open_.isEmpty then a else Agg.followOwn sys n (a.askWalks sys open_)

/-- Answers of a scope, and the search when nothing is open (12 R444). -/
def Agg.rspIn (a : Agg) (sys : Bool) (asmn : Nat) (rs : List WalkRsp) : Agg :=
  let a := a.rspIn1 sys asmn rs
  (Agg.followOwn sys (a.trayEdges.length + 1) a).asmTry sys

/-- Time from the start of an assembly to the close of its collection, and to the end of its search at the latest
(12 R444, R445). -/
def closeTicks (sys : Bool) : Nat := usT (if sys then 450 else 150)
def searchTicks (sys : Bool) : Nat := usT (if sys then 1300 else 450)

/-- Collection closes for one scope; a search that still waits for answers at its latest time ends with those it has.
Mark: DEDUCED (log entry 33, unsafe). -/
def Agg.closeOne (a : Agg) (sys : Bool) : Agg :=
  match a.asm sys with
  | none => a
  | some x =>
    if x.closed then
      (if a.u.since x.at_ < searchTicks sys then a
       else ((a.setAsm sys (some { x with asked := [] })).onU fun u => u.err Reg.wfaErr 2).asmTry sys)
    else if decide (a.u.since x.at_ < closeTicks sys) then a
    else
      let known := ((if sys then a.vote.gbeats else a.vote.beats).map fun p => (BitVec.ofNat 24 p.1 : Node))
      let part := fun (n : Node) => if sys then trayOf n / 64 else trayOf n
      let mute := known.any fun n => (sys || trayOf n / 64 == a.tray / 64) && !x.from_.any fun m => part m == part n
      let a := if mute then a.onU fun u => u.err Reg.wfaErr 2 else a
      let a := (a.setAsm sys (some { x with closed := true })).askWalks sys (x.exits.map Prod.snd)
      (Agg.followOwn sys (a.trayEdges.length + 1) a).asmTry sys

/-- COLLECTION_CLOSE (12 R444). Mark: DEDUCED (log entry 33, unsafe). -/
def Agg.collectionClose (a : Agg) : Agg := (a.closeOne false).closeOne true

/-- Answer what the system decider has asked and what is now known (12 R444): over the fleet, or at once where this
aggregator is the system decider too. -/
def Agg.answerWanted (a : Agg) : Agg :=
  let rs := a.hang.wanted.filterMap a.groupWalk
  if rs.isEmpty then a
  else
    let a := a.onHang fun h => { h with wanted := h.wanted.filter fun w => !rs.any fun r => r.w == w }
    let n := match a.hang.kept with | some x => x.asmn | none => 0
    if a.decides true then a.rspIn true n rs
    else a.sendWalks systemCtl (a.voteHead 1 a.vote.group.term (n % 2 ^ 32)) n rs

/-- ENTRYQ (12 R443, R444): a tray assembler answers a group decider, a group decider the system decider; with WFAEN 0
nobody answers (R451). -/
def Agg.entryQ (a : Agg) (h : VoteHead) (asmn : Nat) (ws : List Word) : Agg :=
  if !a.u.bit Reg.wfaCtrl 0 then a
  else if h.role = 2 then
    if !a.decides false then a
    else ((a.onHang fun x => { x with wanted := (x.wanted ++ ws).eraseDups }).pursue asmn).answerWanted
  else if !a.assembles then a
  else a.sendWalks h.src (a.voteHead 0 0 (asmn % 2 ^ 32)) asmn (ws.map a.walkOf)

/-- ENTRYRSP (12 R443, R444). -/
def Agg.entryRsp (a : Agg) (h : VoteHead) (asmn : Nat) (rs : List WalkRsp) : Agg :=
  if h.role = 1 then (if a.decides true then a.rspIn true asmn rs else a)
  else if !a.decides false then a
  else (((a.rspIn false asmn rs).keepWalks (some asmn) rs).pursue asmn).answerWanted

/-- WFA registers that the assembly gives (12 R451). -/
def Agg.wfaView (a : Agg) (ofs k : Nat) : Option Word :=
  let w := fun (n : Nat) => some (BitVec.ofNat 32 n)
  if ofs = Reg.wfaStat then
    w (b2n (a.hang.group.isSome || a.hang.system.isSome) + 2 * b2n a.assembles + 256 * satN 8 a.hang.lastCycles
        + 65536 * satN 16 a.hang.lastExits)
  else if ofs = Reg.wfaAsml then w a.hang.lastAsmn
  else if ofs = Reg.wfaAsmh then w (a.hang.lastAsmn / 2 ^ 32)
  else if ofs = Reg.wfaAtRecage then
    w (match Tab.find k a.hang.dies with | some g => satN 16 (timeMs (a.u.tb.now - g.time)) | none => 0)
  else if ofs = Reg.wfaAtNedge then
    w (match Tab.find k a.hang.dies with | some g => satN 8 g.edges.length + 256 * b2n g.power | none => 0)
  else none

end Sys2Proof.Machine
end

