-- ==== Sys2Proof/Machine/Latch.lean ====
section
/-! DEFINITION. The snapshot latch of the die unit, whole (02 R75-R80; 03 R106-R122; 05 R170, R193, R205-R206; 06
R235, R240; 07 R263; 16 R532), and the effect of a main epoch on the pattern and the bank of a part. -/

namespace Sys2Proof.Machine

/-! ### Before the latch -/

/-- CAP is armed for an instant (02 R75). -/
def Cap.armedFor (c : Cap) (t : Nat) : Bool :=
  (c.armMain.any fun a => a.2 == t) || (c.armFast.any fun a => a.2 == t)

/-- Epoch number and instant that CAP is armed for next: the oldest of the kind that has fired and that CAP is not armed for,
else the next one (02 R75). -/
def Die.armNext (d : Die) (fast : Bool) : Nat × Nat :=
  let num := fun (f : Fired) => if fast then f.fast else f.main
  match d.u.ep.fired.find? fun f => (num f).isSome && !d.cap.armedFor f.time with
  | some f => ((num f).getD 0, f.time)
  | none => if fast then (d.u.nextFast / d.u.epfu, instantOf d.u.nextFast) else (d.u.nextMain / d.u.epu, instantOf d.u.nextMain)

/-- CAP_ARM: AON arms CAP with the epoch number and instant, from 2 µs before the instant (02 R75). One that comes later than
1 µs before it arms all the same. Mark: DEDUCED (log entry 58, unsafe). -/
def Die.capArm (d : Die) (fast : Bool) : Die :=
  let a := d.armNext fast
  if !d.u.capRuns || decide (d.u.tb.now + 2 ^ 32 / 500000 < a.2) then d
  else if fast then { d with cap := { d.cap with armFast := some a } }
  else { d with cap := { d.cap with armMain := some a } }

/-- LATCH_CLOCK_DECISION: at t0 − 64 ns (02 R79). -/
def Die.clockDecision (d : Die) : Die :=
  if d.u.capRuns then { d with cap := { d.cap with aon := some d.cap.loss } } else d

/-- HOST_CLOCK_LOSS: no capture edge for 32 ns (02, "Stopped host clocks"). -/
def Die.clockLoss (d : Die) : Die := if d.u.capRuns then { d with cap := { d.cap with loss := true } } else d

/-! ### What a latch gives -/

/-- The raw item of a source kind from a latch (05 R170, R175). -/
def rawOf (l : Latched) (src arg : Nat) : Raw :=
  if src = 0 then (match Tab.find (bitsOf arg 10 0) l.gen with | some x => .num x | none => .absent 5)
  else if src = 1 then .num (l.prod.getD (bitsOf arg 5 0) 0)
  else if src = 2 then (match l.fast[bitsOf arg 5 0]? with | some x => .num x | none => .absent 5)
  else if src = 3 then
    let e := l.sens.getD (bitsOf arg 7 0) 0
    .sensor (BitVec.ofNat 32 e) (bitsOf e 51 48) (e.testBit 52) (bitsOf e 47 32)
  else if src = 4 then (match l.phase.getD (bitsOf arg 3 0) none with | some x => .num x | none => .absent 6)
  else if src = 5 then .ratio
  else .absent 9

/-- Raw items of a vector: at a fast latch only SRC 2 features and ratios on them are new (05 R170). -/
def Die.raws (d : Die) (l : Latched) (isMain : Bool) : List Raw :=
  let fs := (d.u.bank d.u.sco.active).feats
  (fs.zip (freshAtFast fs)).map fun (p : Feat × Bool) =>
    if isMain || p.2 then rawOf l p.1.src p.1.arg else .kept

/-- The values of a latch (03 R106, R107; 04 R134), after `takeAll`. -/
def Die.latched (d : Die) (f : Fired) (isMain clkstop : Bool) (t : Taken) (old : Option Latched) : Latched :=
  let gens := t.delta.filter fun p => decide (p.1 < 2048)
  let base := match old with
    | some o => if isMain then [] else o.gen
    | none => []
  { epn := (if isMain then f.main else f.fast).getD 0, time := f.time
    gen := gens.foldl (fun (g : Tab Nat) p => Tab.put p.1 p.2 g) base
    prod := (List.range 64).map fun j =>
      match Tab.find (2048 + j) t.delta with
      | some x => x
      | none => (match old with | some o => o.prod.getD j 0 | none => 0)
    fast := (cntFastSet (d.u.sec 2)).map fun i => Tab.getD t.delta i 0
    sens := (List.range 256).map d.sensEntry
    fastSet := cntFastSet (d.u.sec 2), plans := d.u.sec 9
    phase := (List.range 16).map d.phaseNow
    ovf := t.ovf
    clkstop := clkstop }

/-- The 8-bit load signature (07 R263). -/
def Die.loadSig (d : Die) (l : Latched) : Nat :=
  let q := fun (i : Nat) =>
    let w := d.u.rd (Reg.witLscfg + 4 * i)
    if bitAt w 31 then
      let idx := fieldOf w 10 0
      let x := if bitAt w 30 then l.prod.getD (idx % 64) 0 else Tab.getD l.gen idx 0
      let x := x / 2 ^ fieldOf w 17 12
      if x > 0 then min 15 (Nat.log2 x + 1) else 0
    else 0
  let v := ((List.range 8).map fun i => q i * 16 ^ i).sum
  bitsOf v 7 0 ^^^ bitsOf v 15 8 ^^^ bitsOf v 23 16 ^^^ bitsOf v 31 24

/-- Jobs of a latch: fast before main (05 R193; 06 R228). -/
def Unit.latchJobs (u : Unit) (isMain isFast : Bool) : Unit :=
  let u := if isFast then
      (u.treeJobs 1 (u.ensSlots fun e => e.trig == 1)).denseJobs 1 (u.modSlots fun m => m.trig == 1)
    else u
  if isMain then
    (u.treeJobs 0 (u.ensSlots fun e => e.trig == 0)).denseJobs 0 (u.modSlots fun m => m.trig == 0)
  else u

/-- Drift updates of a main latch (06 R235, R236). -/
def Die.driftLatch (d : Die) (f : Fired) (l : Latched) (clkstop : Bool) : Die :=
  let sec := d.u.sec 8
  let ms := driftMets sec
  let due := (List.range ms.length).map fun i =>
    match ms[i]? with | some m => (i, rawOf l m.src m.arg) | none => (i, Raw.absent 9)
  let band := loadBand (driftHead sec) (l.prod.getD 1 0) (l.prod.getD 0 0)
  d.onU fun u => u.addBatch (f.main.getD 0) f.time u.tb.tq clkstop band none due

/-- What a latch gives the scoring island, when it runs (05 R170, R193; 06 R228, R240). -/
def Die.scoreLatch (d : Die) (f : Fired) (l : Latched) (clkstop noMain noFast : Bool) : Die :=
  if !d.u.scores then d
  else
    let isMain := f.main.isSome
    let h : VecHead :=
      { epn := f.main.getD 0, fepn := f.fast.getD 0, time := f.time, tq := d.u.tb.tq, clkstop := clkstop
        step := f.step, partialRun := false, noMain := noMain, noFast := noFast, scopea := 0 }
    let raws := d.raws l isMain
    let d := d.onU fun u => (u.addVec isMain f.fast.isSome h raws).latchJobs isMain f.fast.isSome
    if isMain then d.driftLatch f l clkstop else d

/-- The latches of a kind that are kept beside the last: LOFS reaches at most 65,535 ns past an instant, and periods are
10 µs or more, so that 16 cover every runner on its way (04 R131, R134). Mark: DEDUCED (log entry 26, unsafe). -/
def keepLatch (l : Option Latched) (past : List Latched) : List Latched := (l.toList ++ past).take 16

/-- The latch itself, in the configuration then in force (03 R106-R116; 02 R77-R80). -/
def Die.latchCore (d : Die) (f : Fired) (late clkstop : Bool) (ofs : Int) (patm insgen : Nat) : Die :=
  let isMain := f.main.isSome
  let isFast := f.fast.isSome
  let t := d.takeAll isMain
  let d := { d with cap := { d.cap with gen := t.gen, prod := t.prod } }.onU fun u => u.noteOvf t.ovf
  let l := d.latched f isMain clkstop t d.cap.latMain
  let i : LatchInfo :=
    { fired := f, tq := d.u.tb.tq, clkstop := clkstop, late := late, ofs := ofs, capMain := d.cap.edgeMain
      capFast := d.cap.edgeFast, patm := patm, insgen := insgen }
  let per : Nat := f.epu * 10 * d.u.fld Reg.timCapnom 31 0
  let r := if isFast then d.writeImage true i t.ovf l.sens else (d, false)
  let d := r.1
  let q := if isMain then d.writeImage false i t.ovf l.sens else (d, false)
  let d := q.1
  let st := clampS 32 ((per : Int) - (i.capMain : Int))
  let d := d.onU fun u =>
    let u := if isMain then u.wrN Reg.timStretch (wrapN 32 st) else u
    let u := if late then u.err Reg.timErr 7 else u
    if clkstop then u.count Reg.timClkstopcnt else u
  let c := d.cap
  let later := fun (a : Option (Nat × Nat)) => a.filter fun x => decide (f.time < x.2)
  let c := { c with edgeFast := 0, armMain := later c.armMain, armFast := later c.armFast
                    aon := none }
  let c := if isMain then { c with edgeMain := 0, latMain := some l, pastMain := keepLatch c.latMain c.pastMain } else c
  let c := if isFast then { c with latFast := some { l with epn := f.fast.getD 0 }, pastFast := keepLatch c.latFast c.pastFast }
    else c
  let d := { d with cap := c }
  let d := if isMain then d.onU fun u => u.wrN Reg.witLsnow (d.loadSig l) else d
  (d.scoreLatch f l clkstop q.2 r.2).onU fun u => { u with sco := { u.sco with skip := u.sco.skip - 1 } }

/-! ### The pattern and the bank at a main epoch -/

/-- The content that takes effect at a main epoch: pending content that is due, or the empty pattern of a FOREIGN die
unit (16 R520, R532). -/
def Unit.contentAt (u : Unit) (main : Option Nat) : Option Content :=
  match main with
  | none => none
  | some n =>
    match u.pat.pending with
    | some c => if c.due n then some c else if u.pat.foreign && u.pat.meas.isSome then some u.emptyContent else none
    | none => if u.pat.foreign && u.pat.meas.isSome then some u.emptyContent else none

/-- The content replaces TAP or CNT (03 R121). Mark: DEDUCED (log entry 50, unsafe). -/
def Content.replaces (c : Content) : Bool := !c.insert || (Tab.find 1 c.secs).isSome || (Tab.find 2 c.secs).isSome

/-- A swap that is due at a main epoch is made (05 R205). -/
def Unit.swapAtMain (u : Unit) (main : Option Nat) : Unit :=
  match main with
  | some n => if u.swapDue n then u.swapNow else u
  | none => u

/-- The empty pattern of a FOREIGN unit or of a RELEASE (16 R519, R520): empty banks, no pattern in force; the floor stays.
Mark: DEDUCED (log entry 50, unsafe). -/
def Unit.emptyPattern (u : Unit) (c : Content) (old : Tab Section) (at_ : Nat) : Unit :=
  let pend := u.pat.pending.filter fun p => decide (p ≠ c)
  let was := u.pat.foreign
  let u := u.setBank (1 - u.sco.active) ⟨[], []⟩
  let u := u.swapNow
  let floor := u.pat.arbMin
  let u := u.applyContent c old at_
  { u with pat := { u.pat with meas := none, pending := pend, foreign := was, arbMin := floor } }

/-- The swap and the content of a main epoch take effect on the common part, at its instant. -/
def Unit.effect (u : Unit) (main : Option Nat) (content : Option Content) (at_ : Nat) : Unit :=
  let old := u.allSecs
  match content with
  | none => u.swapAtMain main
  | some c =>
    if c.digest = 0 ∧ c.secs = [] then u.emptyPattern c old at_ else (u.swapAtMain main).applyContent c old at_

/-- The same on a die unit, with the counters whose configuration changes (03 R121, R122). -/
def Die.effect (d : Die) (main : Option Nat) (content : Option Content) (at_ : Nat) : Die :=
  let old := d.u.sec 2
  let e := d.onU fun u => u.effect main content at_
  match content with
  | some c => if c.replaces then e.cntEffect old (e.u.sec 2) else e
  | none => e

/-- SNAPSHOT_LATCH and CLKSTOP_LATCH (02 R75-R80; 03 R94, R106-R122): the oldest instant fired is latched. Content that
replaces TAP or CNT, and a swap due with it, govern from the next latch; any other content and swap govern this one. While CAPTURE is in reset the
latch waits for its end (15 R510). Mark: DEDUCED (log entry 50, unsafe). -/
def Die.latch (d : Die) (late clkstop : Bool) (ofs : Int) : Die :=
  match d.u.ep.fired with
  | [] => d
  | f :: rest =>
    if d.u.inReset 0 then d
    else
    let d := d.onU fun u => { u with ep := { u.ep with fired := rest } }
    if !d.u.capRuns then d
    else
      let patm := d.u.patm
      let insgen := d.u.pat.insgen
      let content := d.u.contentAt f.main
      let after := match content with | some c => c.replaces | none => false
      if after then (d.latchCore f late clkstop ofs patm insgen).effect f.main content f.time
      else (d.effect f.main content f.time).latchCore f late clkstop ofs patm insgen

/-- The oldest instant fired that waits for its latch, where CAP is armed for it; an instant that a step passed fires at once
and needs no arm (02 R73, R75). -/
def Die.toLatch (d : Die) : Option Fired := d.u.ep.fired.head?.filter fun f => f.step || d.cap.armedFor f.time

/-- SNAPSHOT_LATCH: the latch edge comes `ofs` nanoseconds after the instant (02 R75). On a capture edge it is LATE when the
capture period that it ends is longer than 8 ns, or when it comes after the window (02 R78). On the AON oscillator the inputs
of the AON cycle before it wait until after it (02 R79). Mark: DEDUCED (log entry 58, unsafe). -/
def Die.snapshotLatch (d : Die) (ofs : Int) : Die :=
  match d.toLatch with
  | none => d
  | some _ =>
    if d.cap.aon = some true then
      if d.u.inReset 0 then d else (d.countWaiting.latch false true 0).countHeld
    else
      let late := decide (8000 < d.cap.lastPer) || decide (5 ≤ ofs)
      d.latch late false (if late then ofs else 0)

/-- No capture edge has come in the latch window of an instant, and 4.5 ns have passed since it (02 R80); for an instant that a
step passed, none for 8 ns. Mark: DEDUCED (log entry 58, unsafe). -/
def Die.clockStopped (d : Die) (f : Fired) : Bool :=
  let past := fun (t0 t1 : Nat) => decide (9 * 2 ^ 32 ≤ ((t1 : Int) - (t0 : Int)) * 2000000000)
  (f.step || past f.time d.u.tb.now) && match d.cap.edgeAt with
    | none => true
    | some (c, t) => if f.step then decide (2 ≤ d.u.since c) else past t f.time

/-- CLKSTOP_LATCH: no capture edge came by t0 + 4.5 ns, and the AON oscillator takes the latch (02 R80). -/
def Die.clkstopLatch (d : Die) : Die :=
  match d.toLatch with
  | none => d
  | some f => if d.cap.aon ≠ some true ∧ d.clockStopped f then d.latch false true 0 else d

/-- A main epoch of an aggregator: pattern and bank take effect (16 R532; 05 R205). The epoch is consumed at once. -/
def Unit.aggEpoch (u : Unit) : Unit :=
  match u.ep.fired with
  | [] => u
  | f :: rest => { u with ep := { u.ep with fired := rest } }.effect f.main (u.contentAt f.main) f.time

/-- The common part of the effect of a main epoch on a part whose latch does not run: none. -/
def Unit.dropFired (u : Unit) : Unit := { u with ep := { u.ep with fired := [] } }

end Sys2Proof.Machine
end

