-- ==== Sys2Proof/Machine/Power.lean ====
section
/-! DEFINITION. Power states and comparators of the die unit, the handshake at the die unit (18_power_startup). -/

namespace Sys2Proof.Machine

/-! ### Power states -/

/-- A PWRSTATE event (R580): old state, new state, entry begun. -/
def Unit.pwrState (u : Unit) (old new : Nat) (begun : Bool) : Unit :=
  u.event 0x050 [BitVec.ofNat 32 (old + 16 * new + 256 * b2n begun)]

/-- Change the power bookkeeping. -/
def Die.onP (d : Die) (f : Power → Power) : Die := { d with pw := f d.pw }

/-- Which islands are powered (PWR_STAT [1:0] as stored). -/
def Die.islands (d : Die) (n : Nat) : Die := d.onU fun u => u.wrFld Reg.pwrStat 1 0 n

/-- Entering QUIET: running and waiting scoring jobs are dropped (R576; 05 R194). -/
def Die.enterQuiet (d : Die) : Die := (d.onU Unit.dropJobs).islands 1

/-- Entering SLEEP (R576): the witness pending table, the trace streams, the wait-for record, the event; CAP and LAD
power off. What the compression engine still has is committed as it is: SLEEP stores nothing compressed (R573). -/
def Die.enterSleep (d : Die) (old new : Nat) : Die :=
  let d := d.witAbandon.traceSleep.waitforSleep.onU Unit.flmPark
  let d := { d with cap := { d.cap with armMain := none, armFast := none, waitTaps := [], aon := none } }
  (d.onU fun u => ((u.pwrState old new true).wrBit Reg.pwrStat 5 false)).islands 2

/-- Entering HOSTOFF, up to the wait for the heads (R577). -/
def Die.enterOff (d : Die) (old : Nat) : Die :=
  (d.onU fun u =>
    let u := u.pwrState old 3 true
    { u with recs := { u.recs with off := true } }).onP fun p => { p with drain := some d.u.clk }

/-- A transition begins (R574): the entry actions of each state between, in order. A return powers its islands when it
completes. Mark: DEDUCED (log entry 37, unsafe). -/
def Die.powerBegin (d : Die) (st : Nat) : Die :=
  let cur := d.pw.inforce
  if st = cur then d
  else
    let d := (d.onP fun p => { p with target := some st }).onU fun u => u.wrBit Reg.pwrStat 2 true
    let d := if cur < 1 ∧ 1 ≤ st then d.enterQuiet else d
    let d := if cur < 2 ∧ 2 ≤ st then d.enterSleep cur 2 else d
    if cur < 3 ∧ 3 ≤ st then d.enterOff cur else d

/-- A request for a state (R574): kept, one deep, while a transition runs. Mark: DEDUCED (log entry 37, unsafe). -/
def Die.powerRequest (d : Die) (st : Nat) : Die :=
  match d.pw.target with
  | some _ => (d.onP fun p => { p with kept := some st }).onU fun u => u.wrFld Reg.pwrStat 4 3 st
  | none => d.powerBegin st

/-- Note a wake source, in SLEEP or HOSTOFF (R579). -/
def Die.wakeSrc (d : Die) (bit : Nat) : Die :=
  if 2 ≤ d.pw.inforce then d.onU fun u => u.wrBit Reg.pwrWakesrc bit true else d

/-- PM_REQUEST: a PM_REQ change, or a PWR_REQ write (R574). -/
def Die.pmRequest (d : Die) (byReg : Bool) (st : Nat) : Die :=
  ((d.wakeSrc 0).onU fun u => u.wrBit Reg.pwrStat 6 (!byReg)).powerRequest st

/-- Every reachable head has journaled every record of the log (R577). -/
def Die.drained (d : Die) : Bool := d.reachable.isEmpty || dieStreams.all fun c =>
  d.reachable.all fun h => (d.u.stream c).log.all fun e => h.has c d.u.node e

/-- HOSTOFF_DRAIN: the drain ends or PWR_DRAINTO passes; the Race ports go DOWN and LNK powers off (R577). The receive
buffers of 10 R371 are emptied (R572). -/
def Die.hostoffDrain (d : Die) : Die :=
  match d.pw.drain with
  | none => d
  | some c =>
    let beyond := decide (msT (d.u.fld Reg.pwrDrainto 15 0) ≤ d.u.since c)
    if !d.drained && !beyond then d
    else
      ((d.onU fun u =>
        let u := if d.drained then u else u.err Reg.pwrErr 1
        [0, 1].foldl (fun (u : Unit) p =>
          if (u.rport p).state = 0 then u else u.retrainCause.2.portDown p u.retrainCause.1) u).onP fun p =>
          { p with drain := none }).islands 3

/-- Records that waited in HOSTOFF are committed, each with its own TIME (R573). -/
def Unit.commitWaiting (u : Unit) : Unit :=
  let l := u.recs.waiting
  let u := { u with recs := { u.recs with off := false, waiting := [] } }
  (l.foldl Unit.submit u).offerAll

/-- The islands of a higher state are on (R574): counters resume (03 R120), trace streams continue (12 R433), scoring
resumes (R575), the LNK island returns (R573). The CAP island comes up with no seed and a load signature of 0 (07 R257,
R263). -/
def Die.powerUpTo (d : Die) (st : Nat) : Die :=
  let cur := d.pw.inforce
  let d := d.islands st
  let d := if cur = 3 then d.onU Unit.commitWaiting else d
  let d := if 2 ≤ cur ∧ st < 2 then
      { d.capResume.traceWake with wit := { d.wit with seed := none } }.onU fun u => u.wr Reg.witLsnow 0
    else d
  if st = 0 then d.onU Unit.scoPowerUp else d

/-- POWER_TRANSITION_DONE (R574, R580): the state in force, PM_ACK, DONE, PWRSTATE; then a kept request acts.
Mark: DEDUCED (log entry 37, unsafe). -/
def Die.powerDone (d : Die) : Die :=
  match d.pw.target with
  | none => d
  | some st =>
    if d.pw.drain.isSome then d
    else
      let old := d.pw.inforce
      let d := if st < old then d.powerUpTo st else d
      let kept := d.pw.kept
      let d := d.onP fun p => { p with inforce := st, target := none, kept := none }
      let d := d.onU fun u =>
        let u := (((u.wrBit Reg.pwrStat 2 false).wrFld Reg.pwrStat 4 3 0).count Reg.pwrTrancnt).err Reg.pwrErr 0
        ((u.irq 7).pwrState old st false).emit (.pin .pmAck st)
      match kept with
      | some k => d.powerBegin k
      | none => d

/-- The Ladle reaches an idle point: a firmware switch that waits for one is made (16 R537); in SLEEP and HOSTOFF the
LAD island powers off (R579). -/
def Die.ladleIdle (d : Die) : Die :=
  d.onU fun u =>
    let u := u.fwIdle
    if 2 ≤ u.power then u.wrBit Reg.pwrStat 5 false else u

/-- WAKE of R591: in SLEEP, where RWAKEEN allows it (R579). Mark: DEDUCED (log entry 37, unsafe). -/
def Die.wake (d : Die) (st : Nat) : Die :=
  if d.pw.inforce = 2 ∧ d.u.bit Reg.pwrCtrl 0 ∧ st < 4 then (d.wakeSrc 2).powerRequest st else d

/-! ### Comparators -/

/-- A comparator's value as a number: TEMP in signed Q16.16, otherwise unsigned (R581).
Mark: DEDUCED (log entry 38, unsafe). -/
def cmpNum (cfg v : Word) : Int := if fieldOf cfg 31 30 = 1 then v.toInt else (v.toNat : Int)

/-- A comparator's threshold (R581): 1 for CLKLOSS. -/
def Unit.cmpThr (u : Unit) (i : Nat) : Int :=
  let cfg := u.rd Reg.pwrAtCmpcfg i
  if fieldOf cfg 31 30 = 2 then 1 else cmpNum cfg (u.rd Reg.pwrAtCmpthr i)

/-- A value lies at or beyond THR in direction DIR (R581). Mark: DEDUCED (log entry 38, unsafe). -/
def Unit.cmpBeyond (u : Unit) (i : Nat) (v : Word) : Bool :=
  let cfg := u.rd Reg.pwrAtCmpcfg i
  if bitAt cfg 29 then decide (cmpNum cfg v ≤ u.cmpThr i) else decide (u.cmpThr i ≤ cmpNum cfg v)

/-- A value lies past the hysteresis on the other side (R581). Mark: DEDUCED (log entry 38, unsafe). -/
def Unit.cmpBack (u : Unit) (i : Nat) (v : Word) : Bool :=
  let cfg := u.rd Reg.pwrAtCmpcfg i
  let h : Int := (u.rdN Reg.pwrAtCmphyst i : Int)
  if bitAt cfg 29 then decide (u.cmpThr i + h < cmpNum cfg v) else decide (cmpNum cfg v < u.cmpThr i - h)

/-- Arguments of CMPTRIP and CMPCLEAR (R580). -/
def cmpArgs (i : Nat) (v : Word) : List Word := [BitVec.ofNat 32 i, v]

/-- COMPARATOR_TRIP (R581, R582): each action set in ACT is taken. -/
def Die.cmpTrip (d : Die) (i : Nat) (v : Word) : Die :=
  if !d.u.bit Reg.pwrAtCmpen 0 i || d.u.bit Reg.pwrAtCmpstat 0 i || !d.u.cmpBeyond i v then d
  else
    let act := d.u.fld Reg.pwrAtCmpcfg 19 16 i
    let d := d.onU fun u =>
      let u := (((u.wr Reg.pwrAtCmpval v i).wrBit Reg.pwrAtCmpstat 0 true i).count Reg.pwrAtCmpcnt i).err Reg.pwrErr 2
      let u := if act.testBit 0 then u.event 0x051 (cmpArgs i v) else u
      let u := if act.testBit 2 then u.irq 1 else u
      if act.testBit 3 then u.emit (.pin (.cmpOut i) 1) else u
    if act.testBit 1 && decide (2 ≤ d.pw.inforce) then (d.wakeSrc 1).powerRequest (d.u.fld Reg.pwrCtrl 5 4) else d

/-- COMPARATOR_CLEAR (R581, R582). -/
def Die.cmpClear (d : Die) (i : Nat) (v : Word) : Die :=
  if !d.u.bit Reg.pwrAtCmpstat 0 i || !d.u.cmpBack i v then d
  else
    let act := d.u.fld Reg.pwrAtCmpcfg 19 16 i
    d.onU fun u =>
      let u := (u.wr Reg.pwrAtCmpval v i).wrBit Reg.pwrAtCmpstat 0 false i
      let u := if act.testBit 0 then u.event 0x052 (cmpArgs i v) else u
      if act.testBit 3 then u.emit (.pin (.cmpOut i) 0) else u

/-- A configuration under which CMPEN cannot be set (R595). -/
def cmpCfgBad (cfg : Word) : Bool :=
  let k := fieldOf cfg 31 30
  let ch := fieldOf cfg 6 0
  k == 3 || (k == 0 && decide (63 < ch)) || (k == 1 && decide (95 < ch))

/-- A write of PWR[sel].CMPEN (R583, R595): a comparator disabled while tripped drops its pin and commits nothing. -/
def Unit.cmpEnable (u : Unit) (i : Nat) (on : Bool) : Unit :=
  let cfg := u.rd Reg.pwrAtCmpcfg i
  if on then (if cmpCfgBad cfg then u.accErr else u.wr Reg.pwrAtCmpen 1 i)
  else
    let pin := u.bit Reg.pwrAtCmpstat 0 i && bitAt cfg 19
    let u := (u.wr Reg.pwrAtCmpen 0 i).wrBit Reg.pwrAtCmpstat 0 false i
    if pin then u.emit (.pin (.cmpOut i) 0) else u

/-! ### The handshake at the die unit -/

/-- The handshake of a die unit with a certificate that verifies (R591; 16 R520): the owner and the floor, FOREIGN, the
end of a POWERFAIL refusal. Mark: DEDUCED (log entry 54, unsafe), DEDUCED (log entry 56, unsafe). -/
def Unit.handshake (u : Unit) (cert : List Byte) (floor : Nat) : Unit :=
  let p := u.pat
  let bad := p.meas.isSome && (decide (p.patOwner ≠ some (certOwner cert)) || decide (p.arb < floor))
  let u := { u with
    pat := { p with owner := some (certOwner cert), cert := cert, arbMin := floor, provisional := false, foreign := bad }
    recs := { u.recs with powerFail := false } }
  if bad && !p.foreign then u.alarm .foreign else u

/-- PAIRUP (R591): when both halves are held from one issuer and the certificate verifies, the handshake completes. -/
def Die.pairUp (d : Die) (x : PairUp) : Die :=
  let d := d.onP fun p => if x.half then { p with half1 := some x } else { p with half0 := some x }
  match d.pw.half0, d.pw.half1 with
  | some a, some b =>
    let cert := a.cert ++ b.cert
    if a.issuer = b.issuer ∧ operatorCert cert then
      { (d.onU fun u => u.handshake cert x.arbmind.toNat).onP fun p => { p with half0 := none, half1 := none } with
          paired := true }
    else d
  | _, _ => d

/-- Last start-up step completed (R588). Mark: DEDUCED (log entry 56, unsafe). -/
def Die.startStep (d : Die) : Nat :=
  if !d.u.ep.started then 0
  else if !d.u.nodeOk then 2
  else if !d.paired then 3
  else if d.u.race.gen.isEmpty then 4
  else if d.pw.served then 6 else 5

/-- The longest wait of each agent of the shared port, in cycles (R585). -/
def arbWorst : List Nat := [1, 266, 330, 331, 333, 337]

/-- PWR_ARBMAX0–5, of which each read clears the register and so begins anew (R594). -/
def isArbmax (ofs : Nat) : Bool := decide (Reg.pwrArbmax ≤ ofs) && decide (ofs < Reg.pwrArbmax + 24)

/-- PWR_ARBMAX of an agent: at most its worst wait (R585); how long it waited is a free value (log entry 3).
Mark: DESIGN CHOICE (log entry 3, safe). -/
def Die.arbMax (d : Die) (k : Nat) : Nat := Config.arbWait k d.u.fresh % (arbWorst.getD k 0 + 1)

/-- PWR registers that the state gives (R594). -/
def Die.pwrView (d : Die) (ofs : Nat) : Option Word :=
  if ofs = Reg.pwrStat then
    let tripped := ((List.range 16).map fun i => b2n (d.u.bit Reg.pwrAtCmpstat 0 i) * 2 ^ i).sum
    let w := d.u.rd Reg.pwrStat
    let w := setFld w 1 0 d.pw.inforce
    let w := setBit w 5 (bitAt w 5 || decide (d.u.power < 2))
    some (setFld w 31 16 tripped)
  else if isArbmax ofs then some (BitVec.ofNat 32 (d.arbMax ((ofs - Reg.pwrArbmax) / 4)))
  else none

end Sys2Proof.Machine
end

