-- ==== Sys2Proof/Machine/ZeroParts.lean ====
section
/-! DEFINITION. The die unit, the aggregator and the Crucible as the arrival of their supplies leaves them. -/

namespace Sys2Proof.Machine

/-- Counters, sensors and snapshots, empty (03). -/
def cap0 : Cap :=
  { gen := [], prod := [], prev := [], sens := [], fresh := [], edgeMain := 0, edgeFast := 0, armMain := none, armFast := none
    edges := [], edgeAt := none, lastPer := 0, waitTaps := [], fences := [], aon := none, loss := false, latMain := none
    latFast := none, pastMain := [], pastFast := [], flagMain := 0, flagFast := 0, gapMain := false
    gapFast := false, slots := [], lay := 0, ram := [], seq := 0, latestMain := none, latestFast := none, holds := [], psi := [], psiQ := [] }

/-- The tile witness, empty (07). -/
def wit0 : Wit :=
  { seed := none, pend := [], cond := [], swept := 0, ackV := 0, ackF := 0, sentV := 0, sentF := 0, req := none
    exhV := false, exhF := false, steps := [], healthV := 0, healthF := 0 }

/-- The health unit (08): verdict KEEP, no fence. -/
def hlt0 : Hlt :=
  { lv := 0, since := [], cause := 0, nvAt := none, hard := 0, dead := 0, up := 0, down := [], inforce := 0, told := (0, 0, 0)
    toldEpoch := none, slots := [], queue := [], want := [], window := [] }

/-- The trace unit: no session, no token (12). -/
def trace0 : Trace := { session := none, token := none, halted := false, haltAt := [], streams := [] }

/-- No wait-for sample taken (12). -/
def wfg0 : Wfg := { agents := [], told := [], toldAt := 0, samples := 0 }

/-- ACTIVE, no transition in course (18 R572). -/
def power0 : Power :=
  { inforce := 0, target := none, kept := none, drain := none, half0 := none, half1 := none, served := false }

/-- The die unit at step 1 of 18 R588. -/
def die0 : Die :=
  { powered := true, u := unit0 .die, cap := cap0, rdx := ⟨[], [], []⟩, wit := wit0, hlt := hlt0, headA := head0
    headB := head0, trc := trace0, wfg := wfg0, pw := power0, paired := false }

/-- The reduction engine, empty (04). -/
def aggRdx0 : AggRdx :=
  { ents := [], high := 0, marks := [], results := [], recent := [], launched := [], flight := [], sref := [], prevSref := [], hist := [], last := [] }

/-- The pair handshake not begun (18 R590). -/
def pair0 : Pair := { hello := none, done := false, alone := false, failed := false, since := 0, sent := none }

/-- The journal, empty (09). -/
def jrn0 : Jrn :=
  { ready := false, take := false, warn := none, flushing := false, flushed := false, afterLoss := false, streams := []
    partner := [], writes := [], parts := [], full := false, acked := [], fullState := 0, lastState := 0, prev := none
    block := none, covered := [], uncovered := [], flash := [] }

/-- No role is held (01 R39). -/
def role0 : Role :=
  { held := false, term := 0, heard := none, won := 0, holder := 0, quiet := false, isolated := false, sent := none }

/-- No admission in course (08 R322). -/
def admission0 : Admission := { state := 0, wgid := 0, step := 0, at_ := 0, failed := false, rbase := [] }

/-- The vote engine, empty (08). -/
def vote0 : Vote :=
  { dies := [], ens := [], inforce := [], props := [], held := [], decisions := [], pubs := [], beats := [], gbeats := []
    padm := 0, pcand := 0, log := [], governed := [], void := [], decn := 0, groups := [], fences := [], admits := [], drift := [], gens := 1, group := role0
    system := role0, cseq := [], flights := [], adm := admission0 }

/-- The hang assembly, empty (12). -/
def hang0 : Hang :=
  { dies := [], group := none, system := none, kept := none, wanted := [], probes := [], lastGroup := [], lastSystem := [], period := none, lastAsmn := 0
    lastCycles := 0, lastExits := 0 }

/-- The aggregator at the release of power-on reset (18 R589). Mark: DESIGN CHOICE (log entry 6, unsafe). -/
def agg0 : Agg :=
  { powered := true, resetDue := false, u := unit0 .agg, chains := [], heard := [], lostAt := [], pair := pair0, ovr := none, cak := []
    joined := false, joinAt := 0, partner := false, rdx := aggRdx0, px := [], ports := [], slu := [], sluEpoch := 0, jrn := jrn0, vote := vote0
    hang := hang0, cru := mirror0, cruOff := false }

/-- The Crucible before its supply arrives (17). Mark: DESIGN CHOICE (log entry 5, unsafe). -/
def cru0 : Cru :=
  { powered := false, clk := 0, fresh := 2, freq := 0, tb := timebase0, out := [], acc := 0, sampn := 0, revcnt := 0
    ovrcnt := 0, rseq := 0, ulast := 0, clast := 0, since := 0, lost := false, beyond := false, overNow := false
    lastTq := 5, restart := false, error := false, sealed := false, broken := false
    pars := [0, 1, 0, 1, 1000, 1000, 0, 0], swcrc := 0, log := [], resend := 0, reading := none, resp := [], nack := false }

end Sys2Proof.Machine
end

