-- ==== Sys2Proof/Machine/Protect.lean ====
section
/-! DEFINITION. What an uncorrectable error does to each memory (15 R506), the partition resets and the resets of the
parts (15 R508-R511; 18 R586, R587), firmware switches (16 R537), the loss and the return of the supplies. -/

namespace Sys2Proof.Machine

/-! ### Uncorrectable errors, common handling -/

/-- MODELDAMAGE (R513): memory, bank, region, address. -/
def Unit.modelDamage (u : Unit) (m bank region addr : Nat) : Unit :=
  u.event 0x048 [BitVec.ofNat 32 (m + 256 * bank + 512 * region), BitVec.ofNat 32 addr]

/-- A bank is damaged (R506). -/
def Unit.damage (u : Unit) (bank : Nat) : Unit :=
  { u with sco := { u.sco with damaged := if u.sco.damaged.contains bank then u.sco.damaged else bank :: u.sco.damaged } }

/-- The bank that a leaf word belongs to, if its place is taken: the active one first (R506). -/
def Unit.leafBank (u : Unit) (addr : Nat) : Option Nat :=
  [u.sco.active, 1 - u.sco.active].find? fun k =>
    (u.bank k).ranges.any fun (p : Nat × Nat) => decide (p.1 ≤ addr) && decide (addr < p.1 + p.2)

/-- LEAF (R506; 05 R192). -/
def Unit.leafUe (u : Unit) (addr : Nat) : Unit :=
  let u := { u with sco := { u.sco with badLeaf := addr :: u.sco.badLeaf } }
  match u.leafBank addr with
  | some k => (u.damage k).modelDamage 6 k 0 addr
  | none => u

/-- CFGR, regions MODEL and PATTERN (R506). -/
def Unit.cfgUe (u : Unit) (addr region : Nat) : Unit :=
  if region < 2 then
    let u := u.damage region
    { u with sco := { u.sco with
        lostModel := if u.sco.lostModel.contains region then u.sco.lostModel else region :: u.sco.lostModel } }.modelDamage
      5 region 0 addr
  else u.modelDamage 5 0 1 addr

/-- LSTG: the compression in course ends raw and the references go (R506; 13 R462, R467). -/
def Unit.lstgUe (u : Unit) : Unit := (u.compressFault true).flmClear

/-- SCORE reset (R510): jobs, Weirs and drift states. -/
def Unit.scoreReset (u : Unit) : Unit := u.dropJobs.clearWeirs.clearDrift

/-- LINK reset, the part that is alike (R510; 13 R462, R467). -/
def Unit.linkReset (u : Unit) : Unit := (u.compressFault false).flmClear

/-- An element of a list that a free value names (log entry 3). Mark: DESIGN CHOICE (log entry 3, safe). -/
def Unit.pick {α : Type} (u : Unit) (l : List α) : Option α × Unit :=
  if l.isEmpty then (none, u)
  else
    let r := u.draw
    (l[r.1 % l.length]?, r.2)

/-! ### The die unit -/

/-- A partition of the die unit enters reset: what each loses (R510). -/
def Die.partEffect (d : Die) (k : Nat) : Die :=
  match k with
  | 0 => d.witAbandon
  | 1 => d.onU Unit.scoreReset
  | 2 => d.onT fun t => { t with halted := true }
  | 3 =>
    let d := d.onU Unit.linkReset
    [0, 1].foldl (fun (d : Die) p =>
      if (d.u.rport p).state = 0 then d else { d with u := d.u.retrainCause.2.dieDown p d.u.retrainCause.1 }) d
  | 4 => (d.onU fun u => u.sideReset true).waitforClear
  | _ => d

/-- The third reset within a second raises KZFAIL (R511). -/
def Die.kzfail (d : Die) : Die := (d.onU fun u => u.err Reg.rasErr 7).hardFlag 12

/-- A partition reset of the die unit (R510, R511). -/
def Die.partReset (d : Die) (k : Nat) (byReg : Bool) : Die :=
  if !hasPart .die k then d
  else
    let r := d.u.partCommon k byReg
    let d := { d with u := r.1 }.partEffect k
    if r.2 then d.kzfail else d

/-- Deferred latches take place at the end of a CAPTURE reset (R510). -/
def Die.lateLatches (d : Die) (ofs : Int) : Nat → Die
  | 0 => d
  | n + 1 => (d.latch (decide (5 ≤ ofs)) (d.cap.aon == some true) ofs).countHeld.lateLatches ofs n

/-- A partition of the die unit leaves reset (R510). -/
def Die.partEnd (d : Die) (k : Nat) (lateNs : Nat) : Die :=
  if !d.u.inReset k then d
  else
    let d := d.onU fun u => u.wrBit Reg.rasStat k false
    match k with
    | 0 => d.lateLatches lateNs d.u.ep.fired.length
    | 1 => d.onU Unit.scoRestart
    | 4 => d.onU fun u => u.sideRelease true
    | _ => d

/-- The image that holds a word of snapshot RAM: its place (03 R111, R112). -/
def Die.imageAt (d : Die) (addr : Nat) : Option (Nat × Slot) :=
  let s := addr / 4096
  let sub := s * 16 + addr % 4096 / 256
  match Tab.find (s * 16) d.cap.slots with
  | some x => if x.img.fast then (Tab.find sub d.cap.slots).map fun y => (sub, y) else some (s * 16, x)
  | none => (Tab.find sub d.cap.slots).map fun y => (sub, y)

/-- SNAP: the image is abandoned and counts as skipped (R506; 03 R116). -/
def Die.snapUe (d : Die) (addr : Nat) : Die :=
  match d.imageAt addr with
  | none => d
  | some (k, x) =>
    let c := { d.cap with slots := Tab.del k d.cap.slots }
    let c := if x.img.fast then { c with gapFast := true } else { c with gapMain := true }
    { d with cap := c }.onU fun u => (u.count Reg.snpSkipcnt).err Reg.snpErr 0

/-- A record of the log is lost (R506): RETLOSS, a void in its place, RESTART toward each head that was sent it and has
not journaled it, a DIGEST (09 R349). A head that has yet to be sent it gets the marker in its turn. -/
def Die.retLoss (d : Die) (cls i : Nat) : Die :=
  match (d.u.stream cls).log[i]? with
  | some ⟨.rcd r, n, sp⟩ =>
    let e : LogEnt := ⟨.rcd r, n, sp⟩
    let d := d.onU fun u =>
      (u.event 0x044 [BitVec.ofNat 32 (r.src.toNat + 2 ^ 24 * cls), BitVec.ofNat 32 r.seq.toNat,
        BitVec.ofNat 32 (r.seq.toNat / 2 ^ 32)]).loseRecord cls i
    let d := [Side.a, Side.b].foldl (fun (d : Die) s =>
      let h := d.head s
      let x := h.stream cls
      if !h.reach || h.has cls d.u.node e || decide (x.next < i) then d
      else
        let d := if x.next = i then d.setHs s cls { x with next := i + 1, ofs := 0 } else d
        match RecClass.ofCode cls with
        | some c => d.onU fun u => u.raceOwn s.ix cls 24 (.restart s.ix c true r.seq)
        | none => d) d
    d.onU Unit.digestDue
  | _ => d

/-- The log entry is a record that lies in the spill region, or in the retention buffer. -/
def LogEnt.liesIn (spill : Bool) : LogEnt → Bool
  | ⟨.rcd _, _, sp⟩ => sp == spill
  | ⟨.void _, _, _⟩ => false

/-- Places of the records of the log: class and index; `spill` says where they lie. -/
def Unit.logPlaces (u : Unit) (spill : Bool) : List (Nat × Nat) :=
  (dieStreams.map fun c =>
    ((List.range (u.stream c).log.length).filter fun i => ((u.stream c).log[i]?).any (LogEnt.liesIn spill)).map fun i =>
      (c, i)).flatten

/-- RETB: the record that the word belongs to is a free choice, since the spec does not place records (R506). -/
def Die.retbUe (d : Die) : Die :=
  let r := d.u.pick (d.u.logPlaces false)
  let d := { d with u := r.2 }
  match r.1 with
  | some (c, i) => d.retLoss c i
  | none => d

/-- MEMORY_PORT_READ with MP_RERR (R506, R513): counted under RETB; the oldest spilled record of the stream is lost. -/
def Die.spillUe (d : Die) (cls : RecClass) : Die :=
  match d.u.spilled cls.code with
  | none => d
  | some (i, _) =>
    let r := d.u.draw
    let u := (((((r.2.dmaHalt 2 1 r.1).err Reg.recErr 5).count Reg.rasAtUecnt 1).count Reg.rasUecnt).err Reg.rasErr 1).irq 3
    { d with u := u.event 0x041 [BitVec.ofNat 32 257, BitVec.ofNat 32 r.1, 0] }.retLoss cls.code i

/-- CAPS: the counters in the word are a free choice (R506): each restarts, as under 03 R121. -/
def Die.capsUe (d : Die) : Die :=
  let r := d.u.pick (((cntOn (d.u.sec 2)).map fun e => e.idx) ++ (List.range 64).map fun j => 2048 + j)
  let d := { d with u := r.2 }
  match r.1 with
  | none => d
  | some i =>
    let d := if i < 2048 then d.resetCtr i
      else ({ d with cap := { d.cap with prod := Tab.del (i - 2048) d.cap.prod } }).onU fun u =>
        u.wrBit Reg.capAtStat 1 true i
    { d with cap := { d.cap with flagMain := d.cap.flagMain ||| 16, flagFast := d.cap.flagFast ||| 16 } }

/-- WITP: an entry, a free choice, is freed without filing (R506). -/
def Die.witpUe (d : Die) : Die :=
  let r := d.u.pick d.wit.pend
  let d := { d with u := r.2 }
  match r.1 with
  | some (tag, _) => (d.onW fun w => w.freePend tag).onU fun u => u.count Reg.witAbncnt
  | none => d

/-- RACEB: a frame in transit, a free choice, ends in an inverted trailer (R506; 10 R376). -/
def Unit.racebUe (u : Unit) : Unit :=
  let all := ([0, 1].map fun p =>
    (((u.rport p).wait.filter fun w => w.src.isSome).map fun w => (p, w))).flatten
  let r := u.pick all
  match r.1 with
  | none => r.2
  | some (p, w) =>
    let x := r.2.rport p
    let bad := match w.out with
      | .relay q f _ => Out.relay q f false
      | .runner q f => Out.runner q { f with crcOk := false }
      | o => o
    r.2.setRport p { x with wait := x.wait.map fun y => if y = w then { y with out := bad } else y }

/-- What an uncorrectable error does in a memory of the die unit (R506). Mark: DEDUCED (log entry 40, safe). -/
def Die.ueEffect (d : Die) (m addr : Nat) : Die :=
  match m with
  | 0 => d.snapUe addr
  | 1 => d.retbUe
  | 2 => d.drainHalt addr
  | 3 => d.partReset 4 false
  | 4 => d.partReset 4 false
  | 5 =>
    let r := Config.cfgRegion 0 addr
    if r = 2 then d.partReset 1 false else d.onU fun u => u.cfgUe addr r
  | 6 => d.onU fun u => u.leafUe addr
  | 8 => d.onU Unit.lstgUe
  | 9 => d.capsUe
  | 10 => d.witpUe
  | 11 => d.kzfail
  | 12 => d.onU Unit.racebUe
  | _ => d

/-- An uncorrectable error in a memory of the die unit (R506). -/
def Die.memUe (d : Die) (m addr synd : Nat) : Die := (d.onU fun u => u.uncorrectable m addr synd).ueEffect m addr

/-- A word read by a DMA channel (R497, R506, R509). -/
def Die.dmaRead (d : Die) (chan m a : Nat) (upset : BitVec 39) : Die :=
  let r := d.u.dmaRead chan m a upset
  match r.2 with
  | some y => ({ d with u := r.1 }.memUe m a y).onU fun u => u.dmaHalt chan m a
  | none => { d with u := r.1 }

/-- Words of snapshot RAM or of the retention buffer that a bulk window shows, from byte `ofs` of a page that starts at
byte `base` (R497, R500, R506; 03 R118; 09 R344): the die unit, and whether a word was uncorrectable. -/
def Die.readThrough (d : Die) (m at_ : Nat) : Nat → Die × Bool
  | 0 => (d, false)
  | n + 1 =>
    let r := d.u.readWord m at_
    let d := { d with u := r.1 }
    let d := match r.2 with | some y => d.memUe m at_ y | none => d
    let q := d.readThrough m (at_ + 1) n
    (q.1, r.2.isSome || q.2)

/-! ### The aggregator -/

/-- A port of a pair is as before enumeration (18 R587). -/
def Chain.cleared (c : Chain) : Chain := { c with status := .empty, last := 0, enumAt := none, gmask := none, bAt := none, aSent := false }

/-- A journal stream whose forwarding is to resume from SYNC (09 R357). -/
def JStream.stopped (x : JStream) : JStream :=
  { x with fwd := false, sync := none, port := none, sofs := 0, sent := x.sseq }

/-- The vote engine loses what was in flight; verdicts in force, instances, the governor's log and the counters stay.
Mark: DEDUCED (log entry 39, unsafe). -/
def Vote.cleared (v : Vote) : Vote :=
  { v with props := [], held := [], decisions := [], pubs := [], beats := [], gbeats := [], governed := [], void := []
           group := { role0 with term := v.group.term }, system := { role0 with term := v.system.term }, flights := []
           adm := admission0, padm := 0, pcand := 0 }

/-- What a system reset does (18 R587; 09 R357): CORE, CLUSTER, SCORE and LINK together. Time, the journal, the patterns
and the registers stay, the event ring is lost (14 R487); start-up resumes at step 2. Mark: DEDUCED (log entry 39, unsafe). -/
def Agg.coreReset (a : Agg) : Agg :=
  let a := a.onU fun u => (u.histFlushAll.scoreReset.linkReset).sideReset true
  let a := (List.range 8).foldl (fun (a : Agg) p =>
    if (a.u.rport p).state = 0 then a
    else
      let r := a.u.retrainCause
      { a with u := r.2 }.headDown p r.1) a
  let a := (List.range 8).foldl (fun (a : Agg) p => if (a.port p).state = 0 then a else a.portDrop p) a
  { a with
    u := { a.u with nodeOk := false, evr := { a.u.evr with ring := [] }, secu := { a.u.secu with waiting := [] } }
    chains := a.chains.map fun (p : Nat × Chain) => (p.1, p.2.cleared)
    heard := [], lostAt := [], px := [], pair := { pair0 with since := a.u.clk }, joined := false, partner := false
    rdx := { a.rdx with ents := [], flight := [], sref := [], prevSref := [] }
    jrn := { a.jrn with ready := false, take := false, warn := none, flushing := false, flushed := false
                        streams := a.jrn.streams.map fun (p : Nat × JStream) => (p.1, p.2.stopped)
                        writes := [], parts := [], partner := [] }
    vote := a.vote.cleared, hang := hang0 }

/-- The partitions of a system reset. -/
def coreParts : List Nat := [1, 3, 5, 6]

/-- A system reset begins (18 R587): `cause` is the bit of GLB_RSTCAUSE. It counts once under 15 R511. -/
def Agg.sysReset (a : Agg) (cause : Nat) : Agg :=
  let a := a.onU fun u => coreParts.foldl (fun (u : Unit) k => u.wrBit Reg.rasStat k true) (u.rstCause cause)
  let r := a.u.countReset
  let a := { a with u := r.1, resetDue := false }.coreReset
  if r.2 then a.onU fun u => u.err Reg.hltAggerr 0 else a

/-- SYSTEM_RESET: SYS_RST_N low; while the power-fail sequence runs the reset waits for the flush (19 R608). -/
def Agg.systemReset (a : Agg) : Agg :=
  if a.jrn.warn.isSome && !a.jrn.flushed then { a with resetDue := true } else a.sysReset 1

/-- SYSTEM_RESET_RELEASE: the partitions are released; start-up resumes at step 2 (18 R587), and the
side goes to the next fleet join under the address that its straps and override give now (01 R37). -/
def Agg.sysRelease (a : Agg) : Agg :=
  if !a.u.inReset 6 then a
  else { a with pair := { a.pair with since := a.u.clk }, u := { a.u with node := a.identity } }.onU fun u =>
    ((coreParts.foldl (fun (u : Unit) k => u.wrBit Reg.rasStat k false) u).sideRelease true).scoRestart

/-- A partition of the aggregator enters reset (15 R510, R511); a CORE reset under 15 R506 is a system reset (18 R587). -/
def Agg.partReset (a : Agg) (k : Nat) (byReg : Bool) : Agg :=
  if !hasPart .agg k then a
  else
    let r := a.u.partCommon k byReg
    let a := { a with u := if r.2 then r.1.err Reg.hltAggerr 0 else r.1 }
    match k with
    | 1 => a.onU Unit.scoreReset
    | 3 =>
      (List.range 8).foldl (fun (a : Agg) p =>
        if (a.u.rport p).state = 0 then a
        else { a with u := a.u.retrainCause.2 }.headDown p a.u.retrainCause.1) (a.onU Unit.linkReset)
    | 5 => a.onU fun u => u.sideReset true
    | _ => (a.onU fun u => coreParts.foldl (fun (u : Unit) k => u.wrBit Reg.rasStat k true) (if byReg then u else u.rstCause 1)).coreReset

/-- A partition of the aggregator leaves reset (15 R510). -/
def Agg.partEnd (a : Agg) (k : Nat) : Agg :=
  if k = 6 then a.sysRelease
  else if !a.u.inReset k then a
  else
    let a := a.onU fun u => u.wrBit Reg.rasStat k false
    if k = 5 then (a.onU fun u => u.sideRelease true).opWaited else if k = 1 then a.onU Unit.scoRestart else a

/-- RDXE: an entry, a free choice, completes LOST (15 R506; 04 R158). -/
def Agg.rdxeUe (a : Agg) : Agg :=
  let r := a.u.pick (a.rdx.ents.filter fun e => e.done.isNone)
  let a := { a with u := r.2 }
  match r.1 with
  | none => a
  | some e =>
    match a.u.plan? e.key.plan.val with
    | some p => (a.complete p { e with got := [], ngot := 0, contrib := 0, lanes := none } false).sendUp p e.key
    | none => a

/-- EVRG: the ring entry of 16 words that holds the word is dropped (15 R506; 14 R487). -/
def Unit.evrgUe (u : Unit) (addr : Nat) : Unit :=
  { u with evr := { u.evr with ring := u.evr.ring.filter fun e => e.nseq % 4096 != addr / 16 % 4096 } }

/-- FLTQ: a frame, a free choice, is discarded and counted (15 R506; 11 R401). -/
def Agg.fltqUe (a : Agg) : Agg :=
  let all := ((List.range 8).map fun p => ((a.port p).queues.map fun (q : Nat × List TxFrame) =>
    (List.range q.2.length).map fun i => (p, q.1, i)).flatten).flatten
  let r := a.u.pick all
  let a := { a with u := r.2 }
  match r.1 with
  | none => a
  | some (p, c, i) =>
    let x := a.port p
    (a.setPort p { x with queues := Tab.put c ((x.queue c).eraseIdx i) x.queues }).onU fun u => u.count (qdisc c) p

/-- What an uncorrectable error does in a memory of the aggregator (R506). -/
def Agg.ueEffect (a : Agg) (m addr : Nat) : Agg :=
  match m with
  | 5 =>
    let r := Config.cfgRegion 1 addr
    if r = 2 then a.partReset 1 false else a.onU fun u => u.cfgUe addr r
  | 6 => a.onU fun u => u.leafUe addr
  | 8 => a.onU Unit.lstgUe
  | 11 => a.onU fun u => u.err Reg.hltAggerr 0
  | 13 => a.partReset 5 false
  | 14 => a.partReset 5 false
  | 15 => a.rdxeUe
  | 16 => a.partReset 6 false
  | 17 => a.onU fun u => u.evrgUe addr
  | 18 => a.fltqUe
  | _ => a

/-- An uncorrectable error in a memory of the aggregator (R506). -/
def Agg.memUe (a : Agg) (m addr synd : Nat) : Agg := (a.onU fun u => u.uncorrectable m addr synd).ueEffect m addr

/-- A word read by a DMA channel (R497, R506, R509). -/
def Agg.dmaRead (a : Agg) (chan m x : Nat) (upset : BitVec 39) : Agg :=
  let r := a.u.dmaRead chan m x upset
  match r.2 with
  | some y => ({ a with u := r.1 }.memUe m x y).onU fun u => u.dmaHalt chan m x
  | none => { a with u := r.1 }

/-! ### Fetch traps -/

/-- A syndrome that is uncorrectable (R497). -/
def badSynd (s : Nat) : Bool := decide (s ≠ 0) && (eccBit s).isNone

/-- FETCHTRAP and FETCHUE (R508). -/
def Unit.fetchTrap (u : Unit) (m addr synd : Nat) : Unit := (u.err Reg.rasErr 4).event 0x046 (memArgs m addr synd)

/-- FETCH_TRAP of the Ladle (R508). -/
def Die.fetchTrap (d : Die) (addr synd : Nat) : Die :=
  if badSynd synd && decide (addr < memWords .die 3) then (d.onU fun u => u.fetchTrap 3 addr synd).memUe 3 addr synd else d

/-- FETCH_TRAP of a core of the control cluster (R508). -/
def Agg.fetchTrap (a : Agg) (addr synd : Nat) : Agg :=
  if badSynd synd && decide (addr < memWords .agg 13) then (a.onU fun u => u.fetchTrap 13 addr synd).memUe 13 addr synd
  else a

/-! ### Firmware switches -/

/-- A switch that is a partition reset (16 R537): neither cause of PRESET is this one, so the event's bit is free. -/
def Die.fwReset (d : Die) (r : Unit × Bool) : Die :=
  if r.2 then { d with u := r.1.draw.2 }.partReset 4 (r.1.draw.1 % 2 == 1) else { d with u := r.1 }

/-- The same on an aggregator. -/
def Agg.fwReset (a : Agg) (r : Unit × Bool) : Agg :=
  if r.2 then { a with u := r.1.draw.2 }.partReset 5 (r.1.draw.1 % 2 == 1) else { a with u := r.1 }

/-! ### Resets and supplies of the die unit -/

/-- DIE_UNIT_RESET: KZ_RST_N low; the five partitions together, counted once (18 R586; 15 R511).
Mark: DEDUCED (log entry 39, unsafe). -/
def Die.unitReset (d : Die) : Die :=
  let d := [0, 1, 2, 3, 4].foldl (fun (d : Die) k => (d.onU fun u => u.wrBit Reg.rasStat k true).partEffect k) d
  let d := d.onU fun u => u.rstCause 1
  let r := d.u.countReset
  let d := { d with u := r.1 }
  if r.2 then d.kzfail else d

/-- DIE_UNIT_RESET_RELEASE: a latch that fell in the reset takes place now, late by what has passed since its instant. -/
def Die.unitRelease (d : Die) : Die :=
  let late := match d.u.ep.fired with
    | f :: _ => (d.u.tb.now - f.time) * 1000000000 / 2 ^ 32
    | [] => 0
  [4, 3, 2, 1, 0].foldl (fun (d : Die) k => d.partEnd k late) d

/-- What of a die unit outlasts the loss of its power: the fuses, and the model's own counters (log entries 2, 3). -/
def Die.lost (d : Die) (on : Bool) : Die :=
  { die0 with
    powered := on
    u := { die0.u with fresh := d.u.fresh, out := d.u.out
                       pat := { die0.u.pat with fw := { firmware0 with fuse := d.u.pat.fw.fuse } } } }

/-- DIE_POWER_LOSS (18 R586). -/
def Die.powerLost (d : Die) : Die := if d.powered then d.lost false else d

/-- DIE_POWER_UP (18 R588). -/
def Die.poweredUp (d : Die) : Die := if d.powered then d else d.lost true

/-! ### Resets and supplies of the aggregator -/

/-- The pattern and the owner as flash keeps them (16 R519, R526, R535, R536). -/
def Pat.flash (p : Pat) : Pat :=
  { p with loading := none, verifying := none, pending := none, result := 0
           fw := { p.fw with swapAt := none, startAt := none } }

/-- What of an aggregator is kept in flash and fuses (18 R587): owner, patterns, firmware, override, keys, histories and
trails, seal chain, flushed entries, the GEN counter; and the model's own counters.
Mark: DEDUCED (log entry 39, unsafe). -/
def Agg.lost (a : Agg) (on : Bool) : Agg :=
  { agg0 with
    powered := on, ovr := a.ovr, cak := a.cak, cruOff := a.cruOff
    u := { agg0.u with fresh := a.u.fresh, out := a.u.out, pat := a.u.pat.flash
                       evr := { recorder0 with history := a.u.evr.history }
                       aud := { audit0 with flash := a.u.aud.flash, flashOwn := a.u.aud.flashOwn }
                       sco := { score0 with bank0 := a.u.sco.bank0, bank1 := a.u.sco.bank1, active := a.u.sco.active } }
    jrn := { jrn0 with prev := a.jrn.prev, block := a.jrn.block, flash := a.jrn.flash, afterLoss := true }
    vote := { vote0 with gens := a.vote.gens } }

/-- AGGREGATOR_POWER_LOSS (18 R587). -/
def Agg.powerGone (a : Agg) : Agg := if a.powered then a.lost false else a

/-- Straps sampled at the release of power-on reset (19 R607; 01 R37): G and T of a node override in their place.
Mark: DESIGN CHOICE (log entry 6, unsafe). -/
def Agg.strapped (a : Agg) (g t : Nat) (sideB : Bool) : Agg :=
  let a := a.onU fun u => u.wrN Reg.glbStraps (g + 64 * t + 4096 * b2n sideB + 8192 * b2n a.ovr.isSome)
  a.onU fun u => { u with node := a.identity }

/-- POWER_ON_RESET: released; the ROM stage reads the straps and the cluster starts from its active bank (18 R589).
Mark: DEDUCED (log entry 39, unsafe). -/
def Agg.powerOn (a : Agg) (g t : Nat) (sideB : Bool) : Agg := (a.lost true).strapped g t sideB

/-- PCIE_RESET (18 R587). -/
def Unit.pcieReset (u : Unit) : Unit := u.rstCause 3

/-- FLUSH_COMPLETE, and a system reset that waited for it (09 R359; 19 R608). Mark: DEDUCED (log entry 59, unsafe). -/
def Agg.flushDone (a : Agg) : Agg :=
  let b := a.flushComplete
  if a.jrn.flushing && b.resetDue then b.sysReset 1 else b

/-- POWER_FAIL_WARNING (09 R359; 14 R489; 16 R547): none while SYS_RST_N is low (19 R608).
Mark: DEDUCED (log entry 59, unsafe). -/
def Agg.pfw (a : Agg) : Agg :=
  if a.u.inReset 6 || a.jrn.warn.isSome then a
  else a.powerFailWarning.onU fun u => u.histPowerFail.audFlash true

/-- POWER_FAIL_RECOVERY (18 R593): a system reset; no LOSS record, the flushed entries are discarded.
Mark: DEDUCED (log entry 59, unsafe). -/
def Agg.pfwEnd (a : Agg) : Agg :=
  if !a.jrn.flushed then a
  else (a.onJ fun j => { j with flash := [] }).sysReset 4

/-- OVERTEMP (19 R614): the reported temperature, and above 105 °C the error and the ALARM.
Mark: DEDUCED (log entry 38, unsafe). -/
def Agg.overTemp (a : Agg) (celsius : Nat) : Agg :=
  a.onU fun u =>
    let u := u.wrFld Reg.hltAggstat 31 24 celsius
    if 105 < celsius then (u.err Reg.hltAggerr 3).alarm .overTemp else u

/-- Last start-up step completed (18 R589). Mark: DEDUCED (log entry 56, unsafe). -/
def Agg.startStep (a : Agg) : Nat :=
  let all := (List.range 8).all fun p => !a.u.raceUp p || (a.chain p).status != .empty
  if a.joined then 6
  else if a.pair.done || a.pair.alone then (if all then 5 else 4)
  else if a.jrn.ready then (if all then 3 else 2) else 1

end Sys2Proof.Machine
end

