-- ==== Sys2Proof/Machine/Access.lean ====
section
/-! DEFINITION. The rules of register access that both parts share (00_scope R19-R23; 01 R43-R46): which block an
offset lies in, how many instances the block selects among, the bits of a register that are commands, the values a
write may bring, and the locks. -/

namespace Sys2Proof.Machine

/-- First offset of the block that a register lies in (01, "Register spaces"). -/
def blockBase (ofs : Nat) : Nat := if ofs < 0x20000 then ofs / 0x1000 * 0x1000 else ofs / 0x10000 * 0x10000

/-- Blocks with a select register, and their instance counts on a die unit and on an aggregator (01 R45). -/
def selBlocks : List (Nat × Nat × Nat) :=
  [(Reg.glbSel, 1, 8), (Reg.timSel, 16, 16), (Reg.pwrSel, 16, 16), (Reg.capSel, 2368, 2368), (Reg.snpSel, 16, 16),
   (Reg.recSel, 5, 5), (Reg.raceSel, 2, 8), (Reg.rdxSel, 64, 64), (Reg.rdlSel, 256, 256), (Reg.treSel, 8, 32),
   (Reg.dnsSel, 4, 8), (Reg.drfSel, 1024, 1024), (Reg.witSel, 256, 256), (Reg.hltSel, 16, 16), (Reg.trcSel, 32, 32),
   (Reg.wchSel, 16, 16), (Reg.wfgSel, 128, 128), (Reg.mbxSel, mbxChans .die, mbxChans .agg), (Reg.evrSel, 4096, 4096),
   (Reg.rasSel, 19, 19), (Reg.patSel, 12, 12), (Reg.votSel, 256, 256), (Reg.fltSel, 8, 8), (Reg.sluSel, 8, 8),
   (Reg.jrnSel, 772, 772), (Reg.wfaSel, 256, 256)]

/-- Instances of the block whose select register is at `ofs`; none at any other offset. -/
def selCount (p : Part) (ofs : Nat) : Option Nat :=
  (selBlocks.find? fun b => b.1 == ofs).map fun b => match p with | .die => b.2.1 | .agg => b.2.2

/-- A write of a select register (01 R45, R46); PAT_SEL takes STYPEs, from 1 (16 R548). -/
def Unit.selWrite (u : Unit) (o : Origin) (ofs count : Nat) (v : Word) : Unit :=
  let i := fieldOf v 15 0
  if count ≤ i ∨ (ofs = Reg.patSel ∧ i = 0) then u.accErr else { u with sel := Tab.put (ofs + o.bank * 2 ^ 25) i u.sel }

/-- The instance that an access reaches: the selected one for a windowed register; the entry that the block's index
register names for the words of a token, a command and a collector; else 0. -/
def Unit.instOf (u : Unit) (o : Origin) (r : RegRow) (ofs : Nat) : Nat :=
  if r.win then u.selOf (blockBase ofs) o
  else if ofs = Reg.trcTokdata then u.fld Reg.trcTokidx 5 0
  else if ofs = Reg.secCmddata then u.fld Reg.secCmdidx 11 0
  else if ofs = Reg.fltColmacl ∨ ofs = Reg.fltColmach then u.fld Reg.fltColidx 7 0
  else 0

/-- W1S command bits, self-clearing (R19 and the register tables). Mark: DEDUCED (log entry 18, unsafe). -/
def cmdBits (ofs : Nat) : Nat :=
  if ofs = Reg.timCtrl then 8
  else if ofs = Reg.patLoadctl then 15
  else if ofs = Reg.rasPrst then 0x7F
  else if ofs = Reg.votAdmctl then 7
  else if [Reg.treSwapctl, Reg.sluAtArm, Reg.trcSession, Reg.trcTokctl, Reg.patFwctl, Reg.secAttctl].contains ofs then 3
  else if ofs = Reg.wchAtHalt then 2
  else if [Reg.timEpswctl, Reg.treAtWeirctl, Reg.dnsAtWeirctl, Reg.drfAtRebase, Reg.witAtClear, Reg.hltAtDone,
      Reg.raceAtRetrain, Reg.rasFlipctl, Reg.rasAtCeclr, Reg.secCmdstat].contains ofs then 1
  else 0

/-- The bits of a register that a write reaches in a part: those of the table without the fields that the other part
alone has (02 R89, 13 R468, R469, 14 R494). -/
def wrMask (p : Part) (r : RegRow) (ofs : Nat) : Nat :=
  let off : Nat := match p with
    | .die =>
      if ofs = Reg.timCtrl then 4 else if ofs = Reg.flmCtrl then 8 else if ofs = Reg.flmTypemask then 0x100
      else if ofs = Reg.flmErr then 0x1C else if ofs = Reg.evrCtrl then 4 else if ofs = Reg.audErr then 2 else 0
    | .agg => if ofs = Reg.flmTypemask then 0x3F else 0
  r.mask &&& (0xFFFFFFFF ^^^ off)

/-- Fields with a range: register, bits, smallest and largest value that a write may bring. -/
def ranges : List (Nat × Nat × Nat × Nat × Nat) :=
  [(Reg.timAtPeru, 16, 0, 1, 100000), (Reg.snpHoldto, 15, 0, 1, 65535), (Reg.treScrubper, 15, 0, 2, 65535),
   (Reg.rdlCutidx, 7, 0, 1, 255), (Reg.witPendto, 15, 0, 1, 65535), (Reg.witThirdto, 15, 0, 1, 65535),
   (Reg.witWin, 15, 0, 1, 65535), (Reg.witJudgen, 15, 0, 1, 65535), (Reg.witMackto, 15, 0, 1, 65535),
   (Reg.witRate, 4, 0, 0, 16), (Reg.witRate, 12, 8, 0, 16), (Reg.hltNvwin, 15, 0, 1, 65535),
   (Reg.hltLdto, 15, 0, 1, 65535), (Reg.hltDownhold, 15, 0, 1, 65535), (Reg.hltMarg, 3, 0, 0, 8),
   (Reg.hltMarg, 11, 8, 0, 8), (Reg.hltMarg, 19, 16, 0, 8), (Reg.hltMarg, 27, 24, 0, 8)] ++
  [(Reg.votGcfg, 6, 0, 1, 64), (Reg.votGcfg, 14, 8, 1, 64), (Reg.votGovw, 15, 0, 1, 65535), (Reg.votGovb, 7, 0, 0, 16),
   (Reg.votGto, 15, 0, 1, 65535), (Reg.votSto, 15, 0, 1, 65535), (Reg.votSilto, 15, 0, 1, 65535),
   (Reg.votCmdto, 15, 0, 1, 65535), (Reg.votHangper, 15, 0, 1, 65535), (Reg.votSweept, 15, 0, 17, 65535),
   (Reg.recSpsize, 15, 0, 2, 65535), (Reg.recAckto, 15, 0, 1, 65535), (Reg.recHeadto, 15, 0, 1, 65535),
   (Reg.recDigper, 15, 0, 10, 65535), (Reg.jrnLagmax, 15, 0, 1, 65535), (Reg.jrnSyncto, 15, 0, 1, 65535),
   (Reg.jrnSinkto, 15, 0, 1, 65535), (Reg.jrnAckper, 15, 0, 1, 50), (Reg.raceBeatper, 7, 0, 5, 100),
   (Reg.raceAtGenmax, 1, 0, 1, 3), (Reg.raceGencap, 0, 0, 1, 1)] ++
  [(Reg.fltAtVid, 11, 0, 1, 4094), (Reg.fltAtSegmax, 13, 0, 256, 8192), (Reg.sluAtAdmnum, 8, 0, 1, 256), (Reg.sluAtMode, 1, 0, 0, 2),
   (Reg.trcSyncper, 15, 0, 256, 8192), (Reg.trcTres, 15, 0, 1, 65535), (Reg.trcTokidx, 5, 0, 0, 39),
   (Reg.trcSize, 15, 0, 32, 32768), (Reg.trcRecmax, 13, 0, 512, 8192), (Reg.wfgPer, 15, 0, 10, 65535),
   (Reg.wfgStable, 3, 0, 1, 15), (Reg.wfgRptper, 15, 0, 1, 65535), (Reg.wfaStale, 15, 0, 1, 65535),
   (Reg.flmCtrl, 11, 8, 0, 9), (Reg.flmMinlen, 15, 0, 16, 65535), (Reg.flmKeyper, 15, 0, 1, 65535),
   (Reg.flmCbudget, 15, 0, 1, 65535), (Reg.evrFlushper, 15, 0, 1, 65535), (Reg.evrAtCfg, 15, 8, 1, 255),
   (Reg.pwrCtrl, 5, 4, 0, 1), (Reg.pwrDrainto, 15, 0, 1, 65535), (Reg.pwrLadidle, 15, 0, 1, 65535),
   (Reg.pwrAtCmpcfg, 23, 20, 1, 15), (Reg.glbPairto, 15, 0, 1, 65535)]

/-- Registers whose value must be a multiple of a number (12 R447; 16 R548). -/
def multiples : List (Nat × Nat) :=
  [(Reg.trcSize, 32), (Reg.trcRecmax, 512), (Reg.patLoadlen, 4), (Reg.patAtSecofs, 4)]

/-- A load-signature selector that a write may not bring (07 R279). -/
def lscfgBad (v : Word) : Bool := decide ((if bitAt v 30 then 63 else 2047) < fieldOf v 10 0)

/-- A value outside the range that the register's table states: the write is ignored and counted in GLB_ACCERR.
Mark: DEDUCED (log entry 21, unsafe). -/
def badValue (p : Part) (ofs : Nat) (v : Word) : Bool :=
  (ranges.any fun r => r.1 == ofs && (decide (fieldOf v r.2.1 r.2.2.1 < r.2.2.2.1) || decide (r.2.2.2.2 < fieldOf v r.2.1 r.2.2.1)))
    || (multiples.any fun m => m.1 == ofs && v.toNat % m.2 != 0)
    || (decide (ofs = Reg.patLoadlen) && decide (maxCont p < v.toNat))
    || (decide (ofs = Reg.hltThr) && decide (fieldOf v 25 16 ≤ fieldOf v 9 0))
    || (inRange ofs Reg.witLscfg 32 && lscfgBad v)
    || (inRange ofs Reg.witEngmap 1024 && bitAt v 8 && (decide (fieldOf v 7 0 < 128) || decide (223 < fieldOf v 7 0)))
    || (p == .die && inRange ofs Reg.glbIrqmap 12 && [0, 8, 16, 24].any fun k => decide (7 < fieldOf v (k + 5) k))

/-- A write of an RWL register while its controlling function is enabled (R19; 02 R85; 09 R363; 10 R388; 12 R447-R449;
18 R594): locks of both parts. -/
def Unit.locked (u : Unit) (ofs inst : Nat) : Bool :=
  if [Reg.timAtCfg, Reg.timAtAtf, Reg.timAtAts0, Reg.timAtAts1, Reg.timAtPeru, Reg.timAtOfs].contains ofs then
    (if inst < 2 then u.bit Reg.timCtrl inst else u.bit Reg.timAtArm 0 inst)
  else if [Reg.recSpbasel, Reg.recSpbaseh, Reg.recSpsize].contains ofs then u.bit Reg.recCtrl 0
  else if ofs = Reg.raceGencap then u.bit Reg.raceCtrl 0
  else if [Reg.trcBasel, Reg.trcBaseh, Reg.trcSize, Reg.trcAtCfg].contains ofs then u.bit Reg.trcCtrl 0
  else if [Reg.wchAtCfg, Reg.wchAtLol, Reg.wchAtLoh, Reg.wchAtHil, Reg.wchAtHih].contains ofs then u.bit Reg.wchAtEn 0 inst
  else if [Reg.pwrAtCmpcfg, Reg.pwrAtCmpthr, Reg.pwrAtCmphyst].contains ofs then u.bit Reg.pwrAtCmpen 0 inst
  else false

/-- The value that a plain write leaves: the bits it reaches take the written ones, or clear where 1 is written to a
W1C bit (R19, R20); TRC_CTRL.MODE keeps its value while TRCEN is 1 (12 R447). -/
def Unit.stored (u : Unit) (r : RegRow) (ofs inst : Nat) (v : Word) : Word :=
  let m := wrMask u.kind r ofs
  let m := BitVec.ofNat 32 (if ofs = Reg.trcCtrl ∧ u.bit Reg.trcCtrl 0 = true then m &&& 1 else m)
  let old := u.rd ofs inst
  match r.acc with
  | .w1c => old &&& ~~~(v &&& m)
  | _ => (old &&& ~~~m) ||| (v &&& m)

/-- TRC_CTRL.MODE is RWL: a write that would change it while TRCEN is 1 is a locked-write error (12 R447).
Mark: DEDUCED (log entry 21, unsafe). -/
def Unit.modeLock (u : Unit) (ofs : Nat) (v : Word) : Unit :=
  if ofs = Reg.trcCtrl ∧ u.bit Reg.trcCtrl 0 = true ∧ fieldOf v 2 1 ≠ u.fld Reg.trcCtrl 2 1 then u.lockErr else u

/-- The first phase of a write to a register of a block that both parts have: what the register holds afterwards.
The registers that a rule guards go through their own operation; the others are stored.
Mark: DEDUCED (log entry 18, unsafe). -/
def Unit.put (u : Unit) (o : Origin) (r : RegRow) (ofs inst : Nat) (v : Word) : Unit :=
  if ofs = Reg.timCtrl then
    (((u.epenWrite (bitAt v 0)).fastenWrite (bitAt v 1))).wrBit Reg.timCtrl 2 (u.isAgg && bitAt v 2)
  else if ofs = Reg.evrAtCfg then u.evrCfg inst (u.stored r ofs inst v)
  else if ofs = Reg.secCmddata then
    (u.wr ofs v inst).wrN Reg.secCmdidx ((inst + 1) % 4096)
  else if r.acc = .wo then u
  else if decide (blockBase ofs = Reg.mbxSel) then u.mbxWrite ofs inst o.sideK v
  else (u.modeLock ofs v).wr ofs (u.stored r ofs inst v) inst

/-- The commands of a write in a block that both parts have, where the unit's state alone is their effect.
Mark: DEDUCED (log entry 21, unsafe). -/
def Unit.command (u : Unit) (o : Origin) (ofs inst : Nat) (v : Word) : Unit :=
  if ofs = Reg.timEpswctl then (if bitAt v 0 then u.epSwitchArm else u)
  else if ofs = Reg.treSwapctl then
    u.swapCtl (bitAt v 0) (bitAt v 1) (u.rdN Reg.treSwapl + 2 ^ 32 * u.rdN Reg.treSwaph)
  else if ofs = Reg.treAtWeirctl then (if bitAt v 0 then u.treeWeirReset inst else u)
  else if ofs = Reg.dnsAtWeirctl then (if bitAt v 0 then u.denseWeirReset inst else u)
  else if ofs = Reg.drfAtRebase then (if bitAt v 0 then u.rebase inst else u)
  else if ofs = Reg.mbxAtTxdata then u.mpush inst o.sideK v o.stamp
  else if ofs = Reg.mbxAtDbset then u.mset inst o.sideK v.toNat o.stamp
  else if ofs = Reg.mbxAtDb then u.mack inst o.sideK v.toNat
  else if ofs = Reg.rasFlipctl then (if bitAt v 0 then u.flipArm (fieldOf v 12 8) else u)
  else if ofs = Reg.rasAtCeclr then (if bitAt v 0 then u.ceClear inst else u)
  else if ofs = Reg.patLoadctl then
    let u := if bitAt v 0 && u.bit Reg.patCtrl 0 then u.loadBegin (u.rdN Reg.patLoadlen) none o.stamp o.onode else u
    let u := if bitAt v 1 then u.loadEndPort (u.rdN Reg.patLoadlen) else u
    let u := if bitAt v 2 then u.loadCancel else u
    if bitAt v 3 then u.loadAbort else u
  else if ofs = Reg.patData then u.loadData v
  else if ofs = Reg.secAttctl then
    let u := if bitAt v 0 then u.attest else u
    if bitAt v 1 then u.cert else u
  else u

/-- What a side of a mailbox channel reads in MBX registers, and in the others the bank of the block. -/
def Unit.commonView (u : Unit) (o : Origin) (ofs inst : Nat) : Option Word :=
  let b := blockBase ofs
  if b = Reg.raceSel then u.raceView ofs inst
  else if b = Reg.rdlSel then u.rdlView ofs inst
  else if b = Reg.treSel then u.treView ofs inst
  else if b = Reg.dnsSel then u.dnsView ofs inst
  else if b = Reg.drfSel then u.drfView ofs inst
  else if b = Reg.mbxSel then u.mbxView ofs inst o.sideK
  else if b = Reg.evrSel then u.evrView ofs inst
  else if b = Reg.rasSel then u.rasView ofs inst
  else if b = Reg.patSel then u.patView ofs inst
  else if b = 0x16000 then u.secView ofs
  else if b = 0x17000 then u.audView ofs
  else if ofs = Reg.glbNodeaddr then some u.nodeaddr
  else if ofs = Reg.glbId then
    some (BitVec.ofNat 32 ((if u.isDie then 0x44 else 0x54) + 256 * (Config.fused (partNo u.kind) 5 % 256)
      + 65536 * (Config.fused (partNo u.kind) 3 % 65536)))
  else if r_wo ofs then some 0
  else none
where
  /-- Write-only registers read 0 (R19). -/
  r_wo (ofs : Nat) : Bool := match regRow? ofs with | some r => r.acc == .wo | none => false

/-- The readout registers of the event recorder answer to some origins only (14 R490). -/
def Unit.evrDenied (o : Origin) (ofs : Nat) : Bool :=
  (match o with | .host _ _ _ => true | _ => false)
    && (inRange ofs Reg.evrRd 64 || decide (ofs = Reg.evrHfirst) || decide (ofs = Reg.evrHlast))

/-- QSUML of a queue (11 R415). Mark: DEDUCED (log entry 13, unsafe). -/
def isQsuml (ofs : Nat) : Bool := inRange ofs Reg.sluAtQsuml0 0xA0 && (ofs - Reg.sluAtQsuml0) % 0x20 == 0

/-- The registers that a read of this one latches (00_scope R22): the high half; after QSUML the three that follow
(11 R412); after CRU_EMJL the rest of the reading (17 R568); after CRU_TIMEF and TIM[sel].ATF the seconds (02 R54). TIM_NOWF has its own.
Mark: DEDUCED (log entry 13, unsafe). -/
def latchedBy (ofs : Nat) : List Nat :=
  if ofs = Reg.timNowf then []
  else if ofs = Reg.cruEmjl then [Reg.cruEmjh, Reg.cruEfrac, Reg.cruTimef, Reg.cruTimes0, Reg.cruTimes1]
  else if ofs = Reg.cruTimef then [Reg.cruTimes0, Reg.cruTimes1]
  else if ofs = Reg.timAtAtf then [Reg.timAtAts0, Reg.timAtAts1]
  else if isQsuml ofs then [ofs + 4, ofs + 8, ofs + 12]
  else match regRow? ofs with
    | some r => if r.low then [ofs + 4] else []
    | none => []

/-- A read of another register latches this one. Mark: DEDUCED (log entry 12, unsafe). -/
def isHigh (ofs : Nat) : Bool :=
  (decide (4 ≤ ofs) && (latchedBy (ofs - 4)).contains ofs)
    || (decide (8 ≤ ofs) && isQsuml (ofs - 8)) || (decide (12 ≤ ofs) && isQsuml (ofs - 12))
    || (latchedBy Reg.cruEmjl).contains ofs || decide (ofs = Reg.timAtAts1)

/-- The latched value of a register, if one is held (00_scope R22). Mark: DEDUCED (log entry 12, unsafe). -/
def Unit.latched? (u : Unit) (ofs inst : Nat) : Option Word :=
  if isHigh ofs then Tab.find (regKey ofs inst) u.latch else none

/-- The unit with nothing latched, in which every register shows its value of now. -/
def Unit.unlatched (u : Unit) : Unit := { u with latch := [] }

/-- What a read of a register latches, or uses up. `now` gives the value of another register at the read. The seconds of a
time stay latched until the next read that latches them (02 R54); every other latched value is used by one read.
Mark: DEDUCED (log entry 12, unsafe), DEDUCED (log entry 13, unsafe). -/
def Unit.latchRead (u : Unit) (ofs inst : Nat) (now : Nat → Word) : Unit :=
  if (u.latched? ofs inst).isSome then
    (if [Reg.cruTimes0, Reg.cruTimes1, Reg.timAtAts0, Reg.timAtAts1].contains ofs then u else { u with latch := Tab.del (regKey ofs inst) u.latch })
  else { u with latch := (latchedBy ofs).foldl (fun t k => Tab.put (regKey k inst) (now k) t) u.latch }

/-- What a read of a register does besides answering, where the unit alone changes: an RC register clears, a low half
latches, a latched half is used up, RXDATA, SECDATA and BUFDATA advance. Mark: DEDUCED (log entry 12, unsafe). -/
def Unit.afterRead (u : Unit) (o : Origin) (r : RegRow) (ofs inst : Nat) (now : Nat → Word) : Unit :=
  if ofs = Reg.mbxAtRxdata then (u.mpop inst o.sideK).2
  else if ofs = Reg.patAtSecdata then (u.secRead inst).1
  else if ofs = Reg.secBufdata then u.bufRead.1
  else if ofs = Reg.timNowf then
    let l := Tab.put (regKey Reg.timNows1 0) (BitVec.ofNat 32 (u.tb.now / 2 ^ 64)) u.latch
    { u with latch := Tab.put (regKey Reg.timNows0 0) (BitVec.ofNat 32 (u.tb.now / 2 ^ 32)) l }
  else if r.acc = .rc then
    (if decide (blockBase ofs = Reg.mbxSel) then u.mbxClear ofs inst o.sideK else u.wr ofs 0 inst)
  else u.latchRead ofs inst now

/-- The bytes of an aligned word that an access of `size` bytes at `ofs` addresses; the others read 0 (01 R43).
Mark: DEDUCED (log entry 17, unsafe). -/
def addressed (ofs size : Nat) (w : Word) : Word :=
  BitVec.ofNat 32 (((List.range 4).map fun k =>
    if decide (ofs % 4 ≤ k) && decide (k < ofs % 4 + size) then bitsOf w.toNat (8 * k + 7) (8 * k) * 256 ^ k else 0).sum)

/-- The line of a die unit, or the vector of an aggregator, is asserted (18 R597): an enabled source that is set and
mapped to it, or a live mailbox bit of a channel whose interrupt it is (14 R475). -/
def Unit.irqLine (u : Unit) (line : Nat) : Bool :=
  let src := (List.range 12).any fun s =>
    u.bit Reg.glbIrqstat s && u.bit Reg.glbIrqen s
      && u.fld (Reg.glbIrqmap + 4 * (s / 4)) (8 * (s % 4) + 5) (8 * (s % 4)) == line
  src || (List.range (mbxChans u.kind)).any fun c => u.mbxIrq c false == some line

/-- Give an answer to a read. Mark: DEDUCED (log entry 17, unsafe). -/
def Unit.answer (u : Unit) (v : Nat) : Unit := { u with resp := BitVec.ofNat 64 v }

end Sys2Proof.Machine
end

