-- ==== Sys2Proof/Machine/BusAgg.lean ====
section
/-! DEFINITION. Register accesses of the aggregator (00_scope R19-R23; 01 R43-R51; 10 R375; 14 R490; 17 R568): what a
register reads as, what a write does, and the proxy window. -/

namespace Sys2Proof.Machine

/-- RECOVERY of an aggregator (13 R459): PAIRDEG, or a lag above JRN_LAGMAX. -/
def Agg.recovery (a : Agg) : Bool := a.u.bit Reg.votStat 0 || a.jfull

/-- A timebase operation: its effects on trigger channels concern no block of an aggregator. A step adjusts the gate
lists (11 R408). -/
def Agg.timed (a : Agg) (r : Unit × List TrigAct) : Agg :=
  let stepped := decide (r.1.rd Reg.timStepcnt ≠ a.u.rd Reg.timStepcnt)
  let a := { a with u := r.1 }
  if stepped then a.stepAdj else a

/-- What a register reads as where its block's state gives it. -/
def Agg.view (a : Agg) (o : Origin) (ofs inst : Nat) : Option Word :=
  let b := blockBase ofs
  if b = Reg.timSel then a.u.timView ofs inst false
  else if b = Reg.rdxSel then a.rdxView ofs inst
  else if b = Reg.recSel then a.u.recView ofs inst
  else if b = 0x11000 then a.u.flmView ofs a.recovery
  else if b = Reg.votSel then
    (if inRange ofs Reg.votAtScore 28 then a.votDieView ofs inst else a.votView ofs inst)
  else if b = Reg.fltSel then a.fltView ofs inst
  else if b = Reg.sluSel then a.sluView ofs inst
  else if b = Reg.jrnSel then a.jrnView ofs inst
  else if b = Reg.wfaSel then a.wfaView ofs inst
  else if b = 0x150000 then a.cruView ofs
  else if ofs = Reg.glbState then some (BitVec.ofNat 32 a.startStep)
  else if ofs = Reg.glbStraps then some (setBit (a.u.rd ofs) 13 a.ovr.isSome)
  else if ofs = Reg.glbChainstat ∨ ofs = Reg.glbChainlast then a.chainView ofs inst
  else if ofs = Reg.glbRolestat ∨ ofs = Reg.glbPairstat ∨ ofs = Reg.hltAggstat then a.roleView ofs
  else a.u.commonView o ofs inst

/-- The value of a register that the aggregator has (R19, R22, R45, R46). GLB_CHAINLAST shows the port that GLB_SEL
selects (01 R47). -/
def Agg.regVal (a : Agg) (o : Origin) (r : RegRow) (ofs inst : Nat) : Word :=
  match selCount .agg ofs with
  | some _ => if r.agg then BitVec.ofNat 32 (a.u.selOf ofs o) else 0
  | none =>
    match a.u.latched? ofs inst with
    | some v => v
    | none =>
      if !r.agg then 0
      else (a.view o ofs (if ofs = Reg.glbChainlast then a.u.selOf Reg.glbSel o else inst)).getD (a.u.rd ofs inst)

/-- The value now of the register at an offset, with no side effect; 0 where there is none. -/
def Agg.look (a : Agg) (o : Origin) (ofs : Nat) : Word :=
  match regRow? ofs with
  | some r => if Unit.evrDenied o ofs then 0 else a.regVal o r ofs (a.u.instOf o r ofs)
  | none => 0

/-- RDX_FULLCNT also starts the high mark of RDX_INFL anew (04 R166). -/
def Agg.highMark (a : Agg) (ofs : Nat) : Agg :=
  if ofs = Reg.rdxFullcnt then { a with rdx := { a.rdx with high := a.rdx.ents.length } } else a

/-- A read of an aligned word of a register: its value, and the side effects of R19, R22 and the queues. A register of a
common block that an aggregator has not, the WFG block at 0x1_0000 among them, reads 0 and counts nothing.
Mark: DESIGN CHOICE (log entry 19, unsafe). -/
def Agg.readReg (a : Agg) (o : Origin) (ofs : Nat) : Agg × Word :=
  match regRow? ofs with
  | none => ({ a with u := a.u.accErr }, 0)
  | some r =>
    let inst := a.u.instOf o r ofs
    let v := a.regVal o r ofs inst
    if r.agg && (selCount .agg ofs).isNone then
      ({ a with u := a.u.afterRead o r ofs inst ((a.onU Unit.unlatched).look o) }.highMark ofs, v)
    else (a, v)

/-! ### The proxy window (01 R48-R51; 10 R375) -/

/-- A proxy slot is enabled, its port and its die. -/
def Agg.pxTarget (a : Agg) (slot : Nat) : Option (Nat × Nat) :=
  let w := a.u.rd (Reg.glbPxslot + 4 * slot)
  if bitAt w 31 then some (fieldOf w 7 5, fieldOf w 4 0) else none

/-- The target holds no address: no die unit answers there, and the chain is not one with a break before it (R51).
Mark: DESIGN CHOICE (log entry 20, unsafe). -/
def Agg.pxNoAddr (a : Agg) (p d : Nat) : Bool :=
  (a.chain p).status == .empty || (a.chain p).status == .miswired || decide ((a.chain p).len ≤ d)

/-- The requests that carry an access (01 R49): offset and the word of the answer that it fills, or one wide read. -/
def pxParts (ofs size : Nat) (write : Bool) : List (Nat × Bool × Nat) :=
  if write || decide (size ≤ 4) then [(ofs, false, 0)]
  else if 0x20000 ≤ ofs then (if size = 8 ∧ ofs % 8 = 0 then [(ofs, true, 0)] else [(ofs, false, 0)])
  else (List.range ((size + 3) / 4)).map fun k => (ofs + 4 * k, false, k % 2)

/-- An answer to a proxy read: a wide one gives 64 bits, another one 32 bits of the word that it fills (R49).
Mark: DESIGN CHOICE (log entry 20, unsafe). -/
def Unit.pxAnswer (u : Unit) (q : PxReq) (data : Nat) : Unit :=
  if q.wide then u.answer data
  else if q.word = 0 then u.answer (data % 2 ^ 32)
  else u.answer (u.resp.toNat % 2 ^ 32 + data % 2 ^ 32 * 2 ^ 32)

/-- A failed proxy access: its slot's error bit, and 0xFFFF_FFFF for each word that it reads (R51). -/
def Agg.pxFail (a : Agg) (bit : Nat) (q : PxReq) : Agg :=
  a.onU fun u =>
    let u := u.wrBit Reg.glbPxstat bit true
    if q.write || q.edit.isSome then u else u.pxAnswer q (2 ^ 64 - 1)

/-- Accesses whose target holds no address complete when nothing older of the slot waits (R50, R51). -/
def Agg.pxDrain (a : Agg) (slot : Nat) : List PxReq → Agg
  | [] => { a with px := Tab.put slot [] a.px }
  | q :: t => if q.bad then (a.pxFail (16 + slot) q).pxDrain slot t else { a with px := Tab.put slot (q :: t) a.px }

/-- PROXY_ACCESS: an access to slot `slot` of the proxy window (01 R48-R51). -/
def Agg.proxyAccess (a : Agg) (o : Origin) (slot ofs size : Nat) (data : Option Word) : Agg :=
  if !o.suits .agg then a
  else
    match a.pxTarget slot with
    | none => a.onU fun u => if data.isSome then u.accErr else u.accErr.answer 0
    | some (p, d) =>
      if a.pxNoAddr p d then
        a.pxDrain slot (Tab.getD a.px slot [] ++ (pxParts ofs size data.isSome).map fun q =>
          ⟨a.u.clk, data.isSome, q.2.1, q.2.2, true, none⟩)
      else (pxParts ofs size data.isSome).foldl (fun (a : Agg) q => a.proxySend slot p d q.1 data q.2.1 q.2.2) a

/-- The answer to the pair's own read: the register goes back with the field changed; RBASE as it was before the sweep is
kept (08 R322). Mark: DEDUCED (log entry 44, unsafe). -/
def Agg.pxEdit (a : Agg) (e : PxEdit) (data : Word) : Agg :=
  let keep := e.ofs == Reg.witRate && e.value.isSome
  let a := if keep then a.onAdm fun x => { x with rbase := Tab.put e.die (fieldOf data e.hi e.lo) x.rbase } else a
  let v := match e.value with | some v => some v | none => Tab.find e.die a.vote.adm.rbase
  match v with
  | some v => a.proxySend 15 (e.die / 32) (e.die % 32) e.ofs (some (setFld data e.hi e.lo v)) false 0
  | none => a

/-- What an answer does to the access that it completes: a port's read gets it, the pair's own read goes on. -/
def Agg.pxTake (a : Agg) (q : PxReq) (data : BitVec 64) : Agg :=
  match q.edit with
  | some e => a.pxEdit e (data.setWidth 32)
  | none => if q.write then a else a.onU fun u => u.pxAnswer q data.toNat

/-- PXRSP (10 R375): the oldest access of the slot completes. PXRSP names the slot alone: an answer that comes after its
access timed out is taken for the next one's. Mark: DESIGN CHOICE (log entry 20, unsafe). -/
def Agg.pxrsp (a : Agg) (slot : Nat) (data : BitVec 64) : Agg :=
  match Tab.getD a.px slot [] with
  | [] => a
  | q :: _ =>
    let a := a.pxTake q data
    a.pxDrain slot ((Tab.getD a.px slot []).drop 1)

/-- PROXY_TIMEOUT (01 R51): 50 µs without an answer to the oldest access of the slot. -/
def Agg.proxyTimeout (a : Agg) (slot : Nat) : Agg :=
  match Tab.getD a.px slot [] with
  | [] => a
  | q :: t => if a.u.since q.at_ < usT 50 then a else (a.pxFail slot q).pxDrain slot t

/-! ### Reads and writes -/

/-- A read of BAR0; the answer goes to `resp` (01 R43).
Mark: DEDUCED (log entry 17, unsafe), DESIGN CHOICE (log entry 19, unsafe). -/
def Agg.read (a : Agg) (o : Origin) (ofs size : Nat) : Agg :=
  let word := ofs / 4 * 4
  if !o.suits .agg then a
  else if 0x1000000 ≤ ofs then a.proxyAccess o ((ofs - 0x1000000) / 0x100000) (ofs % 0x100000) size none
  else if inRange ofs 0x20000 0x40000 || inRange ofs 0x60000 0x80000 then
    let w := if ofs < 0x60000 then 0 else leAt (a.u.ternaryImage (word - 0x60000)) (word % 32) 8
    let lo := BitVec.ofNat 32 w
    if size = 8 ∧ ofs % 8 = 0 then a.onU fun u => u.answer w
    else if size = 4 ∧ ofs % 4 = 0 then a.onU fun u => u.answer lo.toNat
    else a.onU fun u => u.accErr.answer (addressed ofs size lo).toNat
  else if 4 < size then a.onU fun u => u.accErr.answer 0
  else if size = 4 ∧ ofs % 4 = 0 then
    let r := a.readReg o ofs
    r.1.onU fun u => u.answer r.2.toNat
  else a.onU fun u => u.accErr.answer (addressed ofs size (a.look o word)).toNat

/-- RWL registers of the fleet side (11 R413, R415). -/
def Agg.locked (a : Agg) (ofs inst : Nat) : Bool :=
  if ofs = Reg.fltAtCfg ∨ ofs = Reg.fltAtSegmax then a.portUp inst
  else if inRange ofs Reg.sluAtAdmnum 24 then (a.sluice inst).pend.isSome
  else a.u.locked ofs inst

/-- The first phase of a write of a register that the aggregator has. -/
def Agg.put (a : Agg) (o : Origin) (r : RegRow) (ofs inst : Nat) (v : Word) : Agg :=
  let s := a.sluice inst
  let ix := a.u.fld Reg.sluGclidx 7 0
  let e := Tab.getD s.adm ix (0x1F, 100000)
  if ofs = Reg.timAtArm then a.timed (a.u.trigArm inst (bitAt v 0))
  else if ofs = Reg.sluAtAdmgate then a.setSlu inst { s with adm := Tab.put ix (v.toNat % 32, e.2) s.adm }
  else if ofs = Reg.sluAtAdmint then a.setSlu inst { s with adm := Tab.put ix (e.1, v.toNat) s.adm }
  else a.onU fun u => u.put o r ofs inst v

/-- Registers from which the side's view of its dies is computed (08 R282, R284, R286): a write of one computes it anew. -/
def voteRegs : List Nat :=
  [Reg.hltWens, Reg.hltWwit0, Reg.hltWwit1, Reg.hltWdrf, Reg.hltThr, Reg.hltDownhold, Reg.votWstrag, Reg.votCtrl]

/-- VOT_ADMCTL: START, LOADED, ABORT (08 R322). -/
def Agg.admCtl (a : Agg) (v : Word) : Agg :=
  let a := if bitAt v 0 then a.admitStart (fieldOf v 27 16) else a
  let a := if bitAt v 1 then a.admitLoaded else a
  if bitAt v 2 then a.admitAbort else a

/-- SLU[sel].ARM: ARM and CANCEL (11 R407, R408). -/
def Agg.sluArm (a : Agg) (p : Nat) (v : Word) : Agg :=
  let a := if bitAt v 1 then a.gclCancel p else a
  if bitAt v 0 then a.gclArm p else a

/-- RAS_PRST: one partition reset per bit written 1 (15 R510). -/
def Agg.prst (a : Agg) (v : Word) : Agg := (bitList v.toNat 7).foldl (fun (a : Agg) k => a.partReset k true) a

/-- PAT_FWCTL at an aggregator (16 R537, R538). -/
def Agg.fwCtl (a : Agg) (o : Origin) (v : Word) : Agg :=
  let a := if bitAt v 0 then a.fwReset (a.u.fwSwap o.stamp o.onode) else a
  if bitAt v 1 then a.onU fun u => u.fwCommit o.stamp o.onode else a

/-- What a write commands beside what it stores. -/
def Agg.command (a : Agg) (o : Origin) (ofs inst : Nat) (v : Word) : Agg :=
  if ofs = Reg.timCtrl then (if bitAt v 3 then a.timed a.u.resync else a)
  else if voteRegs.contains ofs then a.voteAll
  else if ofs = Reg.votAdmctl then a.admCtl v
  else if ofs = Reg.jrnCtrl || inRange ofs Reg.jrnSink 16 || decide (ofs = Reg.fltColmach) then a.fwdUpdate
  else if ofs = Reg.sluAtArm then a.sluArm inst v
  else if ofs = Reg.fltAtCfg then a.cfgCheck inst
  else if ofs = Reg.raceAtRetrain then (if bitAt v 0 then a.portRetrain inst else a)
  else if ofs = Reg.rasPrst then a.prst v
  else if ofs = Reg.patFwctl then a.fwCtl o v
  else if ofs = Reg.secCmdstat then (if bitAt v 0 then a.opGo o else a)
  else a.onU fun u => u.command o ofs inst v

/-- A write of a register that the aggregator has, past every check: what it stores, its audit entry, what it commands. -/
def Agg.takeWrite (a : Agg) (o : Origin) (r : RegRow) (ofs inst : Nat) (v : Word) : Agg :=
  let now := fun (a : Agg) => (a.onU Unit.unlatched).regVal o r ofs inst
  let old := now a
  let a := a.put o r ofs inst v
  let new := now a
  let a := if r.aud then a.onU fun u => u.auditWrite o ofs (if r.win then inst else 0) old new
      (decide (v.toNat &&& cmdBits ofs ≠ 0)) else a
  a.command o ofs inst v

/-- A write of a register that the aggregator has, with the checks of R19, R45, R568 and the ranges. -/
def Agg.store (a : Agg) (o : Origin) (r : RegRow) (ofs : Nat) (v : Word) : Agg :=
  let inst := a.u.instOf o r ofs
  match selCount .agg ofs with
  | some n => a.onU fun u => u.selWrite o ofs n v
  | none =>
    if r.acc = .ro ∨ r.acc = .rc then
      (if 0x150000 ≤ ofs then a.onU fun u => u.accErr else a)
    else if ofs = Reg.timAtArm ∧ inst < 2 then a
    else if a.locked ofs inst then a.onU fun u => u.lockErr
    else if badValue .agg ofs v then a.onU fun u => u.accErr
    else a.takeWrite o r ofs inst v

/-- A write of BAR0 (01 R43, R44, R49). -/
def Agg.write (a : Agg) (o : Origin) (ofs size : Nat) (v : Word) : Agg :=
  if !o.suits .agg then a
  else if 0x1000000 ≤ ofs then a.proxyAccess o ((ofs - 0x1000000) / 0x100000) (ofs % 0x100000) size (some v)
  else if size ≠ 4 ∨ ofs % 4 ≠ 0 then a.onU fun u => u.accErr
  else
    match regRow? ofs with
    | none => a.onU fun u => u.accErr
    | some r => if r.agg then a.store o r ofs v else a

/-- A write of one field of a register, the others as they stand and command bits 0: what a row that names a field
writes. -/
def Agg.writeBits (a : Agg) (o : Origin) (ofs hi lo n : Nat) : Agg :=
  a.write o ofs 4 (setFld ((a.onU Unit.unlatched).look o ofs &&& ~~~(BitVec.ofNat 32 (cmdBits ofs))) hi lo n)

end Sys2Proof.Machine
end

