-- ==== Sys2Proof/Machine/BusDie.lean ====
section
/-! DEFINITION. Register accesses of the die unit (00_scope R19-R23; 01 R43-R46; 14 R471, R490; 18 R571): what a
register reads as, and what a write does. Every access, from the host port, the proxy path or the Ladle, goes through
`Die.read` and `Die.write`. -/

namespace Sys2Proof.Machine

/-- Actions that a trigger channel gives the rest of the die unit: a conversion, a fence that becomes visible (02 R83,
R84). -/
def Die.act (d : Die) : TrigAct → Die
  | .convert g => d.convert g
  | .fence s t => if d.u.ep.fired.any fun f => decide (f.time ≤ t) then { d with cap := { d.cap with fences := d.cap.fences ++ [(s, t)] } }
    else d.fenceFire s

/-- The unit after an operation that may fire trigger channels, and their actions. -/
def Die.acts (d : Die) (r : Unit × List TrigAct) : Die := r.2.foldl Die.act { d with u := r.1 }

/-- Islands by block: lowest power state in which the block does not answer (18 R569, R571); 4 for a block that answers in
every state. Mark: DESIGN CHOICE (log entry 19, unsafe). -/
def islandOff (ofs : Nat) : Nat :=
  let b := blockBase ofs
  if [Reg.rdlSel, Reg.treSel, Reg.dnsSel, Reg.drfSel].contains b || inRange ofs 0x60000 0x80000 then 1
  else if [Reg.capSel, Reg.snpSel, Reg.witSel, Reg.trcSel, Reg.wchSel, Reg.rdxSel, Reg.wfgSel].contains b
      || inRange ofs 0x20000 0x40000 || decide (0xE0000 ≤ ofs) then 2
  else if [Reg.recSel, Reg.raceSel, 0x11000].contains b then 3
  else 4

/-- The island of an offset is powered (18 R571); a mailbox wake powers the LAD island, which has the wait-for block, alone
(18 R579). Mark: DESIGN CHOICE (log entry 19, unsafe). -/
def Die.lit (d : Die) (ofs : Nat) : Bool :=
  decide (d.u.power < islandOff ofs) || (decide (blockBase ofs = Reg.wfgSel) && d.u.bit Reg.pwrStat 5)

/-- RECOVERY of a die unit (13 R459): spill in use, refusing, or a head not reachable. -/
def Die.recovery (d : Die) : Bool := decide (0 < d.u.spillFill) || d.u.recs.refusing || !d.headA.reach || !d.headB.reach

/-- What a register reads as where its block's state gives it. -/
def Die.view (d : Die) (o : Origin) (ofs inst : Nat) : Option Word :=
  let b := blockBase ofs
  if ofs = Reg.timCapper then some (BitVec.ofNat 32 ((d.recentEdges.map Prod.snd).foldl max 0))
  else if b = Reg.timSel then d.u.timView ofs inst d.cap.loss
  else if b = Reg.pwrSel then d.pwrView ofs
  else if b = Reg.capSel then d.capView ofs inst
  else if b = Reg.snpSel then d.snpView ofs inst
  else if b = Reg.recSel then d.recView ofs inst
  else if b = Reg.rdxSel then d.rdxView ofs inst
  else if b = Reg.witSel then d.witView ofs inst
  else if b = Reg.hltSel then d.hltView ofs inst
  else if b = Reg.trcSel ∨ b = Reg.wchSel then d.trcView ofs inst
  else if b = Reg.wfgSel then d.wfgView ofs inst
  else if b = 0x11000 then d.u.flmView ofs d.recovery
  else if ofs = Reg.glbState then some (BitVec.ofNat 32 d.startStep)
  else d.u.commonView o ofs inst

/-- The value of a register that the die unit has (R19, R22, R45, R46). -/
def Die.regVal (d : Die) (o : Origin) (r : RegRow) (ofs inst : Nat) : Word :=
  match selCount .die ofs with
  | some _ => BitVec.ofNat 32 (d.u.selOf ofs o)
  | none =>
    match d.u.latched? ofs inst with
    | some v => v
    | none => if !r.die then 0 else (d.view o ofs inst).getD (d.u.rd ofs inst)

/-- The value now of the register at an offset, with no side effect; 0 where there is none. -/
def Die.look (d : Die) (o : Origin) (ofs : Nat) : Word :=
  match regRow? ofs with
  | some r => if Unit.evrDenied o ofs then 0 else d.regVal o r ofs (d.u.instOf o r ofs)
  | none => 0

/-- An offset of the die unit window at which something is mapped (01, "Die unit window"). -/
def dieMapped (ofs : Nat) : Bool := (regRow? ofs).isSome || decide (0x20000 ≤ ofs)

/-- Eight bytes of a bulk window at an aligned offset, and the die unit with the free value drawn where the window shows
one (03 R118, 05 R183, 09 R344). -/
def Die.bulk (d : Die) (ofs : Nat) : Nat × Die :=
  if ofs < 0x60000 then d.imageWord (ofs - 0x20000)
  else if ofs < 0xE0000 then (leAt (d.u.ternaryImage (ofs - 0x60000)) (ofs % 32) 8, d)
  else
    let at_ := d.u.fld Reg.recRdpage 1 0 * 0x20000 + (ofs - 0xE0000)
    let b := d.u.bufBytes
    (Config.bufAt b (at_ / 4) % 2 ^ 32 + Config.bufAt b (at_ / 4 + 1) % 2 ^ 32 * 2 ^ 32, d)

/-- The words that a bulk window shows are read through the code of their memory (15 R497, R500, R506): snapshot RAM at
0x2_0000, the retention buffer at 0xE_0000. The boolean says that one was uncorrectable; what the read then returns is
free. Mark: DEDUCED (log entry 40, safe). -/
def Die.bulkCheck (d : Die) (ofs n : Nat) : Die × Bool :=
  if ofs < 0x60000 then d.readThrough 0 ((ofs - 0x20000) / 4) n
  else if 0xE0000 ≤ ofs then d.readThrough 1 ((d.u.fld Reg.recRdpage 1 0 * 0x20000 + (ofs - 0xE0000)) / 4) n
  else (d, false)

/-- A read below 0x2_0000 of an aligned word: its value, and the side effects of R19, R22 and the queues. -/
def Die.readReg (d : Die) (o : Origin) (ofs : Nat) : Die × Word :=
  match regRow? ofs with
  | none => ({ d with u := d.u.accErr }, 0)
  | some r =>
    if Unit.evrDenied o ofs then ({ d with u := (d.u.wrBit Reg.evrErr 4 true).accErr }, 0)
    else
      let inst := d.u.instOf o r ofs
      let v := d.regVal o r ofs inst
      let u := if r.die && (selCount .die ofs).isNone then d.u.afterRead o r ofs inst ((d.onU Unit.unlatched).look o) else d.u
      ({ d with u := if isArbmax ofs then u.draw.2 else u }, v)

/-- A read of the die unit window; the answer goes to `resp` (01 R43; 14 R471; 18 R571). The host port and the proxy
path carry 20 bits of offset. Mark: DEDUCED (log entry 17, unsafe). -/
def Die.read (d : Die) (o : Origin) (ofs25 size : Nat) : Die :=
  let ofs := ofs25 % 2 ^ 20
  let word := ofs / 4 * 4
  if !o.suits .die then d
  else if o.refused || !d.lit ofs then { d with u := d.u.accErr.answer 0 }
  else if 0x20000 ≤ ofs then
    let q := d.bulkCheck word (if size = 8 ∧ ofs % 8 = 0 then 2 else 1)
    let r := q.1.bulk word
    let r := if q.2 then (r.2.u.draw.1 % 2 ^ 64, { r.2 with u := r.2.u.draw.2 }) else r
    let lo := BitVec.ofNat 32 r.1
    if size = 8 ∧ ofs % 8 = 0 then { r.2 with u := r.2.u.answer r.1 }
    else if size = 4 ∧ ofs % 4 = 0 then { r.2 with u := r.2.u.answer lo.toNat }
    else { r.2 with u := r.2.u.accErr.answer (addressed ofs size lo).toNat }
  else if 4 < size then { d with u := d.u.accErr.answer 0 }
  else if size = 4 ∧ ofs % 4 = 0 then
    let r := d.readReg o ofs
    { r.1 with u := r.1.u.answer r.2.toNat }
  else { d with u := d.u.accErr.answer (addressed ofs size (d.look o word)).toNat }

/-- The first phase of a write of a register that the die unit has. -/
def Die.put (d : Die) (o : Origin) (r : RegRow) (ofs inst : Nat) (v : Word) : Die :=
  if ofs = Reg.timAtArm then d.acts (d.u.trigArm inst (bitAt v 0))
  else if ofs = Reg.snpHold then d.holdWrite v.toNat
  else if ofs = Reg.capAtPsicfg then d.psiCfg inst v
  else if ofs = Reg.capAtPsiper then d.psiPer inst v
  else if ofs = Reg.witSeedh then d.seedWrite v
  else if ofs = Reg.wchAtEn then { d with u := d.u.watchEnable inst (bitAt v 0) }
  else if ofs = Reg.pwrAtCmpen then { d with u := d.u.cmpEnable inst (bitAt v 0) }
  else { d with u := d.u.put o r ofs inst v }

/-- Registers from which the health score and its verdict are computed (08 R280-R284): a write of one computes them
anew. -/
def healthRegs : List Nat :=
  [Reg.hltCtrl, Reg.hltWens, Reg.hltWwit0, Reg.hltWwit1, Reg.hltWdrf, Reg.hltThr, Reg.hltMarg, Reg.hltDownhold]

/-- TRC_SESSION: CLOSE wins over OPEN (12 R430). -/
def Die.sessionWrite (d : Die) (o : Origin) (v : Word) : Die :=
  if bitAt v 1 then d.sessionClose o else if bitAt v 0 then d.sessionOpen o (bitAt v 2) else d

/-- RAS_PRST: one partition reset per bit written 1 (15 R510). -/
def Die.prst (d : Die) (v : Word) : Die := (bitList v.toNat 7).foldl (fun (d : Die) k => d.partReset k true) d

/-- PAT_FWCTL at a die unit (16 R537, R538). -/
def Die.fwCtl (d : Die) (o : Origin) (v : Word) : Die :=
  let d := if bitAt v 0 then d.fwReset (d.u.fwSwap o.stamp o.onode) else d
  if bitAt v 1 then { d with u := d.u.fwCommit o.stamp o.onode } else d

/-- What a write commands beside what it stores. `was` is the value of TRC_CTRL before it. -/
def Die.command (d : Die) (o : Origin) (ofs inst : Nat) (v was : Word) : Die :=
  if ofs = Reg.timCtrl then (if bitAt v 3 then d.acts d.u.resync else d)
  else if ofs = Reg.witAtClear then (if bitAt v 0 then d.condClear inst else d)
  else if healthRegs.contains ofs then d.health
  else if ofs = Reg.hltAtDone then (if bitAt v 0 then d.fenceDone inst else d)
  else if ofs = Reg.pwrReq then d.pmRequest true (fieldOf v 1 0)
  else if ofs = Reg.raceAtRetrain then (if bitAt v 0 then d.portRetrain inst else d)
  else if ofs = Reg.trcSession then d.sessionWrite o v
  else if ofs = Reg.trcTokctl then
    let d := if bitAt v 0 then d.tokenVerify o else d
    if bitAt v 1 then d.tokenClear o else d
  else if ofs = Reg.trcCtrl then (if !bitAt was 0 && bitAt v 0 then d.traceResume else d)
  else if ofs = Reg.wchAtHalt then (if bitAt v 1 then d.haltRelease inst else d)
  else if ofs = Reg.rasPrst then d.prst v
  else if ofs = Reg.patFwctl then d.fwCtl o v
  else if ofs = Reg.secCmdstat then (if bitAt v 0 then { d with u := d.u.opGo o } else d)
  else { d with u := d.u.command o ofs inst v }

/-- A write of a register that the die unit has, past every check: what it stores, its audit entry, what it commands. -/
def Die.take (d : Die) (o : Origin) (r : RegRow) (ofs inst : Nat) (v : Word) : Die :=
  let now := fun (d : Die) => (d.onU Unit.unlatched).regVal o r ofs inst
  let old := now d
  let was := d.u.rd Reg.trcCtrl
  let d := d.put o r ofs inst v
  let u := if r.aud then d.u.auditWrite o ofs (if r.win then inst else 0) old (now d)
      (decide (v.toNat &&& cmdBits ofs ≠ 0)) else d.u
  { d with u := u }.command o ofs inst v was

/-- A write of a register that the die unit has, with the checks of R19, R45 and the ranges. -/
def Die.store (d : Die) (o : Origin) (r : RegRow) (ofs : Nat) (v : Word) : Die :=
  let inst := d.u.instOf o r ofs
  match selCount .die ofs with
  | some n => { d with u := d.u.selWrite o ofs n v }
  | none =>
    if r.acc = .ro ∨ r.acc = .rc then d
    else if ofs = Reg.timAtArm ∧ inst < 2 then d
    else if d.u.locked ofs inst then { d with u := d.u.lockErr }
    else if badValue .die ofs v then { d with u := d.u.accErr }
    else d.take o r ofs inst v

/-- A write of the die unit window (01 R43, R44; 14 R471; 18 R571). -/
def Die.write (d : Die) (o : Origin) (ofs25 size : Nat) (v : Word) : Die :=
  let ofs := ofs25 % 2 ^ 20
  if !o.suits .die then d
  else if o.refused || !d.lit ofs || decide (0x20000 ≤ ofs) || decide (size ≠ 4) || decide (ofs % 4 ≠ 0) then
    { d with u := d.u.accErr }
  else
    match regRow? ofs with
    | none => { d with u := d.u.accErr }
    | some r => if r.die then d.store o r ofs v else d

/-- A write of one field of a register, the others as they stand and command bits 0: what a row that names a field
writes. -/
def Die.writeBits (d : Die) (o : Origin) (ofs hi lo n : Nat) : Die :=
  d.write o ofs 4 (setFld ((d.onU Unit.unlatched).look o ofs &&& ~~~(BitVec.ofNat 32 (cmdBits ofs))) hi lo n)

/-! ### The proxy path -/

/-- The access reaches something: it is not refused as unmapped (10 R375; 18 R571).
Mark: DESIGN CHOICE (log entry 19, unsafe). -/
def Die.proxyMaps (d : Die) (ofs : Nat) : Bool := dieMapped ofs && d.lit ofs

/-- PXRD (10 R375; 01 R52): a proxy read, with its answer toward the head it came from. A unit that holds no address is
the target of none, and one in MISWIRED answers none (01 R32, R51). -/
def Die.pxrd (d : Die) (s : Side) (src : Node) (slot : Nat) (wide : Bool) (ofs : Nat) : Die :=
  let d := (d.heard s).onU fun u => u.raceRx s.ix 1 28
  if !d.u.nodeOk then d
  else
  let bad := !d.proxyMaps ofs || (wide && (decide (ofs < 0x20000) || ofs % 8 != 0))
  let d := { d with u := d.u.addrs [src] }.read (.proxy s (addrEff src)) ofs (if wide then 8 else 4)
  { d with u := d.u.raceOwn s.ix 1 (if wide then 28 else 24) (.pxrsp s.ix slot bad wide (if bad then 0 else d.u.resp)) }

/-- PXWR (10 R375; 01 R52). -/
def Die.pxwr (d : Die) (s : Side) (src : Node) (slot ofs : Nat) (v : Word) : Die :=
  let d := (d.heard s).onU fun u => u.raceRx s.ix 1 32
  if !d.u.nodeOk then d
  else
  let bad := !d.proxyMaps ofs
  let d := { d with u := d.u.addrs [src] }.write (.proxy s (addrEff src)) ofs 4 v
  { d with u := d.u.raceOwn s.ix 1 24 (.pxrsp s.ix slot bad false 0) }

end Sys2Proof.Machine
end

