-- ==== Sys2Proof/Machine/State.lean ====
section
/-! DEFINITION. The state of the block: the commands that wait, and the three devices that the commands concern: a die
unit, an aggregator, and the Crucible of that aggregator, which the spec keeps apart from its core (17). Plain data. -/

namespace Sys2Proof.Machine

/-- The block. Mark: DESIGN CHOICE (log entry 1, safe). -/
structure State where
  /-- Commands that wait, first in, first out. -/
  pending : List Instr
  die : Die
  agg : Agg
  cru : Cru
  deriving DecidableEq, Repr

/-- The block has no faults: the spec lets every command end in a state, errors in a status bit or a counter. -/
inductive Fault where
  deriving DecidableEq, Repr

/-- Refusals. -/
inductive Refusal where
  /-- A command that has no meaning yet; safe, since nothing is then said of what follows. No arm of `exec` answers it. -/
  | notModelled (mnemonic : String)
  deriving DecidableEq, Repr

/-- The block as its supplies arrive: the die unit's AON island up with every register at its reset value (18 R588), the
aggregator released from power-on reset with straps of 0 on side A (18 R589; log entry 6), the Crucible unpowered; nothing
waits.
Mark: DESIGN CHOICE (log entry 5, unsafe), DESIGN CHOICE (log entry 6, unsafe), DESIGN CHOICE (log entry 10, safe). -/
def State.reset : State := { pending := [], die := die0, agg := agg0, cru := cru0 }

end Sys2Proof.Machine
end

