-- ==== Sys2Proof/Machine/Wrap.lean ====
section
/-! DEFINITION. How a command acts on a part, and what follows in the same part from what it changed (spec/95: what comes
about inside a step): the health score, RACE_LOAD, the end of a session, records committed, an armed flip, jobs of completed
entries. A part without power takes no command (log entry 15). -/

namespace Sys2Proof.Machine

/-! ### The armed flip -/

/-- Contents of a memory that both parts have changed (15 R498). -/
def Unit.memDiff (x y : Unit) (m : Nat) : Bool :=
  if m = 1 then decide (x.recs.streams ≠ y.recs.streams)
  else if m = 3 ∨ m = 13 then decide (x.pat.fw.bank0 ≠ y.pat.fw.bank0) || decide (x.pat.fw.bank1 ≠ y.pat.fw.bank1)
  else if m = 5 then
    decide (x.pat.secs ≠ y.pat.secs) || decide (x.sco.trees ≠ y.sco.trees) || decide (x.sco.outs ≠ y.sco.outs)
      || decide (x.drf.metrics ≠ y.drf.metrics) || decide (x.sco.bank0 ≠ y.sco.bank0) || decide (x.sco.bank1 ≠ y.sco.bank1)
  else if m = 6 then decide (x.sco.bank0 ≠ y.sco.bank0) || decide (x.sco.bank1 ≠ y.sco.bank1)
  else if m = 8 then decide (x.flm ≠ y.flm)
  else if m = 11 then decide (x.regs ≠ y.regs)
  else if m = 12 then decide (x.race.ports ≠ y.race.ports)
  else if m = 17 then decide (x.evr.ring ≠ y.evr.ring)
  else false

/-- The armed flip lands in a memory that the command wrote (15 R512). -/
def Unit.flipSettle (x y : Unit) (diff : Nat → Bool) : Unit :=
  match x.ras.flip, y.ras.flip with
  | some (_, m), some (_, n) => if m = n && diff m then y.wrote m else y
  | _, _ => y

/-- A memory of the die unit was written. -/
def Die.memDiff (x y : Die) (m : Nat) : Bool :=
  if m = 0 then decide (x.cap.slots ≠ y.cap.slots)
  else if m = 2 then decide (x.trc.streams ≠ y.trc.streams)
  else if m = 9 then decide (x.cap.gen ≠ y.cap.gen) || decide (x.cap.prod ≠ y.cap.prod)
  else if m = 10 then decide (x.wit.pend ≠ y.wit.pend)
  else x.u.memDiff y.u m

/-- A memory of the aggregator was written. -/
def Agg.memDiff (x y : Agg) (m : Nat) : Bool :=
  if m = 15 then decide (x.rdx.ents ≠ y.rdx.ents)
  else if m = 16 then decide (x.vote ≠ y.vote) || decide (x.jrn ≠ y.jrn)
  else if m = 18 then decide (x.ports ≠ y.ports)
  else x.u.memDiff y.u m

/-! ### What follows on a die unit -/

/-- What the score, the verdict and the margin demand are computed from (08 R280-R284, R287). -/
def Die.healthKey (d : Die) : List Nat × Nat × Bool × Bool × Nat :=
  (d.comps, d.wit.state, d.u.marginDown 1, d.u.marginDown 2, d.hlt.inforce)

/-- The score is computed anew when an input of it changed (08 R280). Mark: DEDUCED (log entry 46, unsafe). -/
def Die.healthSettle (x y : Die) : Die := if x.healthKey = y.healthKey then y else y.health

/-- What RACE_LOAD is computed from changed: pattern, insert, period, generation, retraining, LEN (10 R385). -/
def Die.loadKey (d : Die) : Option Digest × List Nat :=
  (d.u.pat.meas, [d.u.pat.insgen, d.u.epu, d.u.epfu, d.u.chainGen 0, b2n (d.u.raceUp 0), b2n (d.u.raceUp 1), d.u.race.len])

/-- RACE_LOAD is computed anew when one of them changed (10 R385). -/
def Die.loadSettle (x y : Die) : Die := if x.loadKey = y.loadKey then y else y.raceLoad

/-- HOSTUE: a main latch with a nonzero STKUE or SRAMUE delta, while UEHARD is 1 (08 R284 code 10). -/
def Die.hostUe (x y : Die) : Die :=
  if x.cap.latMain = y.cap.latMain then y
  else
    match y.cap.latMain with
    | some l => if y.u.bit Reg.hltCtrl 1 && decide (l.prod.getD 9 0 + l.prod.getD 11 0 ≠ 0) then y.hardFlag 10 else y
    | none => y

/-- The first main epoch after step 5 of 18 R588 with a pattern in force. -/
def Die.serve (x y : Die) : Die :=
  if decide (x.u.ep.lastMain ≠ y.u.ep.lastMain) && decide (y.startStep = 5) && y.u.pat.meas.isSome then
    y.onP fun p => { p with served := true }
  else y

/-- In SLEEP and HOSTOFF no latch follows an epoch instant (18 R571). -/
def Die.quiet (d : Die) : Die := if d.u.power < 2 then d else d.onU Unit.dropFired

/-- Fence slots signalled at an instant act once the snapshots of that instant, and those before it, are latched (02 R83). -/
def Die.fenceSettle (d : Die) : Die :=
  let wait := fun (p : Nat × Nat) => d.u.ep.fired.any fun f => decide (f.time ≤ p.2)
  (d.cap.fences.filter fun p => !wait p).foldl (fun (d : Die) p => d.fenceFire p.1)
    { d with cap := { d.cap with fences := d.cap.fences.filter wait } }

/-- A TRACE record that was offered is settled (12 R426). -/
def Die.offerSettle (x y : Die) : Die :=
  if y.trc.streams.any fun p => p.2.offered.isSome then y.traceSettle (x.u.stream 4).next else y

/-- The session's condition is checked while one is open (12 R432). -/
def Die.session (d : Die) : Die := if d.trc.session.isSome then d.sessionCheck else d

/-- Everything that follows on a die unit from what a command changed. -/
def Die.settle (x y : Die) : Die :=
  let y := Die.offerSettle x y.session
  let y := Die.healthSettle x (Die.hostUe x y)
  let y := Die.witSettle x (Die.serve x (Die.loadSettle x y)).quiet.fenceSettle
  { y with u := Unit.flipSettle x.u y.u (x.memDiff y) }

/-! ### What follows on an aggregator -/

/-- One main epoch of an aggregator: pattern and bank take effect (16 R531, R532; 04 R167; 05 R205).
Mark: DEDUCED (log entry 50, unsafe). -/
def Agg.epochEffect (a : Agg) : Agg :=
  let f := a.u.ep.fired.head?
  let c := a.u.contentAt (f.bind Fired.main)
  let old := a.u.sec 9
  let a := a.onU Unit.aggEpoch
  let a := match f with | some f => a.noteEpoch f | none => a
  match c with
  | some c => (if old = a.u.sec 9 then a else a.planEffect old (a.u.sec 9)).gateEffect c
  | none => a

/-- The epochs that the command fired, one by one. -/
def Agg.epochSettle (a : Agg) : Nat → Agg
  | 0 => a
  | n + 1 => if a.u.ep.fired.isEmpty then a else a.epochEffect.epochSettle n

/-- Verdicts of dies are computed anew when straggler histories changed (08 R280 STRAG). -/
def Agg.stragSettle (x y : Agg) : Agg := if x.rdx.hist = y.rdx.hist then y else y.voteAll

/-- A bit of an error register has newly come. -/
def newErrors (x y : Unit) (ofs : Nat) : Bool := decide (y.rdN ofs ||| x.rdN ofs ≠ x.rdN ofs)

/-- Everything that follows on an aggregator from what a command changed. HLT_AGGERR.JOURNAL shows that the journal has met
an error (08 R326). Mark: DEDUCED (log entry 37, unsafe). -/
def Agg.settle (x y : Agg) : Agg :=
  let y := y.epochSettle y.u.ep.fired.length
  let y := if x.rdx.results = y.rdx.results then y else y.scoreNew x.rdx.results
  let y := (Agg.stragSettle x y).ensPrune.fwdUpdate.admitSettle.sweepSettle
  let y := if newErrors x.u y.u Reg.jrnErr then y.onU fun u => u.err Reg.hltAggerr 1 else y
  { y with u := Unit.flipSettle x.u y.u (x.memDiff y) }

/-! ### Commands -/

/-- The outcome of a step. -/
abbrev Answer := Host.Outcome State Fault Refusal

/-- A command acts on the die unit while its supply is in range. Mark: DESIGN CHOICE (log entry 15, safe). -/
def State.onDie (s : State) (f : Die → Die) : Answer :=
  .next { s with die := if s.die.powered then Die.settle s.die (f s.die) else s.die }

/-- The aggregator runs: its supplies are in range and the CORE partition is not in reset (18 R587).
Mark: DESIGN CHOICE (log entry 15, safe). -/
def Agg.runs (a : Agg) : Bool := a.powered && !a.u.inReset 6

/-- A command acts on the aggregator while it runs. Mark: DESIGN CHOICE (log entry 15, safe). -/
def State.onAgg (s : State) (f : Agg → Agg) : Answer :=
  .next { s with agg := if s.agg.runs then Agg.settle s.agg (f s.agg) else s.agg }

/-- A command acts on what the aggregator's system reset leaves running: the AON timebase and epochs (18 R587).
Mark: DESIGN CHOICE (log entry 15, safe). -/
def State.onAggAon (s : State) (f : Agg → Agg) : Answer :=
  .next { s with agg := if s.agg.powered then Agg.settle s.agg (f s.agg) else s.agg }

/-- A reset, a supply or a strap acts on the die unit. -/
def State.onDieRaw (s : State) (f : Die → Die) : Answer := .next { s with die := f s.die }

/-- A reset, a supply or a strap acts on the aggregator. -/
def State.onAggRaw (s : State) (f : Agg → Agg) : Answer := .next { s with agg := f s.agg }

/-- A command acts on the Crucible. -/
def State.onCru (s : State) (f : Cru → Cru) : Answer := .next { s with cru := f s.cru }

/-- A command acts on what the two parts have alike. -/
def State.onUnit (s : State) (p : Part) (f : Unit → Unit) : Answer :=
  match p with
  | .die => s.onDie fun d => d.onU f
  | .agg => s.onAgg fun a => a.onU f

/-- A command that concerns a computation of both parts. Mark: DESIGN CHOICE (log entry 8, unsafe). -/
def State.onBoth (s : State) (f : Die → Die) (g : Agg → Agg) : Answer :=
  .next { s with
    die := if s.die.powered then Die.settle s.die (f s.die) else s.die
    agg := if s.agg.runs then Agg.settle s.agg (g s.agg) else s.agg }

/-- A command of the timebase or the epochs, which runs in AON on both parts and may fire trigger channels. -/
def State.onTime (s : State) (p : Part) (f : Unit → Unit × List TrigAct) : Answer :=
  match p with
  | .die => s.onDie fun d => d.acts (f d.u)
  | .agg => s.onAggAon fun a => a.timed (f a.u)

/-- The same for one that fires none. -/
def State.onAon (s : State) (p : Part) (f : Unit → Unit) : Answer :=
  match p with
  | .die => s.onDie fun d => d.onU f
  | .agg => s.onAggAon fun a => a.onU f

/-- A write of a register (01 R43). -/
def State.write (s : State) (p : Part) (o : Origin) (ofs size : Nat) (v : Word) : Answer :=
  match p with
  | .die => s.onDie fun d => d.write o ofs size v
  | .agg => s.onAgg fun a => a.write o ofs size v

/-- A write of one field of a register. -/
def State.writeBits (s : State) (p : Part) (o : Origin) (ofs hi lo n : Nat) : Answer :=
  match p with
  | .die => s.onDie fun d => d.writeBits o ofs hi lo n
  | .agg => s.onAgg fun a => a.writeBits o ofs hi lo n

/-- A read of a register (01 R43). -/
def State.read (s : State) (p : Part) (o : Origin) (ofs size : Nat) : Answer :=
  match p with
  | .die => s.onDie fun d => d.read o ofs size
  | .agg => s.onAgg fun a => a.read o ofs size

end Sys2Proof.Machine
end

