-- ==== Sys2Proof/Machine/BusCmds.lean ====
section
/-! DEFINITION. Meanings of the commands that are accesses to a register as such (00_scope R19-R22; 01 R43-R46). -/

namespace Sys2Proof.Machine

/-- 01 R45, R46: a write of a select register. -/
def execSelectWrite (p : Part) (o : Origin) (ofs : BitVec 25) (value : Word) (s : State) : Answer :=
  s.write p o ofs.toNat 4 value

/-- 00_scope R19: a read of a register that clears. -/
def execReadClear (p : Part) (o : Origin) (ofs : BitVec 25) (size : Nat) (s : State) : Answer :=
  s.read p o ofs.toNat size

/-- 00_scope R22: a read of a low half, which latches the high half. -/
def execLowHalfRead (p : Part) (o : Origin) (ofs : BitVec 25) (size : Nat) (s : State) : Answer :=
  s.read p o ofs.toNat size

/-- 00_scope R19; 01 R43-R45. -/
def execRegisterWrite (p : Part) (o : Origin) (ofs : BitVec 25) (size : Nat) (value : Word) (s : State) : Answer :=
  s.write p o ofs.toNat size value

end Sys2Proof.Machine
end

