-- ==== Sys2Proof/Machine/CaptureCmds.lean ====
section
/-! DEFINITION. Meanings of the commands of taps, counters, sensors, snapshots and performance sampling (03_capture; 02
R75-R80). They concern the die unit. -/

namespace Sys2Proof.Machine

/-- R75. -/
def execCapArm (fast : Bool) (s : State) : Answer := s.onDie fun d => d.capArm fast

/-- R79. -/
def execLatchClockDecision (s : State) : Answer := s.onDie Die.clockDecision

/-- R79. -/
def execHostClockLoss (s : State) : Answer := s.onDie Die.clockLoss

/-- R94, with R75-R78, R106-R116. -/
def execSnapshotLatch (ofsNs : Int) (s : State) : Answer := s.onDie fun d => d.snapshotLatch ofsNs

/-- R80. -/
def execClkstopLatch (s : State) : Answer := s.onDie Die.clkstopLatch

/-- R95. -/
def execCaptureEdge (t : Taps) (s : State) : Answer := s.onDie fun d => d.captureEdge t

/-- R99. -/
def execConversionComplete (ch : Fin 224) (value : Word) (s : State) : Answer :=
  s.onDie fun d => d.conversionDone ch.val value

/-- R101. -/
def execSensorWrite (ch : BitVec 8) (fmt : Nat) (value : Word) (s : State) : Answer :=
  s.onDie fun d => d.sensorWrite ch.toNat fmt value

/-- R103: a read of CAP[sel].LIVEL. -/
def execLiveRead (o : Origin) (s : State) : Answer := s.read .die o Reg.capAtLivel 4

/-- While the CAP island runs. -/
def Die.capDo (d : Die) (f : Die → Die) : Die := if d.u.capRuns then f d else d

/-- R119. -/
def execImageComplete (fast : Bool) (s : State) : Answer := s.onDie fun d => d.capDo fun d => d.imageComplete fast

/-- R114. -/
def execRecordBuild (fast : Bool) (s : State) : Answer := s.onDie fun d => d.capDo fun d => d.recordBuild fast

/-- R114. -/
def execSlotRelease (slot sub : Fin 16) (s : State) : Answer :=
  s.onDie fun d => d.capDo fun d => d.slotRelease (16 * slot.val + sub.val)

/-- R117: a write of SNP_HOLD. -/
def execSnapshotHold (o : Origin) (mask : BitVec 16) (s : State) : Answer :=
  s.write .die o Reg.snpHold 4 (BitVec.ofNat 32 mask.toNat)

/-- R117. -/
def execHoldTimeout (slot : Fin 16) (s : State) : Answer := s.onDie fun d => d.holdTimeout slot.val

/-- R123. -/
def execPsiCrossing (ctr : BitVec 11) (s : State) : Answer :=
  s.onDie fun d => d.capDo fun d => d.psiCrossing ctr.toNat

/-- R124. -/
def execPsiAck (core : Fin 32) (skid : BitVec 16) (addr : BitVec 64) (s : State) : Answer :=
  s.onDie fun d => d.capDo fun d => d.psiAck core.val skid.toNat addr.toNat

/-- R125: a write of CAP[sel].PSICFG. -/
def execPsiEnable (o : Origin) (value : Word) (s : State) : Answer := s.write .die o Reg.capAtPsicfg 4 value

end Sys2Proof.Machine
end

