-- ==== Sys2Proof/Machine/CrucibleCmds.lean ====
section
/-! DEFINITION. Meanings of the commands of the Crucible and of its link (17). -/

namespace Sys2Proof.Machine

/-- R553; 02 R56-R60. -/
def execCrucibleMark (frame : Option (BitVec 128)) (s : State) : Answer := s.onCru fun c => c.mark frame

/-- R554-R557. -/
def execCrucibleSample (v i : BitVec 24) (ue : Bool) (s : State) : Answer := s.onCru fun c => c.sample v i ue

/-- R559, R560. -/
def execCrucibleReading (s : State) : Answer := s.onCru Cru.readingMake

/-- R559, R565. -/
def execReadingRepeat (s : State) : Answer := s.onCru Cru.readingRepeat

/-- R565. -/
def execCrlinkLive (s : State) : Answer := s.onCru Cru.live

/-- R565. -/
def execCrlinkIdent (s : State) : Answer := s.onCru Cru.ident

/-- R563, R565. -/
def execLogResend (s : State) : Answer := s.onCru Cru.logResend

/-- R552, R565-R568. -/
def execCrlinkReceive (f : CrFrame) (crcOk : Bool) (s : State) : Answer := s.onAgg fun a => a.crlink f crcOk

/-- R562. -/
def execCalRead (item : CalItem) (s : State) : Answer := s.onCru fun c => c.calRead item

/-- R562. -/
def execCalLogRead (n : BitVec 16) (s : State) : Answer := s.onCru fun c => c.calLog n.toNat

/-- R562. -/
def execCalWrite (pid : Fin 8) (value : Word) (calen : Bool) (s : State) : Answer :=
  s.onCru fun c => c.calWrite pid.val value calen

/-- R562. -/
def execCalSeal (calen : Bool) (s : State) : Answer := s.onCru fun c => c.calSeal calen

/-- R563, R564; R566: a Crucible that is fused off has no power path. -/
def execCruciblePowerup (romCrc : Word) (ue : Bool) (s : State) : Answer :=
  s.onCru fun c => if s.agg.cruOff then c else c.powerUp romCrc ue

/-- R563, R566. -/
def execCruciblePowerdown (s : State) : Answer := s.onCru Cru.powerDown

/-- R564. -/
def execSwcrcCheck (romCrc : Word) (s : State) : Answer := s.onCru fun c => c.swcrcCheck romCrc

end Sys2Proof.Machine
end

