-- ==== Sys2Proof/Machine/FleetCmds.lean ====
section
/-! DEFINITION. Meanings of the commands of the fleet ports and the Sluice (11). They concern the aggregator. -/

namespace Sys2Proof.Machine

/-- Streams that this side forwards and that no port serves are placed anew, from SYNC (11 R400; 09 R354). -/
def Agg.placeIdle (a : Agg) : Agg :=
  let l := a.jixs.filter fun i => (a.jst i).fwd && (a.jst i).port.isNone
  if l.isEmpty then a else (l.foldl Agg.place a).syncAll l

/-- R391. -/
def execFleetPortUp (port : Fin 8) (speed : BitVec 2) (fec : BitVec 3) (s : State) : Answer :=
  s.onAgg fun a => (a.fleetUp port.val speed.toNat fec.toNat).fwdUpdate.placeIdle

/-- R401. -/
def execFleetPortDown (port : Fin 8) (s : State) : Answer :=
  s.onAgg fun a => (a.portDrop port.val).portStreams port.val

/-- Code of a suite in `Agg.keyInstall`. -/
def suiteNo : MacSuite → Nat
  | .gcm256 => 0
  | .xpn256 => 1
  | .gcm128 => 2
  | .xpn128 => 3

/-- R403, R404. -/
def execMkaKeyInstall (port : Fin 8) (suite : MacSuite) (an : BitVec 2) (s : State) : Answer :=
  s.onAgg fun a => if a.u.inReset 5 then a else a.keyInstall port.val (suiteNo suite) an.toNat

/-- R405. -/
def execMacsecRekey (port : Fin 8) (s : State) : Answer := s.onAgg fun a => a.macsecRekey port.val

/-- R405: the packet numbers are used up, and the port goes down. -/
def execPnExhausted (port : Fin 8) (s : State) : Answer :=
  s.onAgg fun a =>
    if a.pnOut port.val then
      ((a.portDrop port.val).onU fun u => (u.err Reg.fltErr 3).alarm .pnExh).portStreams port.val
    else a

/-- R407: a write of SLU[sel].ARM. -/
def execGclArm (o : Origin) (s : State) : Answer := s.write .agg o Reg.sluAtArm 4 1

/-- R408: a write of SLU[sel].ARM.CANCEL. -/
def execGclCancel (o : Origin) (s : State) : Answer := s.write .agg o Reg.sluAtArm 4 2

/-- R408. -/
def execGclTakeover (port : Fin 8) (s : State) : Answer := s.onAgg fun a => a.gclTakeover port.val

/-- R410. -/
def execGateEntry (port : Fin 8) (s : State) : Answer := s.onAgg fun a => a.gateEntry port.val

/-- R410. -/
def execFrameStart (port : Fin 8) (s : State) : Answer := s.onAgg fun a => a.frameStart port.val

/-- R412. -/
def execQueueSample (s : State) : Answer := s.onAgg Agg.queueSample

/-- R396, R391, R392, R402, R404, R413. -/
def execFleetFrameDiscard (port : Fin 8) (why : DiscardWhy) (s : State) : Answer :=
  s.onAgg fun a => a.discard port.val why

end Sys2Proof.Machine
end

