-- ==== Sys2Proof/Machine/FlumeCmds.lean ====
section
/-! DEFINITION. Meanings of the commands of the compressor and the verifier (13). -/

namespace Sys2Proof.Machine

/-- R457-R459, with R453. -/
def execCompress (p : Part) (s : State) : Answer :=
  match p with
  | .die => s.onDie fun d => d.onU fun u => u.compress d.recovery
  | .agg => s.onAgg fun a => a.onU fun u => u.compress a.recovery

/-- R453-R457, R461, R462. -/
def execCompressComplete (p : Part) (s : State) : Answer := s.onUnit p Unit.compressComplete

/-- R460. -/
def execCompressAbandon (p : Part) (s : State) : Answer := s.onUnit p Unit.compressAbandon

/-- R467. -/
def execCompressFault (p : Part) (ue : Bool) (s : State) : Answer := s.onUnit p fun u => u.compressFault ue

/-- R466, with R464, R465. -/
def execFrameVerify (s : State) : Answer := s.onAgg fun a => a.onU Unit.frameVerify

end Sys2Proof.Machine
end

