-- ==== Sys2Proof/Machine/HangCmds.lean ====
section
/-! DEFINITION. Meanings of the commands of wait-for words and hang assembly (12 R438-R446). -/

namespace Sys2Proof.Machine

/-- R439. -/
def execWaitforSample (words : List (Fin 128 × Word)) (s : State) : Answer := s.onDie fun d => d.waitforSample words

/-- R440. -/
def execWaitforReport (s : State) : Answer := s.onDie Die.waitforReport

/-- R444. -/
def execHangAssembly (s : State) : Answer := s.onAgg Agg.hangAssembly

/-- R444: a tray's cycles and exits reach the group decider. -/
def execTraygraph (i : FleetIn) (h : VoteHead) (g : HangGraph) (s : State) : Answer :=
  s.onAgg fun a => a.arriveVote i [h.src] fun a => a.graphIn false h.eff.src g

/-- R444. -/
def execCollectionClose (s : State) : Answer := s.onAgg Agg.collectionClose

/-- R443. -/
def execEntryq (i : FleetIn) (h : VoteHead) (asmn : BitVec 64) (ws : List Word) (s : State) : Answer :=
  s.onAgg fun a => a.arriveVote i [h.src] fun a => a.entryQ h.eff asmn.toNat ws

/-- R444. -/
def execEntryrsp (i : FleetIn) (h : VoteHead) (asmn : BitVec 64) (rs : List WalkRsp) (s : State) : Answer :=
  s.onAgg fun a => a.arriveVote i [h.src] fun a => a.entryRsp h.eff asmn.toNat rs

/-- R444: a group's cycles and exits reach the system decider. -/
def execGroupgraph (i : FleetIn) (h : VoteHead) (g : HangGraph) (s : State) : Answer :=
  s.onAgg fun a => a.arriveVote i [h.src] fun a => a.graphIn true h.eff.src g

end Sys2Proof.Machine
end

