-- ==== Sys2Proof/Machine/HealthCmds.lean ====
section
/-! DEFINITION. Meanings of the commands of the health unit, the fences and the chain commands at a die unit (08; 10 R381),
and of reachability at an aggregator (08 R284, 10 R379). -/

namespace Sys2Proof.Machine

/-- R285. -/
def execHealthRecord (s : State) : Answer := s.onDie Die.healthReport

/-- R283: the computed verdicts of the die unit, and of every die at the aggregator, are taken anew.
Mark: DESIGN CHOICE (log entry 8, unsafe). -/
def execVerdictDownhold (s : State) : Answer := s.onBoth Die.health Agg.voteAll

/-- R280. -/
def execNovoteExpire (s : State) : Answer := s.onDie Die.novoteExpire

/-- R284 code 11. -/
def execHostFatal (s : State) : Answer := s.onDie fun d => d.hardFlag 11

/-- R284 code 8. -/
def execSilent (die : Fin 256) (partnerSame : Bool) (s : State) : Answer :=
  s.onAgg fun a => a.silentDie die.val partnerSame

/-- 10 R379. -/
def execDieUnreachable (die : Fin 256) (s : State) : Answer := s.onAgg fun a => a.dieUnreachable die.val

/-- R298, with R297, R299, R301. -/
def execFenceReceive (f : Fence) (s : State) : Answer :=
  s.onDie fun d => if d.u.miswired then d else (d.onU fun u => u.addrs [f.subj, f.rdie]).fenceReceive f.eff

/-- R300: a write of HLT[sel].DONE. -/
def execFenceDone (o : Origin) (s : State) : Answer := s.write .die o Reg.hltAtDone 4 1

/-- R297: a die unit asks for a missing fence. -/
def execFenceRequest (die : Fin 256) (wgid : BitVec 12) (gen fseq : Word) (s : State) : Answer :=
  s.onAgg fun a => (a.heardDie (a.dieAddr die.val)).fenceRequest die.val (wgid.toNat, gen.toNat) fseq.toNat

/-- R320. -/
def execLinkDown (link : Fin 16) (s : State) : Answer := s.onDie fun d => d.linkDown link.val

/-- R321. -/
def execLinkDead (link : Fin 16) (s : State) : Answer := s.onDie fun d => d.linkDead link.val

/-- R321. -/
def execLinkUp (link : Fin 16) (s : State) : Answer := s.onDie fun d => d.linkUp link.val

/-- A copy of a chain command passes a die unit (10 R381; 08 R291, R318): acceptance when the command is for this unit, the
unit's bit in the mask whatever the addressee, then the frame goes on, or back as CMDRET when the onward port is down. A unit
in MISWIRED answers no command (01 R32). Mark: DEDUCED (log entry 49, unsafe). -/
def Die.cmdReceive (d : Die) (from_ : Side) (c : ChainCmd) : Die :=
  if !d.u.raceUp from_.ix || !d.u.lnkRuns then d
  else
    let d := (d.heard from_).onU fun u => (u.raceArr from_.ix).addrs [c.dest, c.issuer]
    let d := if d.u.cmdFor c && !d.u.miswired then d.cmdAccept { c with dest := if c.dest = 0xFFFFFF then c.dest else addrEff c.dest }
      else d
    let c := if d.u.nodeOk then { c with mask := setBit c.mask d.u.dieNo true } else c
    d.onU fun u =>
      if u.raceUp from_.other.ix then u.raceTx from_.other.ix 1 (32 + c.op.alen) (.cmd from_.other.ix c) (some from_.ix)
      else u.raceTx from_.ix 1 (32 + c.op.alen) (.cmdret from_.ix c) (some from_.ix)

/-- 10 R381. -/
def execCmdReceive (from_ : Side) (c : ChainCmd) (s : State) : Answer := s.onDie fun d => d.cmdReceive from_ c

/-- 10 R381. -/
def execCmdret (port : Fin 8) (c : ChainCmd) (s : State) : Answer := s.onAgg fun a => a.cmdRet port.val c

/-- R319: the mask of the own head's copy, or of the partner's. -/
def execCmdMask (via : Option FleetIn) (port : Fin 8) (cseq mask : Word) (s : State) : Answer :=
  match via with
  | none => s.onAgg fun a => a.takeMask port.val cseq.toNat mask.toNat false
  | some i => s.onAgg fun a => a.arrive i fun a => a.takeMask port.val cseq.toNat mask.toNat true

/-- R319. -/
def execCmdReissue (port : Fin 8) (cseq : Word) (s : State) : Answer := s.onAgg fun a => a.cmdReissue port.val cseq.toNat

/-- R319. -/
def execCmdUnack (port : Fin 8) (cseq : Word) (s : State) : Answer := s.onAgg fun a => a.cmdUnack port.val cseq.toNat

end Sys2Proof.Machine
end

