-- ==== Sys2Proof/Machine/MailboxCmds.lean ====
section
/-! DEFINITION. Meanings of the commands of the mailboxes and the event recorder (14). -/

namespace Sys2Proof.Machine

/-- R472, with R471, R473: a write of MBX[sel].TXDATA. -/
def execMbxPush (p : Part) (o : Origin) (w : Word) (s : State) : Answer := s.write p o Reg.mbxAtTxdata 4 w

/-- R472, R492: a read of MBX[sel].RXDATA. -/
def execMbxPop (p : Part) (o : Origin) (s : State) : Answer := s.read p o Reg.mbxAtRxdata 4

/-- R474, with R471, R473: a write of MBX[sel].DBSET. -/
def execDoorbellSet (p : Part) (o : Origin) (bits : Word) (s : State) : Answer := s.write p o Reg.mbxAtDbset 4 bits

/-- R474: a write of MBX[sel].DB. -/
def execDoorbellAck (p : Part) (o : Origin) (bits : Word) (s : State) : Answer := s.write p o Reg.mbxAtDb 4 bits

/-- R477. -/
def execMbxTimeout (p : Part) (ch : Fin 16) (sideK : Bool) (s : State) : Answer :=
  s.onUnit p fun u => u.mtimeout ch.val sideK

/-- R481-R486. -/
def execPostevent (p : Part) (ch : Fin 16) (s : State) : Answer := s.onUnit p fun u => u.postEvent ch.val

/-- R481. -/
def execPing (p : Part) (ch : Fin 16) (s : State) : Answer := s.onUnit p fun u => u.ping ch.val

/-- R481. -/
def execUnknownRequest (p : Part) (ch : Fin 16) (s : State) : Answer := s.onUnit p fun u => u.unknownRequest ch.val

/-- R483. -/
def execBucketRefill (p : Part) (s : State) : Answer := s.onUnit p Unit.bucketRefill

/-- R483: a write of EVR[sel].CFG. -/
def execEvrCfgWrite (p : Part) (o : Origin) (value : Word) (s : State) : Answer := s.write p o Reg.evrAtCfg 4 value

/-- R488; R489 of a write that fails. -/
def execHistoryFlush (ok : Bool) (s : State) : Answer := s.onAgg fun a => a.onU fun u => u.histFlush ok

/-- R491; 16 R541. -/
def execEvread (c : OpCmd) (first : Word) (count : BitVec 16) (s : State) : Answer :=
  s.onAgg fun a => a.opRow c 0x10 (leBytes 4 first.toNat ++ leBytes 2 count.toNat ++ zeros 2)

/-- R491; 16 R541. -/
def execEvclear (c : OpCmd) (ring history : Bool) (s : State) : Answer :=
  s.onAgg fun a => a.opRow c 0x11 (leBytes 1 (b2n ring + 2 * b2n history) ++ zeros 3)

end Sys2Proof.Machine
end

