-- ==== Sys2Proof/Machine/PatternCmds.lean ====
section
/-! DEFINITION. Meanings of the commands of patterns and firmware (16 R524-R538). -/

namespace Sys2Proof.Machine

/-- R533: a write of PAT_LOADCTL.BEGIN. -/
def execLoadBegin (p : Part) (o : Origin) (s : State) : Answer := s.write p o Reg.patLoadctl 4 1

/-- R533: a write of PAT_DATA. -/
def execLoadData (p : Part) (o : Origin) (w : Word) (s : State) : Answer := s.write p o Reg.patData 4 w

/-- R533: a write of PAT_LOADCTL.END. -/
def execLoadEnd (p : Part) (o : Origin) (s : State) : Answer := s.write p o Reg.patLoadctl 4 2

/-- R524-R532. -/
def execLoadVerified (p : Part) (s : State) : Answer := s.onUnit p Unit.loadVerified

/-- R532: a write of PAT_LOADCTL.CANCEL. -/
def execLoadCancel (p : Part) (o : Origin) (s : State) : Answer := s.write p o Reg.patLoadctl 4 4

/-- R533: a write of PAT_LOADCTL.ABORT. -/
def execLoadAbort (p : Part) (o : Origin) (s : State) : Answer := s.write p o Reg.patLoadctl 4 8

/-- A command of a Race load acts while its port is UP; a unit in MISWIRED takes none (01 R32). -/
def Die.fromPort (d : Die) (s : Side) (f : Unit → Unit) : Die := if d.u.raceUp s.ix && !d.u.miswired then d.onU f else d

/-- R534. -/
def execPatbegin (from_ : Side) (loadId totLen : Word) (s : State) : Answer :=
  s.onDie fun d => d.fromPort from_ fun u =>
    u.patBegin (.proxy from_ (sideAddr (u.node.toNat / 1024 % 4096) from_)) loadId.toNat totLen.toNat

/-- R534. -/
def execPatchunk (from_ : Side) (loadId ofs : Word) (bytes : List Byte) (s : State) : Answer :=
  s.onDie fun d => d.fromPort from_ fun u => u.patChunk loadId.toNat ofs.toNat bytes

/-- R534. -/
def execPatend (from_ : Side) (loadId : Word) (s : State) : Answer :=
  s.onDie fun d => d.fromPort from_ fun u => u.patEnd loadId.toNat

/-- R537: a write of PAT_FWCTL.SWAP. -/
def execFwSwap (p : Part) (o : Origin) (s : State) : Answer := s.write p o Reg.patFwctl 4 1

/-- R537. -/
def execFwRevert (p : Part) (s : State) : Answer :=
  match p with
  | .die => s.onDie fun d => d.fwReset d.u.fwRevert
  | .agg => s.onAgg fun a => a.fwReset a.u.fwRevert

/-- R538: a write of PAT_FWCTL.COMMIT. -/
def execFwCommit (p : Part) (o : Origin) (s : State) : Answer := s.write p o Reg.patFwctl 4 2

/-- R548: a read of PAT[sel].SECDATA. -/
def execSecdataRead (p : Part) (o : Origin) (s : State) : Answer := s.read p o Reg.patAtSecdata 4

end Sys2Proof.Machine
end

