-- ==== Sys2Proof/Machine/PowerCmds.lean ====
section
/-! DEFINITION. Meanings of the commands of power states, comparators, resets and start-up (18; 19 R602, R614). -/

namespace Sys2Proof.Machine

/-- R574: a write of PWR_REQ, or a change of PM_REQ. -/
def execPmRequest (byReg : Option Origin) (st : BitVec 2) (s : State) : Answer :=
  match byReg with
  | some o => s.write .die o Reg.pwrReq 4 (BitVec.ofNat 32 st.toNat)
  | none => s.onDie fun d => d.pmRequest false st.toNat

/-- R574, R580. -/
def execPowerTransitionDone (s : State) : Answer := s.onDie Die.powerDone

/-- R577. -/
def execHostoffDrain (s : State) : Answer := s.onDie Die.hostoffDrain

/-- R576; 16 R537. -/
def execLadleIdle (s : State) : Answer := s.onDie Die.ladleIdle

/-- R579, R591; 01 R32. -/
def execWake (from_ : Side) (st : BitVec 8) (s : State) : Answer :=
  s.onDie fun d => if d.u.raceUp from_.ix && !d.u.miswired then d.wake st.toNat else d

/-- R581, R582. -/
def execComparatorTrip (cmp : Fin 16) (value : Word) (s : State) : Answer := s.onDie fun d => d.cmpTrip cmp.val value

/-- R581, R582. -/
def execComparatorClear (cmp : Fin 16) (value : Word) (s : State) : Answer := s.onDie fun d => d.cmpClear cmp.val value

/-- R583, R595: a write of PWR[sel].CMPEN. -/
def execComparatorEnable (o : Origin) (on : Bool) (s : State) : Answer :=
  s.write .die o Reg.pwrAtCmpen 4 (BitVec.ofNat 32 (b2n on))

/-- R588. -/
def execDiePowerUp (s : State) : Answer := s.onDieRaw Die.poweredUp

/-- R586. -/
def execDiePowerLoss (s : State) : Answer := s.onDieRaw Die.powerLost

/-- R586; 15 R511. -/
def execDieUnitReset (s : State) : Answer := s.onDie Die.unitReset

/-- R586. -/
def execDieUnitResetRelease (s : State) : Answer := s.onDie Die.unitRelease

/-- 19 R602; 14 R478. -/
def execHostReset (s : State) : Answer := s.onDie fun d => d.onU fun u => u.sideReset false

/-- 14 R478, R479; 19 R602. -/
def execHostResetRelease (s : State) : Answer := s.onDie fun d => d.onU fun u => u.sideRelease false

/-- 14 R478, R479: the signal's two ends at once. Mark: DESIGN CHOICE (log entry 16, unsafe). -/
def execManagementReset (s : State) : Answer :=
  s.onAgg fun a => a.onU fun u => (u.sideReset false).sideRelease false

/-- R587, R589; 19 R607. -/
def execPowerOnReset (strapG strapT : BitVec 6) (sideB : Bool) (s : State) : Answer :=
  s.onAggRaw fun a => a.powerOn strapG.toNat strapT.toNat sideB

/-- R587; 19 R608. -/
def execSystemReset (s : State) : Answer := s.onAggAon Agg.systemReset

/-- R587. -/
def execSystemResetRelease (s : State) : Answer := s.onAggAon Agg.sysRelease

/-- R587. -/
def execPcieReset (s : State) : Answer := s.onAgg fun a => a.onU Unit.pcieReset

/-- R587. -/
def execAggregatorPowerLoss (s : State) : Answer := s.onAggRaw Agg.powerGone

/-- R589. -/
def execJournalReady (s : State) : Answer := s.onAgg Agg.journalReady

/-- R590. -/
def execPairhello (s : State) : Answer := s.onAgg Agg.pairHello

/-- R590; 01 R38. -/
def execPairhelloReceive (i : FleetIn) (h : Hello) (s : State) : Answer :=
  s.onAgg fun a => a.arrive i fun a => a.pairHelloReceive h

/-- R590. -/
def execPairTimeout (s : State) : Answer := s.onAgg Agg.pairTimeout

/-- R591; 01 R32. -/
def execPairup (from_ : Side) (u : PairUp) (s : State) : Answer :=
  s.onDie fun d => if d.u.raceUp from_.ix && !d.u.miswired then d.pairUp u else d

/-- R592. -/
def execFleetJoin (s : State) : Answer := s.onAgg Agg.fleetJoin

/-- 19 R614. -/
def execOvertemp (celsius : BitVec 8) (s : State) : Answer := s.onAgg fun a => a.overTemp celsius.toNat

end Sys2Proof.Machine
end

