-- ==== Sys2Proof/Machine/RaceCmds.lean ====
section
/-! DEFINITION. Meanings of the commands of the Race sideband link (10), of enumeration (01 R30-R34) and of the proxy path
(01 R48-R52). -/

namespace Sys2Proof.Machine

/-- While the link partition runs. -/
def Unit.lnkDo (u : Unit) (f : Unit → Unit) : Unit := if u.lnkRuns then f u else u

/-- R369. -/
def execHopTrain (p : Part) (port : Fin 8) (peer : Peer) (s : State) : Answer :=
  s.onUnit p fun u => u.lnkDo fun u => u.hopTrain port.val peer

/-- R369. -/
def execTrainTimeout (p : Part) (port : Fin 8) (s : State) : Answer := s.onUnit p fun u => u.trainTimeout port.val

/-- R369. -/
def execTrainRetry (p : Part) (port : Fin 8) (s : State) : Answer :=
  s.onUnit p fun u => u.lnkDo fun u => u.trainRetry port.val

/-- R369. -/
def execHopUp (p : Part) (port : Fin 8) (s : State) : Answer :=
  match p with
  | .die => s.onDie fun d => if d.u.lnkRuns then d.hopUp port.val else d
  | .agg => s.onAgg fun a => a.onU fun u => u.lnkDo fun u => u.hopUp port.val

/-- A port goes DOWN at either part (R386). -/
def State.portFalls (s : State) (p : Part) (port : Nat) (fell : Unit → Bool) (cause : Nat) (bit : Option Nat) : Answer :=
  let note := fun (u : Unit) => match bit with | some k => u.err Reg.raceErr k | none => u
  match p with
  | .die => s.onDie fun d => if fell d.u then (d.onU fun u => (note u).dieDown port cause).onU fun u => u.noteFell port else d
  | .agg => s.onAgg fun a => if fell a.u then ((a.onU note).headDown port cause).onU fun u => u.noteFell port else a

/-- R386: loss of lock, or an error burst. -/
def execHopDown (p : Part) (port : Fin 8) (burst : Bool) (s : State) : Answer :=
  s.portFalls p port.val (fun u => u.raceUp port.val) (if burst then 2 else 1) none

/-- R386: no credit return for 100 µs. -/
def execCreditStall (p : Part) (port : Fin 8) (s : State) : Answer :=
  s.portFalls p port.val (fun u => u.stalled port.val) 3 (some 3)

/-- R387. -/
def execHopdownReceive (port : Fin 8) (orig : BitVec 24) (dport : Side) (_cause : BitVec 8) (s : State) : Answer :=
  s.onAgg fun a => a.hopdownReceive port.val orig dport

/-- R369. -/
def execHopupReceive (port : Fin 8) (orig : BitVec 24) (s : State) : Answer := s.onAgg fun a => a.hopupReceive port.val orig

/-- R367. -/
def execSetgen (gen : BitVec 2) (at_ : BitVec 80) (s : State) : Answer := s.onDie fun d => d.setgen gen.toNat at_.toNat

/-- R367, R368. -/
def execGenSwitch (p : Part) (port : Fin 8) (failed : Bool) (s : State) : Answer :=
  match p with
  | .die => s.onDie fun d => d.genSwitch port.val failed
  | .agg => s.onAgg fun a => a.genSwitch port.val failed

/-- R374, R376. -/
def execFrameRelay (from_ : Side) (f : RaceFrame) (s : State) : Answer := s.onDie fun d => d.frameRelay from_ f

/-- R372. -/
def execCreditWord (p : Part) (port : Fin 8) (cls : Fin 5) (units : BitVec 8) (s : State) : Answer :=
  s.onUnit p fun u => u.creditWord port.val cls.val units.toNat

/-- R379. -/
def execBeat (s : State) : Answer := s.onDie Die.beat

/-- R388: a write of RACE[sel].RETRAIN. -/
def execPortRetrain (p : Part) (o : Origin) (s : State) : Answer := s.write p o Reg.raceAtRetrain 4 1

/-- 01 R30. -/
def execEnumStart (port : Fin 8) (s : State) : Answer := s.onAgg fun a => a.enumStart port.val

/-- 01 R31, R32. -/
def execEnum (from_ : Side) (e : EnumMsg) (s : State) : Answer := s.onDie fun d => d.enumReceive from_ e

/-- 01 R30. -/
def execEnumComplete (port : Fin 8) (e : EnumMsg) (s : State) : Answer := s.onAgg fun a => a.enumComplete port.val e

/-- 01 R31: the B pass reaches aggregator A. A pair whose handshake is done sends PAIRUP to the chain (18 R591). -/
def execBPassEnd (port : Fin 8) (e : EnumMsg) (s : State) : Answer :=
  s.onAgg fun a =>
    let b := a.bPassEnd port.val e
    if a.pair.done || a.pair.alone then b.pairUp port.val else b

/-- 01 R33. -/
def execEnumTimeout (port : Fin 8) (s : State) : Answer := s.onAgg fun a => a.enumTimeout port.val

/-- 01 R34. -/
def execEnumAlone (port : Fin 8) (gmask : BitVec 3) (s : State) : Answer := s.onAgg fun a => a.enumAlone port.val gmask

/-- 01 R49-R51. -/
def execProxyAccess (a : ProxyAcc) (s : State) : Answer :=
  s.onAgg fun g => if a.o.suits .agg then g.proxyAccess a.o a.slot.val a.ofs.toNat a.size a.data else g

/-- R375; 01 R52. -/
def execPxrd (from_ : Side) (src : BitVec 24) (slot : Fin 16) (wide : Bool) (ofs : BitVec 20) (s : State) : Answer :=
  s.onDie fun d => if d.u.raceUp from_.ix then d.pxrd from_ src slot.val wide ofs.toNat else d

/-- R375; 01 R52. -/
def execPxwr (from_ : Side) (src : BitVec 24) (slot : Fin 16) (ofs : BitVec 20) (data : Word) (s : State) : Answer :=
  s.onDie fun d => if d.u.raceUp from_.ix then d.pxwr from_ src slot.val ofs.toNat data else d

/-- R375: the answer is a frame of the die unit (R379). -/
def execPxrsp (slot : Fin 16) (refused wide : Bool) (data : BitVec 64) (s : State) : Answer :=
  s.onAgg fun a =>
    let b := match a.pxTarget slot.val with
      | some t => (a.heardDie (a.dieAddr (32 * t.1 + t.2))).onU fun u => u.raceRx t.1 1 (if wide then 28 else 24)
      | none => a
    b.pxrsp slot.val (if refused then 0 else data)

/-- 01 R51. -/
def execProxyTimeout (slot : Fin 16) (s : State) : Answer := s.onAgg fun a => a.proxyTimeout slot.val

end Sys2Proof.Machine
end

