-- ==== Sys2Proof/Machine/RasCmds.lean ====
section
/-! DEFINITION. Meanings of the commands of memory protection and partition resets (15), and of the host's memory port
(19). -/

namespace Sys2Proof.Machine

/-- R503, with R497, R500-R502, R506; R509 of a read by a DMA channel in the scrubber's place. -/
def execMemoryScrub (p : Part) (mem : Fin 19) (upset : BitVec 39) (dma : Option (Fin 3 × BitVec 23)) (s : State) :
    Answer :=
  match p, dma with
  | .die, some (k, a) => s.onDie fun d => d.dmaRead k.val mem.val a.toNat upset
  | .agg, some (k, a) => s.onAgg fun g => g.dmaRead k.val mem.val a.toNat upset
  | .die, none => s.onDie fun d =>
    let r := d.u.scrubRead mem.val upset
    let d := { d with u := r.1 }
    match r.2 with
    | some (a, y) => d.memUe mem.val a y
    | none => d
  | .agg, none => s.onAgg fun g =>
    let r := g.u.scrubRead mem.val upset
    let g := { g with u := r.1 }
    match r.2 with
    | some (a, y) => g.memUe mem.val a y
    | none => g

/-- R500. -/
def execEccWriteBack (p : Part) (mem : Fin 19) (addr : BitVec 23) (s : State) : Answer :=
  s.onUnit p fun u => u.writeBack mem.val addr.toNat

/-- R504, with R505, R506. -/
def execMergeFlush (p : Part) (mem : Fin 19) (writes : List NarrowWrite) (s : State) : Answer :=
  match p with
  | .die => s.onDie fun d =>
    let r := d.u.mergeFlush mem.val writes
    r.2.foldl (fun (d : Die) x => d.memUe mem.val x.1 x.2) { d with u := r.1 }
  | .agg => s.onAgg fun g =>
    let r := g.u.mergeFlush mem.val writes
    r.2.foldl (fun (g : Agg) x => g.memUe mem.val x.1 x.2) { g with u := r.1 }

/-- R508. -/
def execFetchTrap (p : Part) (addr : BitVec 23) (synd : BitVec 7) (s : State) : Answer :=
  match p with
  | .die => s.onDie fun d => d.fetchTrap addr.toNat synd.toNat
  | .agg => s.onAgg fun a => a.fetchTrap addr.toNat synd.toNat

/-- R510, R511: a write of RAS_PRST, or another cause. -/
def execPartitionReset (p : Part) (part : Fin 7) (byReg : Option Origin) (s : State) : Answer :=
  match byReg with
  | some o => s.write p o Reg.rasPrst 4 (BitVec.ofNat 32 (2 ^ part.val))
  | none =>
    match p with
    | .die => s.onDie fun d => d.partReset part.val false
    | .agg => s.onAgg fun a => a.partReset part.val false

/-- R510. -/
def execPartitionResetEnd (p : Part) (part : Fin 7) (lateNs : Nat) (s : State) : Answer :=
  match p with
  | .die => s.onDie fun d => d.partEnd part.val lateNs
  | .agg => s.onAggAon fun a => a.partEnd part.val

/-- R509. -/
def execDmaResume (p : Part) (chan : Fin 4) (s : State) : Answer := s.onUnit p fun u => u.dmaResume chan.val

/-- R501: a write of RAS[sel].CECLR. -/
def execCeClear (p : Part) (o : Origin) (s : State) : Answer := s.write p o Reg.rasAtCeclr 4 1

/-- R512: a write of RAS_FLIPCTL with ARM and the memory. -/
def execFlipArm (p : Part) (o : Origin) (mem : BitVec 5) (s : State) : Answer :=
  s.write p o Reg.rasFlipctl 4 (BitVec.ofNat 32 (1 + 256 * mem.toNat))

/-- 19 R604; 15 R506: MP_RERR marks a spilled record. -/
def execMemoryPortRead (cls : RecClass) (rerr : Bool) (s : State) : Answer :=
  s.onDie fun d => if rerr then d.spillUe cls else d

/-- 19 R604: the bytes of the completed request, counted by the production counters 28-30 (03); counter 31 counts 0. -/
def execMemoryPortDone (kind : BitVec 2) (cbytes : BitVec 7) (s : State) : Answer :=
  s.onDie fun d =>
    if d.u.capRuns && decide (kind.toNat < 3) then { d with cap := d.cap.addProd (28 + kind.toNat) cbytes.toNat } else d

end Sys2Proof.Machine
end

