-- ==== Sys2Proof/Machine/RecordCmds.lean ====
section
/-! DEFINITION. Meanings of the commands of records, their delivery, the journal and its collectors (09; 11 R396-R400), and
of power fail. -/

namespace Sys2Proof.Machine

/-- R615. Mark: DESIGN CHOICE (log entry 8, unsafe). -/
def execAlarmHeldCommit (s : State) : Answer := s.onBoth (fun d => d.onU Unit.alarmHeld) (fun a => a.onU Unit.alarmHeld)

/-- 14 R486. -/
def execHeldEventCommit (p : Part) (s : State) : Answer := s.onUnit p Unit.heldEvents

/-- R341. -/
def execSpillReadback (cls : RecClass) (s : State) : Answer := s.onDie fun d => d.onU fun u => u.spillReadback cls

/-- R345, R348, R349; 10 R377. -/
def execRecordSend (cls : RecClass) (side : Side) (s : State) : Answer := s.onDie fun d => d.recordSend cls side

/-- R347. -/
def execRecordReceive (port : Fin 8) (g : RecSeg) (s : State) : Answer := s.onAgg fun a => a.recordReceive port.val g

/-- A PWRSTATE event record that names HOSTOFF (18 R578, R580). -/
def namesOff (r : Rec) : Bool :=
  let e := parseEv r.payload 0
  decide (r.typ = 0x20) && e.code == 0x050 && decide (fieldOf (e.args.headD 0) 5 4 = 3)

/-- What the journaling of a die unit's record brings about: the history, the trail, the verdicts, the wait-for graph, the
map of dies that are off, the verifier (14 R488; 16 R547; 08 R286; 12 R442; 18 R578; 13 R466). -/
def Agg.journaled (a : Agg) (r : Rec) : Agg :=
  let a := a.onU fun u =>
    let u := (u.verifyOffer r).histRecord r
    if r.typ = 0x21 then u.audIn r else u
  let a := if r.typ = 0x15 then a.healthIn r else a
  let a := if r.typ = 0x26 then a.hangIn r else a
  let a := a.sweepJudge r
  let k := dieKey r.src
  if namesOff r then a.onU fun u => u.wrBit (Reg.glbOffmap + 4 * (k / 32)) (k % 32) true else a

/-- R347, with R348, R349. -/
def execJournalWrite (s : State) : Answer :=
  s.onAgg fun a =>
    let r := a.journalWrite
    match r.2 with
    | some x => r.1.journaled x
    | none => r.1

/-- R349. -/
def execRestartMarker (orig : BitVec 24) (cls : RecClass) (void : Bool) (oldSeq : BitVec 48) (s : State) : Answer :=
  s.onAgg fun a => a.restartMarker orig cls void oldSeq

/-- R346. -/
def execAckSend (die : Fin 256) (s : State) : Answer := s.onAgg fun a => a.ackSend die.val

/-- R348, R350. -/
def execAckReceive (side : Side) (a : Ack) (s : State) : Answer := s.onDie fun d => d.ackReceive side a

/-- R348. -/
def execAckTimeout (side : Side) (cls : RecClass) (s : State) : Answer := s.onDie fun d => d.ackTimeout side cls

/-- R350. -/
def execHeadTimeout (side : Side) (s : State) : Answer := s.onDie fun d => d.headTimeout side

/-- R353. -/
def execFrecSend (stream : Nat) (s : State) : Answer := s.onAgg fun a => a.frecSend stream

/-- R352. -/
def execSack (i : FleetIn) (entries : List StreamSeq) (s : State) : Answer :=
  s.onAgg fun a => a.arriveVote i (entries.map StreamSeq.src) fun a => a.sack entries

/-- R354. -/
def execSyncrsp (i : FleetIn) (entries : List StreamSeq) (s : State) : Answer :=
  s.onAgg fun a => a.arriveVote i (entries.map StreamSeq.src) fun a => a.syncRsp entries

/-- R354. -/
def execSinkTimeout (stream : Nat) (s : State) : Answer := s.onAgg fun a => a.sinkTimeout stream

/-- R354. -/
def execSyncTimeout (stream : Nat) (s : State) : Answer := s.onAgg fun a => a.syncTimeout stream

/-- 11 R399. -/
def execJstate (s : State) : Answer := s.onAgg Agg.jstate

/-- 11 R399. -/
def execJstateReceive (i : FleetIn) (entries : List JPair) (s : State) : Answer :=
  s.onAgg fun a => a.arriveVote i (entries.map JPair.src) fun a => a.jstateReceive entries

/-- R360. -/
def execDigest (p : Part) (s : State) : Answer := s.onUnit p Unit.digestDue

/-- R362. -/
def execSeal (s : State) : Answer := s.onAgg Agg.sealBlock

/-- R359. -/
def execPowerFailWarning (s : State) : Answer := s.onAgg Agg.pfw

/-- 18 R591: the refusal of RECORD and BULK records that R359 asks for. Mark: DESIGN CHOICE (log entry 16, unsafe). -/
def execPowerfail (s : State) : Answer :=
  s.onDie fun d =>
    if d.u.raceUp 0 || d.u.raceUp 1 then d.onU fun u => { u with recs := { u.recs with powerFail := true } } else d

/-- R359. -/
def execFlashFlush (s : State) : Answer := s.onAgg Agg.flashFlush

/-- R359; 19 R608. -/
def execFlushComplete (s : State) : Answer := s.onAgg Agg.flushDone

/-- 18 R593. -/
def execPowerFailRecovery (s : State) : Answer := s.onAgg Agg.pfwEnd

end Sys2Proof.Machine
end

