-- ==== Sys2Proof/Machine/RunnerCmds.lean ====
section
/-! DEFINITION. Meanings of the commands of runners, the reduction engine and the phase times (04; 10 R382). -/

namespace Sys2Proof.Machine

/-- R148-R150. -/
def execRunnerLaunch (plan : Fin 64) (port : Fin 8) (s : State) : Answer :=
  s.onAgg fun a =>
    let gen := a.runnerGen port.val fun k => (a.groupOfDie k).map fun g => BitVec.ofNat 32 g.gen
    a.runnerLaunch plan.val port.val gen

/-- R382. -/
def execRunnerWindowOpen (p : Part) (port : Fin 8) (epoch : BitVec 64) (s : State) : Answer :=
  s.onUnit p fun u => u.windowOpen port.val epoch.toNat

/-- R382. -/
def execRunnerWindowClose (p : Part) (port : Fin 8) (s : State) : Answer := s.onUnit p fun u => u.windowClose port.val

/-- R151-R155: a runner on a port that is up. -/
def execRunnerFold (from_ : Side) (r : Runner) (s : State) : Answer :=
  s.onDie fun d => if d.u.raceUp from_.ix && d.u.lnkRuns then (d.runnerFold from_ r).onU fun u => u.burst from_.ix else d

/-- R158, with R153, R155, R159, R160. -/
def execRunnerArrival (port : Fin 8) (r : Runner) (s : State) : Answer := s.onAgg fun a => a.runnerArrival port.val r

/-- R158. -/
def execReductionDeadline (k : RdxKey) (s : State) : Answer := s.onAgg fun a => a.rdxDeadline k

/-- R156. -/
def execEntryFree (k : RdxKey) (s : State) : Answer := s.onAgg fun a => a.entryFree k

/-- R160. -/
def execFrun (i : FleetIn) (_orig : BitVec 24) (r : RdxResult) (s : State) : Answer :=
  s.onAgg fun a => a.arrive i fun a => a.frun r

/-- R163. -/
def execSrefhand (i : FleetIn) (plan : Fin 64) (port : Fin 8) (epn : BitVec 64) (sref : BitVec 24) (s : State) : Answer :=
  s.onAgg fun a => a.arrive i fun a => a.srefhand plan.val port.val epn.toNat sref.toNat

/-- R162. -/
def execPhaseArr (phase : Fin 16) (step : BitVec 24) (s : State) : Answer :=
  s.onDie fun d => d.phaseArr phase.val step.toNat

/-- R162. -/
def execPhaseRel (phase : Fin 16) (step : BitVec 24) (s : State) : Answer :=
  s.onDie fun d => d.phaseRel phase.val step.toNat

end Sys2Proof.Machine
end

