-- ==== Sys2Proof/Machine/ScoreCmds.lean ====
section
/-! DEFINITION. Meanings of the commands of the Riddle, the trees, the dense scorer and the drift unit (05, 06), on either
part, while the scoring partition runs. -/

namespace Sys2Proof.Machine

/-- While the scoring partition runs. -/
def Unit.scoDo (u : Unit) (f : Unit → Unit) : Unit := if u.scoRuns then f u else u

/-- A scoring command on a part. -/
def State.onScore (s : State) (p : Part) (f : Unit → Unit) : Answer := s.onUnit p fun u => u.scoDo f

/-- R179. -/
def execFeaturesReady (p : Part) (s : State) : Answer := s.onScore p Unit.featuresReady

/-- R193. -/
def execTreeJobStart (p : Part) (s : State) : Answer := s.onScore p Unit.treeJobStart

/-- R198, with R191, R192, R199-R203; on an aggregator 08 R281. -/
def execTreeVerdict (p : Part) (s : State) : Answer :=
  match p with
  | .die => s.onDie fun d => d.onU fun u => u.scoDo Unit.treeDone
  | .agg => s.onAgg fun a => if a.u.scoRuns then a.treeDone else a

/-- R204: a write of TRE_SWAPCTL.ARM. -/
def execSwapArm (p : Part) (o : Origin) (s : State) : Answer := s.write p o Reg.treSwapctl 4 1

/-- R204: a write of TRE_SWAPCTL.CANCEL. -/
def execSwapCancel (p : Part) (o : Origin) (s : State) : Answer := s.write p o Reg.treSwapctl 4 2

/-- R200: a write of TRE[sel].WEIRCTL.RESET. -/
def execWeirReset (p : Part) (o : Origin) (s : State) : Answer := s.write p o Reg.treAtWeirctl 4 1

/-- R210. -/
def execTreeScrub (p : Part) (upset : Option StoreUpset) (s : State) : Answer := s.onScore p fun u => u.treeScrub upset

/-- R228. -/
def execDenseJobStart (p : Part) (s : State) : Answer := s.onScore p Unit.denseJobStart

/-- R231, with R219-R227, R229, R230; on an aggregator 08 R281. -/
def execDenseVerdict (p : Part) (s : State) : Answer :=
  match p with
  | .die => s.onDie fun d => d.onU fun u => u.scoDo Unit.denseDone
  | .agg => s.onAgg fun a => if a.u.scoRuns then a.denseStep Unit.denseDone else a

/-- R227. -/
def execDenseJoint (p : Part) (s : State) : Answer :=
  match p with
  | .die => s.onDie fun d => d.onU fun u => u.scoDo Unit.denseJoint
  | .agg => s.onAgg fun a => if a.u.scoRuns then a.denseStep Unit.denseJoint else a

/-- R243: a write of DNS[sel].WEIRCTL.RESET. -/
def execDenseWeirReset (p : Part) (o : Origin) (s : State) : Answer := s.write p o Reg.dnsAtWeirctl 4 1

/-- R237. -/
def execDriftUpdate (p : Part) (metric : BitVec 10) (s : State) : Answer :=
  match p with
  | .die => s.onDie fun d => d.onU fun u => u.scoDo fun u => u.driftUpdate metric.toNat
  | .agg => s.onAgg fun a => if a.u.scoRuns then a.driftUpdate metric.toNat else a

/-- R242: a write of DRF[sel].REBASE. -/
def execRebase (p : Part) (o : Origin) (s : State) : Answer := s.write p o Reg.drfAtRebase 4 1

end Sys2Proof.Machine
end

