-- ==== Sys2Proof/Machine/SecurityCmds.lean ====
section
/-! DEFINITION. Meanings of the operator commands, attestation and the audit trail (16 R516-R523, R539-R547). -/

namespace Sys2Proof.Machine

/-- R539-R541; 08 R293, R294. -/
def execOpen (c : OpCmd) (g : WatchGroup) (s : State) : Answer := s.onAgg fun a => a.opRow c 1 (wgArgs g)

/-- R539-R541; 08 R293. -/
def execTeardown (c : OpCmd) (g : WatchGroup) (s : State) : Answer := s.onAgg fun a => a.opRow c 2 (wgArgs g)

/-- R539-R541; 08 R317. -/
def execSetspares (c : OpCmd) (group : BitVec 6) (spares : BitVec 16) (s : State) : Answer :=
  s.onAgg fun a => a.opRow c 3 (leBytes 1 group.toNat ++ zeros 1 ++ leBytes 2 spares.toNat)

/-- R539-R541; 11 R403. -/
def execMkakey (c : OpCmd) (portMask : BitVec 8) (ckn : BitVec 128) (wrapped : List Byte) (s : State) : Answer :=
  s.onAgg fun a => a.opRow c 0x20 (leBytes 1 portMask.toNat ++ zeros 3 ++ leBytes 16 ckn.toNat ++ wrapped)

/-- R539-R541; 01 R37. -/
def execNodeovr (c : OpCmd) (devid : BitVec 128) (g t : BitVec 6) (s : State) : Answer :=
  s.onAgg fun a => a.opRow c 0x21 (leBytes 16 devid.toNat ++ leBytes 1 g.toNat ++ leBytes 1 t.toNat ++ zeros 2)

/-- R519, R539-R541: over an access port only. -/
def execEnroll (c : OpCmd) (o : Origin) (cert : List Byte) (s : State) : Answer :=
  s.onAgg fun a => a.opRow { c with via := .port o } 0x30 cert

/-- R519, R539-R541. -/
def execKeyrotate (c : OpCmd) (cert : List Byte) (s : State) : Answer := s.onAgg fun a => a.opRow c 0x31 cert

/-- R519, R539-R541. -/
def execRelease (c : OpCmd) (devid : BitVec 128) (s : State) : Answer :=
  s.onAgg fun a => a.opRow c 0x32 (leBytes 16 devid.toNat)

/-- R542: a write of SEC_ATTCTL.ATTEST. -/
def execAttest (p : Part) (o : Origin) (s : State) : Answer := s.writeBits p o Reg.secAttctl 0 0 1

/-- R542; 17 R568: an aggregator's report names the Crucible's state. -/
def execAttestReady (p : Part) (s : State) : Answer :=
  match p with
  | .die => s.onDie fun d => d.onU fun u => u.attestReady 0
  | .agg => s.onAgg fun a => a.onU fun u => u.attestReady a.cruFlags

/-- R542: a write of SEC_ATTCTL.CERT. -/
def execCert (p : Part) (o : Origin) (s : State) : Answer := s.writeBits p o Reg.secAttctl 1 1 1

/-- R542, R549: a read of SEC_BUFDATA. -/
def execBufdataRead (p : Part) (o : Origin) (s : State) : Answer := s.read p o Reg.secBufdata 4

/-- R547; R550 of a write that fails. -/
def execAuditFlashWrite (ok : Bool) (s : State) : Answer := s.onAgg fun a => a.onU fun u => u.audFlash ok

end Sys2Proof.Machine
end

