-- ==== Sys2Proof/Machine/TimeCmds.lean ====
section
/-! DEFINITION. Meanings of the commands of the timebase, the epochs and the trigger channels (02_time). -/

namespace Sys2Proof.Machine

/-- R59. -/
def execMarkEdge (p : Part) (s : State) : Answer := s.onTime p Unit.markEdge

/-- R58. -/
def execTodFrame (p : Part) (frame : BitVec 128) (s : State) : Answer := s.onTime p fun u => u.todFrame frame

/-- R57. -/
def execHoldover (p : Part) (s : State) : Answer := s.onAon p Unit.holdover

/-- R57. -/
def execDegraded (p : Part) (s : State) : Answer := s.onAon p Unit.degraded

/-- R74: a write of TIM_CTRL.RESYNC. -/
def execResync (p : Part) (o : Origin) (s : State) : Answer := s.writeBits p o Reg.timCtrl 3 3 1

/-- Port of a PTP message. -/
def ptpPort : PtpMsg → Nat
  | .announce port _ _ _ => port.val
  | .sync port _ _ _ _ => port.val
  | .followUp port _ _ _ => port.val
  | .delayResp port _ _ _ => port.val
  | .pdelay port => port.val

/-- R64: a message on a fleet port that is up. -/
def execPtpMessage (m : PtpMsg) (s : State) : Answer :=
  s.onAgg fun a => if a.portUp (ptpPort m) && !a.u.inReset 5 then (a.onU fun u => u.ptpMessage m).ptpRequest else a

/-- R64. -/
def execPtpReturn (s : State) : Answer := s.onTime .agg Unit.ptpReturn

/-- R66. -/
def execEpochFire (p : Part) (s : State) : Answer := s.onAon p Unit.epochFire

/-- R67. -/
def execFastEpochFire (p : Part) (s : State) : Answer := s.onAon p Unit.fastFire

/-- R73. -/
def execCatchupFire (p : Part) (s : State) : Answer := s.onTime p Unit.catchFire

/-- R70: a write of TIM_EPSWCTL.ARM. -/
def execEpochSwitchArm (p : Part) (o : Origin) (s : State) : Answer := s.write p o Reg.timEpswctl 4 1

/-- R70. -/
def execEpochSwitch (p : Part) (s : State) : Answer := s.onAon p Unit.epSwitch

/-- R90: a write of TIM_CTRL.EPEN. -/
def execEpenWrite (p : Part) (o : Origin) (on : Bool) (s : State) : Answer := s.writeBits p o Reg.timCtrl 0 0 (b2n on)

/-- R69: a write of TIM_CTRL.FASTEN. -/
def execFastenWrite (p : Part) (o : Origin) (on : Bool) (s : State) : Answer := s.writeBits p o Reg.timCtrl 1 1 (b2n on)

/-- R84: a write of TIM[sel].ARM. -/
def execTriggerArm (p : Part) (o : Origin) (on : Bool) (s : State) : Answer :=
  s.write p o Reg.timAtArm 4 (BitVec.ofNat 32 (b2n on))

/-- R82. -/
def execTriggerFire (p : Part) (ch : Fin 16) (s : State) : Answer := s.onTime p fun u => u.trigFire ch.val

/-- R92. -/
def execHostoutPulseEnd (p : Part) (ch : Fin 16) (s : State) : Answer := s.onAon p fun u => u.pulseEnd ch.val

end Sys2Proof.Machine
end

