-- ==== Sys2Proof/Machine/TraceCmds.lean ====
section
/-! DEFINITION. Meanings of the commands of trace, debug tokens and watchpoints (12). They concern the die unit. -/

namespace Sys2Proof.Machine

/-- R416-R421, with R424, R425, R431. -/
def execTraceEvent (core : Fin 32) (slots : List TraceSlot) (s : State) : Answer :=
  s.onDie fun d => d.traceEvent core.val slots

/-- R423. -/
def execBlockDrain (core : Fin 32) (s : State) : Answer := s.onDie fun d => d.blockDrain core.val

/-- R423. -/
def execDrainIdle (core : Fin 32) (s : State) : Answer := s.onDie fun d => d.drainIdle core.val

/-- R426. -/
def execTraceRecord (core : Fin 32) (s : State) : Answer := s.onDie fun d => d.traceRecord core.val

/-- R427; 15 R506, R509: which staging word was bad is not an operand, so its address is a free value. -/
def execDrainHalt (s : State) : Answer :=
  s.onDie fun d => { d with u := d.u.draw.2 }.drainHalt (d.u.draw.1 % memWords .die 2)

/-- R427: TRC_CTRL.TRCEN written 1. -/
def execTraceResume (o : Origin) (s : State) : Answer := s.writeBits .die o Reg.trcCtrl 0 0 1

/-- R429: a write of TRC_TOKCTL.VERIFY. -/
def execTokenVerify (o : Origin) (s : State) : Answer := s.write .die o Reg.trcTokctl 4 1

/-- R429, with R428. -/
def execTokenVerified (s : State) : Answer := s.onDie Die.tokenVerified

/-- R429: a write of TRC_TOKCTL.CLEAR. -/
def execTokenClear (o : Origin) (s : State) : Answer := s.write .die o Reg.trcTokctl 4 2

/-- R432. -/
def execTokenExpiry (s : State) : Answer := s.onDie Die.sessionCheck

/-- R429. -/
def execTokenInForce (s : State) : Answer := s.onDie Die.tokenStarts

/-- R430: a write of TRC_SESSION.OPEN with the class. -/
def execSessionOpen (o : Origin) (classU : Bool) (s : State) : Answer :=
  s.write .die o Reg.trcSession 4 (BitVec.ofNat 32 (1 + 4 * b2n classU))

/-- R432: a write of TRC_SESSION.CLOSE. -/
def execSessionClose (o : Origin) (s : State) : Answer := s.write .die o Reg.trcSession 4 2

/-- R433. -/
def execCoreLowPower (core : Fin 32) (enter : Bool) (st : BitVec 4) (s : State) : Answer :=
  s.onDie fun d => d.coreLow core.val enter st.toNat

/-- R434-R437. -/
def execWatchMatch (lanes : List WatchReq) (s : State) : Answer := s.onDie fun d => d.watchMatch lanes

/-- R437. -/
def execHaltAck (wp : Fin 16) (s : State) : Answer := s.onDie fun d => d.haltDrop wp.val

/-- R437: a write of WCH[sel].HALT.RELEASE. -/
def execHaltRelease (o : Origin) (s : State) : Answer := s.write .die o Reg.wchAtHalt 4 2

/-- R449: a write of WCH[sel].EN. -/
def execWatchEnable (o : Origin) (on : Bool) (s : State) : Answer :=
  s.write .die o Reg.wchAtEn 4 (BitVec.ofNat 32 (b2n on))

end Sys2Proof.Machine
end

