-- ==== Sys2Proof/Machine/VoteCmds.lean ====
section
/-! DEFINITION. Meanings of the commands of the vote, the roles and admission (08; 01 R39-R42). They concern the
aggregator. -/

namespace Sys2Proof.Machine

/-- R302. -/
def execTrayBeat (s : State) : Answer := s.onAgg Agg.trayBeat

/-- R311, with R24, R26. -/
def execTrayBeatReceive (i : FleetIn) (h : VoteHead) (b : TrayBeat) (s : State) : Answer :=
  s.onAgg fun a => a.arriveVote i [h.src] fun a => a.trayBeatReceive h.eff.src b

/-- R326. -/
def execPartnerLost (s : State) : Answer := s.onAgg Agg.partnerLost

/-- R314. -/
def execTraysilent (tray : BitVec 6) (s : State) : Answer := s.onAgg fun a => a.traySilent tray.toNat

/-- R303. -/
def execPropose (subj : BitVec 24) (s : State) : Answer := s.onAgg fun a => a.propose subj

/-- R303. -/
def execProposeRepeat (subj : BitVec 24) (s : State) : Answer := s.onAgg fun a => a.proposeRepeat subj

/-- R304. -/
def execProposeReceive (i : FleetIn) (h : VoteHead) (pr : Proposal) (s : State) : Answer :=
  s.onAgg fun a => a.arriveVote i [h.src, pr.subj, pr.rdie] fun a => a.proposeReceive h.eff.src pr.eff

/-- R316. -/
def execGovernedExpiry (subj : BitVec 24) (s : State) : Answer := s.onAgg fun a => a.governedExpiry subj

/-- R305. -/
def execDecideReceive (i : FleetIn) (h : VoteHead) (f : Fence) (s : State) : Answer :=
  s.onAgg fun a => a.arriveVote i [h.src, f.subj, f.rdie] fun a => a.decideReceive h.eff f.eff

/-- R305. -/
def execCommitReceive (i : FleetIn) (h : VoteHead) (decid : BitVec 64) (agree : Bool) (s : State) : Answer :=
  s.onAgg fun a => a.arriveVote i [h.src] fun a => a.commitReceive decid.toNat agree

/-- R305. -/
def execDecideResend (decid : BitVec 64) (s : State) : Answer := s.onAgg fun a => a.decideResend decid.toNat

/-- R306. -/
def execEscalateReceive (i : FleetIn) (h : VoteHead) (f : Fence) (ps : List Proposal) (s : State) : Answer :=
  s.onAgg fun a => a.arriveVote i ([h.src, f.subj, f.rdie] ++ (ps.map fun p => [p.subj, p.rdie]).flatten) fun a =>
    a.escalateReceive f.eff (ps.map Proposal.eff)

/-- R306. -/
def execRelayReceive (i : FleetIn) (h : VoteHead) (drafts : List Fence) (s : State) : Answer :=
  s.onAgg fun a => a.arriveVote i (h.src :: (drafts.map fun f => [f.subj, f.rdie]).flatten) fun a => a.relayReceive (drafts.map Fence.eff)

/-- R307. -/
def execFenceMessage (i : FleetIn) (h : VoteHead) (f : Fence) (s : State) : Answer :=
  s.onAgg fun a => a.arriveVote i [h.src, f.subj, f.rdie] fun a => a.fenceMessage h.eff f.eff

/-- R307. -/
def execFackReceive (i : FleetIn) (h : VoteHead) (decid : BitVec 64) (wgid : BitVec 16) (fseq : Word) (_gap : Bool)
    (s : State) : Answer :=
  s.onAgg fun a => a.arriveVote i [h.src] fun a => a.fackReceive h.eff.src decid.toNat wgid.toNat fseq.toNat

/-- R307. -/
def execFenceResend (decid : BitVec 64) (s : State) : Answer := s.onAgg fun a => a.fenceResend decid.toNat

/-- R302. -/
def execGroupBeat (s : State) : Answer := s.onAgg Agg.groupBeat

/-- R311. -/
def execGroupBeatReceive (i : FleetIn) (h : VoteHead) (_term : Word) (_trays : BitVec 8) (s : State) : Answer :=
  s.onAgg fun a => a.arriveVote i [h.src] fun a => a.groupBeatReceive h.eff.src

/-- R311. -/
def execIsolation (sys : Bool) (s : State) : Answer := s.onAgg fun a => a.isolation sys

/-- R312. -/
def execQuietPeriodEnd (sys : Bool) (s : State) : Answer := s.onAgg fun a => a.quietEnd sys

/-- 01 R39. -/
def execRoleClaim (sys : Bool) (s : State) : Answer := s.onAgg fun a => a.roleClaim sys

/-- 01 R40, with R24. -/
def execRoleClaimReceive (i : FleetIn) (sys : Bool) (holder : BitVec 24) (term : Word) (s : State) : Answer :=
  s.onAgg fun a => a.arriveVote i [holder] fun a => a.roleClaimReceive sys (addrEff holder) term.toNat

/-- 01 R40-R42. -/
def execRoleVacant (sys : Bool) (s : State) : Answer := s.onAgg fun a => a.roleVacant sys

/-- R322: a write of VOT_ADMCTL.START with the watch group. -/
def execAdmitStart (o : Origin) (wgid : BitVec 12) (s : State) : Answer :=
  s.write .agg o Reg.votAdmctl 4 (BitVec.ofNat 32 (1 + 65536 * wgid.toNat))

/-- R322. -/
def execAdmitTestDone (pass : Bool) (s : State) : Answer := s.onAgg fun a => a.admitTestDone pass

/-- R322. -/
def execSweepStep (s : State) : Answer := s.onAgg Agg.sweepStep

/-- R323. -/
def execSweepEnd (s : State) : Answer := s.onAgg Agg.sweepEnd

/-- R322: a write of VOT_ADMCTL.LOADED. -/
def execAdmitLoaded (o : Origin) (s : State) : Answer := s.write .agg o Reg.votAdmctl 4 2

/-- R323: a write of VOT_ADMCTL.ABORT. -/
def execAdmitAbort (o : Origin) (s : State) : Answer := s.write .agg o Reg.votAdmctl 4 4

end Sys2Proof.Machine
end

