-- ==== Sys2Proof/Machine/WitnessCmds.lean ====
section
/-! DEFINITION. Meanings of the commands of the tile witness (07). They concern the die unit, while its CAP island runs. -/

namespace Sys2Proof.Machine

/-- R255-R258. -/
def execAnnounce (tile : BitVec 64) (eng : BitVec 8) (s : State) : Answer :=
  s.onDie fun d => d.announce tile.toNat eng.toNat

/-- R253. -/
def execFirst (tag : BitVec 12) (tile : BitVec 64) (eng : BitVec 8) (sig : BitVec 64) (s : State) : Answer :=
  s.onDie fun d => d.witFirst tag.toNat tile.toNat eng.toNat sig.toNat

/-- R260. -/
def execSecond (tag : BitVec 12) (tile : BitVec 64) (eng : BitVec 8) (sig : BitVec 64) (s : State) : Answer :=
  s.onDie fun d => d.witSecond tag.toNat tile.toNat eng.toNat sig.toNat

/-- R260; a NOVOTE enters the health unit's window (08 R280). -/
def execThird (tag : BitVec 12) (tile : BitVec 64) (eng : BitVec 8) (sig : BitVec 64) (s : State) : Answer :=
  s.onDie fun d =>
    let r := d.witThird tag.toNat tile.toNat eng.toNat sig.toNat
    if r.2 then r.1.novote else r.1

/-- R259. -/
def execPendingTimeout (tag : BitVec 12) (s : State) : Answer :=
  s.onDie fun d => d.capDo fun d => d.pendTimeout tag.toNat

/-- R259. -/
def execThirdTimeout (tag : BitVec 12) (s : State) : Answer :=
  s.onDie fun d => d.capDo fun d => d.thirdTimeout tag.toNat

/-- R268. -/
def execConditionSweep (s : State) : Answer := s.onDie fun d => d.capDo Die.condSweep

/-- R268: a write of WIT[sel].CLEAR. -/
def execConditionClear (o : Origin) (s : State) : Answer := s.write .die o Reg.witAtClear 4 1

/-- R257: a write of WIT_SEEDH. -/
def execSeedWrite (o : Origin) (high : Word) (s : State) : Answer := s.write .die o Reg.witSeedh 4 high

/-- R270. -/
def execMarginRequest (s : State) : Answer := s.onDie Die.marginRequest

/-- R272. -/
def execMarginAnswer (ok : Bool) (s : State) : Answer := s.onDie fun d => d.capDo fun d => d.marginAnswer ok

/-- R272. -/
def execMarginTimeout (s : State) : Answer := s.onDie fun d => d.capDo Die.marginTimeout

end Sys2Proof.Machine
end

