-- ==== Sys2Proof/Machine/Dispatch.lean ====
section
/-! DEFINITION. One arm per command of the opcode table, each a direct call of its meaning. -/

namespace Sys2Proof.Machine

/-- The effect of a command on everything but the queue. -/
def exec (i : Instr) (s : State) : Host.Outcome State Fault Refusal :=
  match i with
  | .markEdge p => Sys2Proof.Machine.execMarkEdge p s
  | .todFrame p frame => Sys2Proof.Machine.execTodFrame p frame s
  | .holdover p => Sys2Proof.Machine.execHoldover p s
  | .degraded p => Sys2Proof.Machine.execDegraded p s
  | .resync p o => Sys2Proof.Machine.execResync p o s
  | .ptpMessage m => Sys2Proof.Machine.execPtpMessage m s
  | .ptpReturn => Sys2Proof.Machine.execPtpReturn s
  | .epochFire p => Sys2Proof.Machine.execEpochFire p s
  | .fastEpochFire p => Sys2Proof.Machine.execFastEpochFire p s
  | .catchupFire p => Sys2Proof.Machine.execCatchupFire p s
  | .epochSwitchArm p o => Sys2Proof.Machine.execEpochSwitchArm p o s
  | .epochSwitch p => Sys2Proof.Machine.execEpochSwitch p s
  | .epenWrite p o on => Sys2Proof.Machine.execEpenWrite p o on s
  | .fastenWrite p o on => Sys2Proof.Machine.execFastenWrite p o on s
  | .capArm fast => Sys2Proof.Machine.execCapArm fast s
  | .latchClockDecision => Sys2Proof.Machine.execLatchClockDecision s
  | .hostClockLoss => Sys2Proof.Machine.execHostClockLoss s
  | .snapshotLatch ofsNs => Sys2Proof.Machine.execSnapshotLatch ofsNs s
  | .clkstopLatch => Sys2Proof.Machine.execClkstopLatch s
  | .triggerArm p o on => Sys2Proof.Machine.execTriggerArm p o on s
  | .triggerFire p ch => Sys2Proof.Machine.execTriggerFire p ch s
  | .hostoutPulseEnd p ch => Sys2Proof.Machine.execHostoutPulseEnd p ch s
  | .conversionComplete ch value => Sys2Proof.Machine.execConversionComplete ch value s
  | .sensorWrite ch fmt value => Sys2Proof.Machine.execSensorWrite ch fmt value s
  | .liveRead o => Sys2Proof.Machine.execLiveRead o s
  | .imageComplete fast => Sys2Proof.Machine.execImageComplete fast s
  | .recordBuild fast => Sys2Proof.Machine.execRecordBuild fast s
  | .slotRelease slot sub => Sys2Proof.Machine.execSlotRelease slot sub s
  | .snapshotHold o mask => Sys2Proof.Machine.execSnapshotHold o mask s
  | .holdTimeout slot => Sys2Proof.Machine.execHoldTimeout slot s
  | .psiCrossing ctr => Sys2Proof.Machine.execPsiCrossing ctr s
  | .psiAck core skid addr => Sys2Proof.Machine.execPsiAck core skid addr s
  | .psiEnable o value => Sys2Proof.Machine.execPsiEnable o value s
  | .runnerLaunch plan port => Sys2Proof.Machine.execRunnerLaunch plan port s
  | .runnerWindowOpen p port epoch => Sys2Proof.Machine.execRunnerWindowOpen p port epoch s
  | .runnerWindowClose p port => Sys2Proof.Machine.execRunnerWindowClose p port s
  | .runnerFold from_ r => Sys2Proof.Machine.execRunnerFold from_ r s
  | .runnerArrival port r => Sys2Proof.Machine.execRunnerArrival port r s
  | .reductionDeadline k => Sys2Proof.Machine.execReductionDeadline k s
  | .entryFree k => Sys2Proof.Machine.execEntryFree k s
  | .frun inp orig r => Sys2Proof.Machine.execFrun inp orig r s
  | .srefhand inp plan port epn sref => Sys2Proof.Machine.execSrefhand inp plan port epn sref s
  | .phaseArr phase step => Sys2Proof.Machine.execPhaseArr phase step s
  | .phaseRel phase step => Sys2Proof.Machine.execPhaseRel phase step s
  | .featuresReady p => Sys2Proof.Machine.execFeaturesReady p s
  | .treeJobStart p => Sys2Proof.Machine.execTreeJobStart p s
  | .treeVerdict p => Sys2Proof.Machine.execTreeVerdict p s
  | .swapArm p o => Sys2Proof.Machine.execSwapArm p o s
  | .swapCancel p o => Sys2Proof.Machine.execSwapCancel p o s
  | .weirReset p o => Sys2Proof.Machine.execWeirReset p o s
  | .treeScrub p upset => Sys2Proof.Machine.execTreeScrub p upset s
  | .denseJobStart p => Sys2Proof.Machine.execDenseJobStart p s
  | .denseVerdict p => Sys2Proof.Machine.execDenseVerdict p s
  | .denseJoint p => Sys2Proof.Machine.execDenseJoint p s
  | .denseWeirReset p o => Sys2Proof.Machine.execDenseWeirReset p o s
  | .driftUpdate p metric => Sys2Proof.Machine.execDriftUpdate p metric s
  | .rebase p o => Sys2Proof.Machine.execRebase p o s
  | .announce tile eng => Sys2Proof.Machine.execAnnounce tile eng s
  | .first tag tile eng sig => Sys2Proof.Machine.execFirst tag tile eng sig s
  | .second tag tile eng sig => Sys2Proof.Machine.execSecond tag tile eng sig s
  | .third tag tile eng sig => Sys2Proof.Machine.execThird tag tile eng sig s
  | .pendingTimeout tag => Sys2Proof.Machine.execPendingTimeout tag s
  | .thirdTimeout tag => Sys2Proof.Machine.execThirdTimeout tag s
  | .conditionSweep => Sys2Proof.Machine.execConditionSweep s
  | .conditionClear o => Sys2Proof.Machine.execConditionClear o s
  | .seedWrite o high => Sys2Proof.Machine.execSeedWrite o high s
  | .marginRequest => Sys2Proof.Machine.execMarginRequest s
  | .marginAnswer ok => Sys2Proof.Machine.execMarginAnswer ok s
  | .marginTimeout => Sys2Proof.Machine.execMarginTimeout s
  | .healthRecord => Sys2Proof.Machine.execHealthRecord s
  | .verdictDownhold => Sys2Proof.Machine.execVerdictDownhold s
  | .novoteExpire => Sys2Proof.Machine.execNovoteExpire s
  | .hostFatal => Sys2Proof.Machine.execHostFatal s
  | .silent die partnerSame => Sys2Proof.Machine.execSilent die partnerSame s
  | .dieUnreachable die => Sys2Proof.Machine.execDieUnreachable die s
  | .fenceReceive f => Sys2Proof.Machine.execFenceReceive f s
  | .fenceDone o => Sys2Proof.Machine.execFenceDone o s
  | .trayBeat => Sys2Proof.Machine.execTrayBeat s
  | .trayBeatReceive inp h b => Sys2Proof.Machine.execTrayBeatReceive inp h b s
  | .partnerLost => Sys2Proof.Machine.execPartnerLost s
  | .traysilent tray => Sys2Proof.Machine.execTraysilent tray s
  | .propose subj => Sys2Proof.Machine.execPropose subj s
  | .proposeRepeat subj => Sys2Proof.Machine.execProposeRepeat subj s
  | .proposeReceive inp h pr => Sys2Proof.Machine.execProposeReceive inp h pr s
  | .governedExpiry subj => Sys2Proof.Machine.execGovernedExpiry subj s
  | .decideReceive inp h f => Sys2Proof.Machine.execDecideReceive inp h f s
  | .commitReceive inp h decid agree => Sys2Proof.Machine.execCommitReceive inp h decid agree s
  | .decideResend decid => Sys2Proof.Machine.execDecideResend decid s
  | .escalateReceive inp h f ps => Sys2Proof.Machine.execEscalateReceive inp h f ps s
  | .relayReceive inp h drafts => Sys2Proof.Machine.execRelayReceive inp h drafts s
  | .fenceMessage inp h f => Sys2Proof.Machine.execFenceMessage inp h f s
  | .fackReceive inp h decid wgid fseq gap => Sys2Proof.Machine.execFackReceive inp h decid wgid fseq gap s
  | .fenceResend decid => Sys2Proof.Machine.execFenceResend decid s
  | .groupBeat => Sys2Proof.Machine.execGroupBeat s
  | .groupBeatReceive inp h term trays => Sys2Proof.Machine.execGroupBeatReceive inp h term trays s
  | .isolation sys => Sys2Proof.Machine.execIsolation sys s
  | .quietPeriodEnd sys => Sys2Proof.Machine.execQuietPeriodEnd sys s
  | .roleClaim sys => Sys2Proof.Machine.execRoleClaim sys s
  | .roleClaimReceive inp sys holder term => Sys2Proof.Machine.execRoleClaimReceive inp sys holder term s
  | .roleVacant sys => Sys2Proof.Machine.execRoleVacant sys s
  | .cmdReceive from_ c => Sys2Proof.Machine.execCmdReceive from_ c s
  | .cmdret port c => Sys2Proof.Machine.execCmdret port c s
  | .cmdMask via port cseq mask => Sys2Proof.Machine.execCmdMask via port cseq mask s
  | .cmdReissue port cseq => Sys2Proof.Machine.execCmdReissue port cseq s
  | .cmdUnack port cseq => Sys2Proof.Machine.execCmdUnack port cseq s
  | .linkDown link => Sys2Proof.Machine.execLinkDown link s
  | .linkDead link => Sys2Proof.Machine.execLinkDead link s
  | .linkUp link => Sys2Proof.Machine.execLinkUp link s
  | .admitStart o wgid => Sys2Proof.Machine.execAdmitStart o wgid s
  | .admitTestDone pass => Sys2Proof.Machine.execAdmitTestDone pass s
  | .sweepStep => Sys2Proof.Machine.execSweepStep s
  | .sweepEnd => Sys2Proof.Machine.execSweepEnd s
  | .admitLoaded o => Sys2Proof.Machine.execAdmitLoaded o s
  | .admitAbort o => Sys2Proof.Machine.execAdmitAbort o s
  | .hangAssembly => Sys2Proof.Machine.execHangAssembly s
  | .traygraph inp h g => Sys2Proof.Machine.execTraygraph inp h g s
  | .collectionClose => Sys2Proof.Machine.execCollectionClose s
  | .entryq inp h asmn ws => Sys2Proof.Machine.execEntryq inp h asmn ws s
  | .entryrsp inp h asmn rs => Sys2Proof.Machine.execEntryrsp inp h asmn rs s
  | .groupgraph inp h g => Sys2Proof.Machine.execGroupgraph inp h g s
  | .alarmHeldCommit => Sys2Proof.Machine.execAlarmHeldCommit s
  | .heldEventCommit p => Sys2Proof.Machine.execHeldEventCommit p s
  | .spillReadback cls => Sys2Proof.Machine.execSpillReadback cls s
  | .recordSend cls side => Sys2Proof.Machine.execRecordSend cls side s
  | .recordReceive port g => Sys2Proof.Machine.execRecordReceive port g s
  | .journalWrite => Sys2Proof.Machine.execJournalWrite s
  | .restartMarker orig cls void oldSeq => Sys2Proof.Machine.execRestartMarker orig cls void oldSeq s
  | .ackSend die => Sys2Proof.Machine.execAckSend die s
  | .ackReceive side a => Sys2Proof.Machine.execAckReceive side a s
  | .ackTimeout side cls => Sys2Proof.Machine.execAckTimeout side cls s
  | .headTimeout side => Sys2Proof.Machine.execHeadTimeout side s
  | .frecSend stream => Sys2Proof.Machine.execFrecSend stream s
  | .sack inp entries => Sys2Proof.Machine.execSack inp entries s
  | .syncrsp inp entries => Sys2Proof.Machine.execSyncrsp inp entries s
  | .sinkTimeout stream => Sys2Proof.Machine.execSinkTimeout stream s
  | .syncTimeout stream => Sys2Proof.Machine.execSyncTimeout stream s
  | .jstate => Sys2Proof.Machine.execJstate s
  | .jstateReceive inp entries => Sys2Proof.Machine.execJstateReceive inp entries s
  | .digest p => Sys2Proof.Machine.execDigest p s
  | .seal => Sys2Proof.Machine.execSeal s
  | .powerFailWarning => Sys2Proof.Machine.execPowerFailWarning s
  | .powerfail => Sys2Proof.Machine.execPowerfail s
  | .flashFlush => Sys2Proof.Machine.execFlashFlush s
  | .flushComplete => Sys2Proof.Machine.execFlushComplete s
  | .powerFailRecovery => Sys2Proof.Machine.execPowerFailRecovery s
  | .hopTrain p port peer => Sys2Proof.Machine.execHopTrain p port peer s
  | .trainTimeout p port => Sys2Proof.Machine.execTrainTimeout p port s
  | .trainRetry p port => Sys2Proof.Machine.execTrainRetry p port s
  | .hopUp p port => Sys2Proof.Machine.execHopUp p port s
  | .hopDown p port burst => Sys2Proof.Machine.execHopDown p port burst s
  | .creditStall p port => Sys2Proof.Machine.execCreditStall p port s
  | .hopdownReceive port orig dport cause => Sys2Proof.Machine.execHopdownReceive port orig dport cause s
  | .hopupReceive port orig => Sys2Proof.Machine.execHopupReceive port orig s
  | .setgen gen at_ => Sys2Proof.Machine.execSetgen gen at_ s
  | .genSwitch p port failed => Sys2Proof.Machine.execGenSwitch p port failed s
  | .frameRelay from_ f => Sys2Proof.Machine.execFrameRelay from_ f s
  | .creditWord p port cls units => Sys2Proof.Machine.execCreditWord p port cls units s
  | .beat => Sys2Proof.Machine.execBeat s
  | .portRetrain p o => Sys2Proof.Machine.execPortRetrain p o s
  | .enumStart port => Sys2Proof.Machine.execEnumStart port s
  | .enum from_ e => Sys2Proof.Machine.execEnum from_ e s
  | .enumComplete port e => Sys2Proof.Machine.execEnumComplete port e s
  | .enumTimeout port => Sys2Proof.Machine.execEnumTimeout port s
  | .enumAlone port gmask => Sys2Proof.Machine.execEnumAlone port gmask s
  | .proxyAccess a => Sys2Proof.Machine.execProxyAccess a s
  | .pxrd from_ src slot wide ofs => Sys2Proof.Machine.execPxrd from_ src slot wide ofs s
  | .pxwr from_ src slot ofs data => Sys2Proof.Machine.execPxwr from_ src slot ofs data s
  | .pxrsp slot refused wide data => Sys2Proof.Machine.execPxrsp slot refused wide data s
  | .proxyTimeout slot => Sys2Proof.Machine.execProxyTimeout slot s
  | .fleetPortUp port speed fec => Sys2Proof.Machine.execFleetPortUp port speed fec s
  | .fleetPortDown port => Sys2Proof.Machine.execFleetPortDown port s
  | .mkaKeyInstall port suite an => Sys2Proof.Machine.execMkaKeyInstall port suite an s
  | .macsecRekey port => Sys2Proof.Machine.execMacsecRekey port s
  | .pnExhausted port => Sys2Proof.Machine.execPnExhausted port s
  | .gclArm o => Sys2Proof.Machine.execGclArm o s
  | .gclCancel o => Sys2Proof.Machine.execGclCancel o s
  | .gclTakeover port => Sys2Proof.Machine.execGclTakeover port s
  | .gateEntry port => Sys2Proof.Machine.execGateEntry port s
  | .frameStart port => Sys2Proof.Machine.execFrameStart port s
  | .queueSample => Sys2Proof.Machine.execQueueSample s
  | .traceEvent core slots => Sys2Proof.Machine.execTraceEvent core slots s
  | .blockDrain core => Sys2Proof.Machine.execBlockDrain core s
  | .drainIdle core => Sys2Proof.Machine.execDrainIdle core s
  | .traceRecord core => Sys2Proof.Machine.execTraceRecord core s
  | .drainHalt => Sys2Proof.Machine.execDrainHalt s
  | .traceResume o => Sys2Proof.Machine.execTraceResume o s
  | .tokenVerify o => Sys2Proof.Machine.execTokenVerify o s
  | .tokenVerified => Sys2Proof.Machine.execTokenVerified s
  | .tokenClear o => Sys2Proof.Machine.execTokenClear o s
  | .tokenExpiry => Sys2Proof.Machine.execTokenExpiry s
  | .sessionOpen o classU => Sys2Proof.Machine.execSessionOpen o classU s
  | .sessionClose o => Sys2Proof.Machine.execSessionClose o s
  | .coreLowPower core enter st => Sys2Proof.Machine.execCoreLowPower core enter st s
  | .watchMatch lanes => Sys2Proof.Machine.execWatchMatch lanes s
  | .haltAck wp => Sys2Proof.Machine.execHaltAck wp s
  | .haltRelease o => Sys2Proof.Machine.execHaltRelease o s
  | .watchEnable o on => Sys2Proof.Machine.execWatchEnable o on s
  | .waitforSample words => Sys2Proof.Machine.execWaitforSample words s
  | .waitforReport => Sys2Proof.Machine.execWaitforReport s
  | .compress p => Sys2Proof.Machine.execCompress p s
  | .compressComplete p => Sys2Proof.Machine.execCompressComplete p s
  | .compressAbandon p => Sys2Proof.Machine.execCompressAbandon p s
  | .compressFault p ue => Sys2Proof.Machine.execCompressFault p ue s
  | .frameVerify => Sys2Proof.Machine.execFrameVerify s
  | .mbxPush p o w => Sys2Proof.Machine.execMbxPush p o w s
  | .mbxPop p o => Sys2Proof.Machine.execMbxPop p o s
  | .doorbellSet p o bits => Sys2Proof.Machine.execDoorbellSet p o bits s
  | .doorbellAck p o bits => Sys2Proof.Machine.execDoorbellAck p o bits s
  | .mbxTimeout p ch sideK => Sys2Proof.Machine.execMbxTimeout p ch sideK s
  | .postevent p ch => Sys2Proof.Machine.execPostevent p ch s
  | .ping p ch => Sys2Proof.Machine.execPing p ch s
  | .unknownRequest p ch => Sys2Proof.Machine.execUnknownRequest p ch s
  | .bucketRefill p => Sys2Proof.Machine.execBucketRefill p s
  | .evrCfgWrite p o value => Sys2Proof.Machine.execEvrCfgWrite p o value s
  | .historyFlush ok => Sys2Proof.Machine.execHistoryFlush ok s
  | .evread c first count => Sys2Proof.Machine.execEvread c first count s
  | .evclear c ring history => Sys2Proof.Machine.execEvclear c ring history s
  | .memoryScrub p mem upset dma => Sys2Proof.Machine.execMemoryScrub p mem upset dma s
  | .eccWriteBack p mem addr => Sys2Proof.Machine.execEccWriteBack p mem addr s
  | .mergeFlush p mem writes => Sys2Proof.Machine.execMergeFlush p mem writes s
  | .fetchTrap p addr synd => Sys2Proof.Machine.execFetchTrap p addr synd s
  | .partitionReset p part byReg => Sys2Proof.Machine.execPartitionReset p part byReg s
  | .dmaResume p chan => Sys2Proof.Machine.execDmaResume p chan s
  | .ceClear p o => Sys2Proof.Machine.execCeClear p o s
  | .flipArm p o mem => Sys2Proof.Machine.execFlipArm p o mem s
  | .memoryPortRead cls rerr => Sys2Proof.Machine.execMemoryPortRead cls rerr s
  | .memoryPortDone kind cbytes => Sys2Proof.Machine.execMemoryPortDone kind cbytes s
  | .loadBegin p o => Sys2Proof.Machine.execLoadBegin p o s
  | .loadData p o w => Sys2Proof.Machine.execLoadData p o w s
  | .loadEnd p o => Sys2Proof.Machine.execLoadEnd p o s
  | .loadVerified p => Sys2Proof.Machine.execLoadVerified p s
  | .loadCancel p o => Sys2Proof.Machine.execLoadCancel p o s
  | .loadAbort p o => Sys2Proof.Machine.execLoadAbort p o s
  | .patbegin from_ loadId totLen => Sys2Proof.Machine.execPatbegin from_ loadId totLen s
  | .patchunk from_ loadId ofs bytes => Sys2Proof.Machine.execPatchunk from_ loadId ofs bytes s
  | .patend from_ loadId => Sys2Proof.Machine.execPatend from_ loadId s
  | .fwSwap p o => Sys2Proof.Machine.execFwSwap p o s
  | .fwRevert p => Sys2Proof.Machine.execFwRevert p s
  | .fwCommit p o => Sys2Proof.Machine.execFwCommit p o s
  | .openGroup c g => Sys2Proof.Machine.execOpen c g s
  | .teardown c g => Sys2Proof.Machine.execTeardown c g s
  | .setspares c group spares => Sys2Proof.Machine.execSetspares c group spares s
  | .mkakey c portMask ckn wrapped => Sys2Proof.Machine.execMkakey c portMask ckn wrapped s
  | .nodeovr c devid g t => Sys2Proof.Machine.execNodeovr c devid g t s
  | .enroll c o cert => Sys2Proof.Machine.execEnroll c o cert s
  | .keyrotate c cert => Sys2Proof.Machine.execKeyrotate c cert s
  | .release c devid => Sys2Proof.Machine.execRelease c devid s
  | .attest p o => Sys2Proof.Machine.execAttest p o s
  | .attestReady p => Sys2Proof.Machine.execAttestReady p s
  | .cert p o => Sys2Proof.Machine.execCert p o s
  | .secdataRead p o => Sys2Proof.Machine.execSecdataRead p o s
  | .bufdataRead p o => Sys2Proof.Machine.execBufdataRead p o s
  | .auditFlashWrite ok => Sys2Proof.Machine.execAuditFlashWrite ok s
  | .crucibleMark frame => Sys2Proof.Machine.execCrucibleMark frame s
  | .crucibleSample v inp ue => Sys2Proof.Machine.execCrucibleSample v inp ue s
  | .crucibleReading => Sys2Proof.Machine.execCrucibleReading s
  | .readingRepeat => Sys2Proof.Machine.execReadingRepeat s
  | .crlinkLive => Sys2Proof.Machine.execCrlinkLive s
  | .crlinkIdent => Sys2Proof.Machine.execCrlinkIdent s
  | .logResend => Sys2Proof.Machine.execLogResend s
  | .crlinkReceive f crcOk => Sys2Proof.Machine.execCrlinkReceive f crcOk s
  | .calRead item => Sys2Proof.Machine.execCalRead item s
  | .calLogRead n => Sys2Proof.Machine.execCalLogRead n s
  | .calWrite pid value calen => Sys2Proof.Machine.execCalWrite pid value calen s
  | .calSeal calen => Sys2Proof.Machine.execCalSeal calen s
  | .cruciblePowerup romCrc ue => Sys2Proof.Machine.execCruciblePowerup romCrc ue s
  | .cruciblePowerdown => Sys2Proof.Machine.execCruciblePowerdown s
  | .swcrcCheck romCrc => Sys2Proof.Machine.execSwcrcCheck romCrc s
  | .pmRequest byReg st => Sys2Proof.Machine.execPmRequest byReg st s
  | .powerTransitionDone => Sys2Proof.Machine.execPowerTransitionDone s
  | .hostoffDrain => Sys2Proof.Machine.execHostoffDrain s
  | .ladleIdle => Sys2Proof.Machine.execLadleIdle s
  | .wake from_ st => Sys2Proof.Machine.execWake from_ st s
  | .comparatorTrip cmp value => Sys2Proof.Machine.execComparatorTrip cmp value s
  | .comparatorClear cmp value => Sys2Proof.Machine.execComparatorClear cmp value s
  | .comparatorEnable o on => Sys2Proof.Machine.execComparatorEnable o on s
  | .diePowerUp => Sys2Proof.Machine.execDiePowerUp s
  | .diePowerLoss => Sys2Proof.Machine.execDiePowerLoss s
  | .dieUnitReset => Sys2Proof.Machine.execDieUnitReset s
  | .hostReset => Sys2Proof.Machine.execHostReset s
  | .managementReset => Sys2Proof.Machine.execManagementReset s
  | .powerOnReset strapG strapT sideB => Sys2Proof.Machine.execPowerOnReset strapG strapT sideB s
  | .systemReset => Sys2Proof.Machine.execSystemReset s
  | .pcieReset => Sys2Proof.Machine.execPcieReset s
  | .pairhello => Sys2Proof.Machine.execPairhello s
  | .pairhelloReceive inp h => Sys2Proof.Machine.execPairhelloReceive inp h s
  | .pairTimeout => Sys2Proof.Machine.execPairTimeout s
  | .pairup from_ u => Sys2Proof.Machine.execPairup from_ u s
  | .fleetJoin => Sys2Proof.Machine.execFleetJoin s
  | .selectWrite p o ofs value => Sys2Proof.Machine.execSelectWrite p o ofs value s
  | .readClear p o ofs size => Sys2Proof.Machine.execReadClear p o ofs size s
  | .lowHalfRead p o ofs size => Sys2Proof.Machine.execLowHalfRead p o ofs size s
  | .registerWrite p o ofs size value => Sys2Proof.Machine.execRegisterWrite p o ofs size value s
  | .captureEdge t => Sys2Proof.Machine.execCaptureEdge t s
  | .overtemp celsius => Sys2Proof.Machine.execOvertemp celsius s
  | .aggregatorPowerLoss => Sys2Proof.Machine.execAggregatorPowerLoss s
  | .journalReady => Sys2Proof.Machine.execJournalReady s
  | .bPassEnd port e => Sys2Proof.Machine.execBPassEnd port e s
  | .fenceRequest die wgid gen fseq => Sys2Proof.Machine.execFenceRequest die wgid gen fseq s
  | .tokenInForce => Sys2Proof.Machine.execTokenInForce s
  | .dieUnitResetRelease => Sys2Proof.Machine.execDieUnitResetRelease s
  | .hostResetRelease => Sys2Proof.Machine.execHostResetRelease s
  | .systemResetRelease => Sys2Proof.Machine.execSystemResetRelease s
  | .partitionResetEnd p part lateNs => Sys2Proof.Machine.execPartitionResetEnd p part lateNs s
  | .fleetFrameDiscard port why => Sys2Proof.Machine.execFleetFrameDiscard port why s

end Sys2Proof.Machine
end

