-- ==== Sys2Proof/Machine/Tick.lean ====
section
/-! DEFINITION. One edge of the 4-ns oscillators, which every part that is powered counts (02, "Discipline of the
timebase"; 17, after R553; log entry 4). -/

namespace Sys2Proof.Machine

/-- The die unit's oscillator. -/
def Die.tick (d : Die) : Die := if d.powered then { d with u := d.u.tick } else d

/-- The aggregator's oscillator; ADMIT fences act when their instant comes (08 R324). -/
def Agg.tick (a : Agg) : Agg := if a.powered then { a with u := a.u.tick }.admitSettle else a

/-- Time passes for every part. Mark: DESIGN CHOICE (log entry 4, unsafe). -/
def State.tick (s : State) : State := { s with die := s.die.tick, agg := s.agg.tick, cru := s.cru.tick }

end Sys2Proof.Machine
end

