-- ==== Sys2Proof/WellFormed.lean ====
section
/-! DEFINITION. What of a command its operands' types do not say: access ports belong to the part (01 R46), accesses have a
size that a port carries (01 R43), ports, channels and partitions are those the part has, lists have the lengths of their
layouts. `exec` gives every command a meaning, well-formed or not: what is out of range is then ignored, refused or counted
as the rules of its registers and frames say. -/

namespace Sys2Proof

open Sys2Proof.Machine

/-- A port that the part has: a die unit has Race ports 0 and 1 (10 R388), an aggregator eight. -/
def portFits (p : Part) (port : Fin 8) : Bool :=
  match p with
  | .die => decide (port.val < 2)
  | .agg => true

/-- A size of an access (01 R43, R49; 19 R603). -/
def sizeOk (n : Nat) : Bool := n == 1 || n == 2 || n == 4 || n == 8

/-- A fence's extension is XLEN words (08 R295, R296). -/
def Fence.wf (f : Fence) : Bool := decide (f.ext.length % 4 = 0) && decide (f.ext.length ≤ 1020)

/-- Halves of the operator certificate are 120 bytes (18 R591; 16 R517). -/
def PairUp.wf (u : PairUp) : Bool := decide (u.cert.length = 120)

/-- Bytes of a chunk (16 R534). -/
def chunkOk (b : List Byte) : Bool := decide (1 ≤ b.length) && decide (b.length ≤ 216)

/-- Lanes of a runner or a result (04 R145, R157). -/
def lanesOk (l : List Lane) : Bool := decide (1 ≤ l.length) && decide (l.length ≤ 32)

/-- What a chain command says (10 R380). -/
def ChainOp.wf : ChainOp → Bool
  | .fence f => f.wf
  | .setgen _ _ => true
  | .patBegin _ _ => true
  | .patChunk _ _ b => chunkOk b
  | .patEnd _ => true
  | .pairUp u => u.wf
  | .powerFail => true
  | .wake _ => true

/-- An operator command's signature is 96 bytes, and it arrives over an access port of the aggregator (16 R539). -/
def OpCmd.wf (c : OpCmd) : Bool :=
  decide (c.sig.length = 96) && (match c.via with | .fleet _ => true | .port o => o.suits .agg)

/-- The command is one that an agent can send. -/
def Instr.wf : Instr → Bool
  | .markEdge _ => true
  | .todFrame _ _ => true
  | .holdover _ => true
  | .degraded _ => true
  | .resync p o => o.suits p
  | .ptpMessage _ => true
  | .ptpReturn => true
  | .epochFire _ => true
  | .fastEpochFire _ => true
  | .catchupFire _ => true
  | .epochSwitchArm p o => o.suits p
  | .epochSwitch _ => true
  | .epenWrite p o _ => o.suits p
  | .fastenWrite p o _ => o.suits p
  | .capArm _ => true
  | .latchClockDecision => true
  | .hostClockLoss => true
  | .snapshotLatch _ => true
  | .clkstopLatch => true
  | .triggerArm p o _ => o.suits p
  | .triggerFire _ _ => true
  | .hostoutPulseEnd _ _ => true
  | .conversionComplete _ _ => true
  | .sensorWrite _ _ _ => true
  | .liveRead o => o.suits .die
  | .imageComplete _ => true
  | .recordBuild _ => true
  | .slotRelease _ _ => true
  | .snapshotHold o _ => o.suits .die
  | .holdTimeout _ => true
  | .psiCrossing _ => true
  | .psiAck _ _ _ => true
  | .psiEnable o _ => o.suits .die
  | .runnerLaunch _ _ => true
  | .runnerWindowOpen p port _ => portFits p port
  | .runnerWindowClose p port => portFits p port
  | .runnerFold _ r => lanesOk r.lanes
  | .runnerArrival _ r => lanesOk r.lanes
  | .reductionDeadline _ => true
  | .entryFree _ => true
  | .frun _ _ r => lanesOk r.lanes
  | .srefhand _ _ _ _ _ => true
  | .phaseArr _ _ => true
  | .phaseRel _ _ => true
  | .featuresReady _ => true
  | .treeJobStart _ => true
  | .treeVerdict _ => true
  | .swapArm p o => o.suits p
  | .swapCancel p o => o.suits p
  | .weirReset p o => o.suits p
  | .treeScrub _ _ => true
  | .denseJobStart _ => true
  | .denseVerdict _ => true
  | .denseJoint _ => true
  | .denseWeirReset p o => o.suits p
  | .driftUpdate _ _ => true
  | .rebase p o => o.suits p
  | .announce _ _ => true
  | .first _ _ _ _ => true
  | .second _ _ _ _ => true
  | .third _ _ _ _ => true
  | .pendingTimeout _ => true
  | .thirdTimeout _ => true
  | .conditionSweep => true
  | .conditionClear o => o.suits .die
  | .seedWrite o _ => o.suits .die
  | .marginRequest => true
  | .marginAnswer _ => true
  | .marginTimeout => true
  | .healthRecord => true
  | .verdictDownhold => true
  | .novoteExpire => true
  | .hostFatal => true
  | .silent _ _ => true
  | .dieUnreachable _ => true
  | .fenceReceive f => f.wf
  | .fenceDone o => o.suits .die
  | .trayBeat => true
  | .trayBeatReceive _ _ _ => true
  | .partnerLost => true
  | .traysilent _ => true
  | .propose _ => true
  | .proposeRepeat _ => true
  | .proposeReceive _ _ _ => true
  | .governedExpiry _ => true
  | .decideReceive _ _ f => f.wf
  | .commitReceive _ _ _ _ => true
  | .decideResend _ => true
  | .escalateReceive _ _ f _ => f.wf
  | .relayReceive _ _ drafts => drafts.all Fence.wf
  | .fenceMessage _ _ f => f.wf
  | .fackReceive _ _ _ _ _ _ => true
  | .fenceResend _ => true
  | .groupBeat => true
  | .groupBeatReceive _ _ _ _ => true
  | .isolation _ => true
  | .quietPeriodEnd _ => true
  | .roleClaim _ => true
  | .roleClaimReceive _ _ _ _ => true
  | .roleVacant _ => true
  | .cmdReceive _ c => c.op.wf
  | .cmdret _ c => c.op.wf
  | .cmdMask _ _ _ _ => true
  | .cmdReissue _ _ => true
  | .cmdUnack _ _ => true
  | .linkDown _ => true
  | .linkDead _ => true
  | .linkUp _ => true
  | .admitStart o _ => o.suits .agg
  | .admitTestDone _ => true
  | .sweepStep => true
  | .sweepEnd => true
  | .admitLoaded o => o.suits .agg
  | .admitAbort o => o.suits .agg
  | .hangAssembly => true
  | .traygraph _ _ _ => true
  | .collectionClose => true
  | .entryq _ _ _ _ => true
  | .entryrsp _ _ _ _ => true
  | .groupgraph _ _ _ => true
  | .alarmHeldCommit => true
  | .heldEventCommit _ => true
  | .spillReadback _ => true
  | .recordSend _ _ => true
  | .recordReceive _ g => decide (g.data.length ≤ if g.cls = .alarm then 48 else 2048)
  | .journalWrite => true
  | .restartMarker _ _ _ _ => true
  | .ackSend _ => true
  | .ackReceive _ _ => true
  | .ackTimeout _ _ => true
  | .headTimeout _ => true
  | .frecSend _ => true
  | .sack _ _ => true
  | .syncrsp _ _ => true
  | .sinkTimeout _ => true
  | .syncTimeout _ => true
  | .jstate => true
  | .jstateReceive _ _ => true
  | .digest _ => true
  | .seal => true
  | .powerFailWarning => true
  | .powerfail => true
  | .flashFlush => true
  | .flushComplete => true
  | .powerFailRecovery => true
  | .hopTrain p port _ => portFits p port
  | .trainTimeout p port => portFits p port
  | .trainRetry p port => portFits p port
  | .hopUp p port => portFits p port
  | .hopDown p port _ => portFits p port
  | .creditStall p port => portFits p port
  | .hopdownReceive _ _ _ _ => true
  | .hopupReceive _ _ => true
  | .setgen _ _ => true
  | .genSwitch p port _ => portFits p port
  | .frameRelay _ _ => true
  | .creditWord p port _ _ => portFits p port
  | .beat => true
  | .portRetrain p o => o.suits p
  | .enumStart _ => true
  | .enum _ _ => true
  | .enumComplete _ _ => true
  | .enumTimeout _ => true
  | .enumAlone _ _ => true
  | .proxyAccess a => a.o.suits .agg && sizeOk a.size
  | .pxrd _ _ _ _ _ => true
  | .pxwr _ _ _ _ _ => true
  | .pxrsp _ _ _ _ => true
  | .proxyTimeout _ => true
  | .fleetPortUp _ _ _ => true
  | .fleetPortDown _ => true
  | .mkaKeyInstall _ _ _ => true
  | .macsecRekey _ => true
  | .pnExhausted _ => true
  | .gclArm o => o.suits .agg
  | .gclCancel o => o.suits .agg
  | .gclTakeover _ => true
  | .gateEntry _ => true
  | .frameStart _ => true
  | .queueSample => true
  | .traceEvent _ slots => decide (slots.length ≤ 2)
  | .blockDrain _ => true
  | .drainIdle _ => true
  | .traceRecord _ => true
  | .drainHalt => true
  | .traceResume o => o.suits .die
  | .tokenVerify o => o.suits .die
  | .tokenVerified => true
  | .tokenClear o => o.suits .die
  | .tokenExpiry => true
  | .sessionOpen o _ => o.suits .die
  | .sessionClose o => o.suits .die
  | .coreLowPower _ _ _ => true
  | .watchMatch lanes => decide (lanes.length ≤ 4)
  | .haltAck _ => true
  | .haltRelease o => o.suits .die
  | .watchEnable o _ => o.suits .die
  | .waitforSample _ => true
  | .waitforReport => true
  | .compress _ => true
  | .compressComplete _ => true
  | .compressAbandon _ => true
  | .compressFault _ _ => true
  | .frameVerify => true
  | .mbxPush p o _ => o.suits p
  | .mbxPop p o => o.suits p
  | .doorbellSet p o _ => o.suits p
  | .doorbellAck p o _ => o.suits p
  | .mbxTimeout p ch _ => decide (ch.val < mbxChans p)
  | .postevent p ch => decide (ch.val < mbxChans p)
  | .ping p ch => decide (ch.val < mbxChans p)
  | .unknownRequest p ch => decide (ch.val < mbxChans p)
  | .bucketRefill _ => true
  | .evrCfgWrite p o _ => o.suits p
  | .historyFlush _ => true
  | .evread c _ count => c.wf && decide (1 ≤ count.toNat) && decide (count.toNat ≤ 128)
  | .evclear c _ _ => c.wf
  | .memoryScrub _ _ _ _ => true
  | .eccWriteBack _ _ _ => true
  | .mergeFlush _ _ _ => true
  | .fetchTrap _ _ _ => true
  | .partitionReset p part byReg => hasPart p part.val && byReg.all fun o => o.suits p
  | .dmaResume _ _ => true
  | .ceClear p o => o.suits p
  | .flipArm p o _ => o.suits p
  | .memoryPortRead _ _ => true
  | .memoryPortDone _ _ => true
  | .loadBegin p o => o.suits p
  | .loadData p o _ => o.suits p
  | .loadEnd p o => o.suits p
  | .loadVerified _ => true
  | .loadCancel p o => o.suits p
  | .loadAbort p o => o.suits p
  | .patbegin _ _ _ => true
  | .patchunk _ _ _ bytes => chunkOk bytes
  | .patend _ _ => true
  | .fwSwap p o => o.suits p
  | .fwRevert _ => true
  | .fwCommit p o => o.suits p
  | .openGroup c g => c.wf && decide (g.trays.length < 65536) && g.trays.all fun t => decide (t.2.length = 8)
  | .teardown c g => c.wf && decide (g.trays.length < 65536) && g.trays.all fun t => decide (t.2.length = 8)
  | .setspares c _ _ => c.wf
  | .mkakey c _ _ wrapped => c.wf && decide (wrapped.length = 144)
  | .nodeovr c _ _ _ => c.wf
  | .enroll c o b => c.wf && o.suits .agg && decide (b.length = 240)
  | .keyrotate c b => c.wf && decide (b.length = 240)
  | .release c _ => c.wf
  | .attest p o => o.suits p
  | .attestReady _ => true
  | .cert p o => o.suits p
  | .secdataRead p o => o.suits p
  | .bufdataRead p o => o.suits p
  | .auditFlashWrite _ => true
  | .crucibleMark _ => true
  | .crucibleSample _ _ _ => true
  | .crucibleReading => true
  | .readingRepeat => true
  | .crlinkLive => true
  | .crlinkIdent => true
  | .logResend => true
  | .crlinkReceive _ _ => true
  | .calRead _ => true
  | .calLogRead _ => true
  | .calWrite _ _ _ => true
  | .calSeal _ => true
  | .cruciblePowerup _ _ => true
  | .cruciblePowerdown => true
  | .swcrcCheck _ => true
  | .pmRequest byReg _ => byReg.all fun o => o.suits .die
  | .powerTransitionDone => true
  | .hostoffDrain => true
  | .ladleIdle => true
  | .wake _ _ => true
  | .comparatorTrip _ _ => true
  | .comparatorClear _ _ => true
  | .comparatorEnable o _ => o.suits .die
  | .diePowerUp => true
  | .diePowerLoss => true
  | .dieUnitReset => true
  | .hostReset => true
  | .managementReset => true
  | .powerOnReset _ _ _ => true
  | .systemReset => true
  | .pcieReset => true
  | .pairhello => true
  | .pairhelloReceive _ _ => true
  | .pairTimeout => true
  | .pairup _ u => u.wf
  | .fleetJoin => true
  | .selectWrite p o _ _ => o.suits p
  | .readClear p o _ size => o.suits p && sizeOk size
  | .lowHalfRead p o _ size => o.suits p && sizeOk size
  | .registerWrite p o _ size _ => o.suits p && sizeOk size
  | .captureEdge _ => true
  | .overtemp _ => true
  | .aggregatorPowerLoss => true
  | .journalReady => true
  | .bPassEnd _ _ => true
  | .fenceRequest _ _ _ _ => true
  | .tokenInForce => true
  | .dieUnitResetRelease => true
  | .hostResetRelease => true
  | .systemResetRelease => true
  | .partitionResetEnd p part _ => hasPart p part.val
  | .fleetFrameDiscard _ _ => true

end Sys2Proof
end

