-- ==== Sys2Proof/Safety.lean ====
section
/-! DEFINITION. What a safe run is, and the words in which statements say what a command leaves: the part it acts on, that
the part runs, and the next state with what follows in the part from the change. -/

namespace Sys2Proof.Machine

/-- A step answers a next state. -/
def Safe (s : State) : Prop := ∃ t, step s = .next t

/-- Every command that waits is one that an agent can send. -/
def Sent (s : State) : Prop := ∀ c ∈ s.pending, c.wf = true

/-- What the two parts have alike, of one part. -/
def State.part (s : State) : Part → Unit
  | .die => s.die.u
  | .agg => s.agg.u

/-- A part takes commands: its supply is in range, and an aggregator's CORE partition is out of reset. -/
def State.on (s : State) : Part → Bool
  | .die => s.die.powered
  | .agg => s.agg.runs

/-- A part's supply is in range: its timebase and epochs run. -/
def State.lit (s : State) : Part → Bool
  | .die => s.die.powered
  | .agg => s.agg.powered

/-- The next state in which the die unit is `d`, with what follows in it. -/
def State.thenDie (s : State) (d : Die) : Answer := .next { s with die := Die.settle s.die d }

/-- The next state in which the aggregator is `a`, with what follows in it. -/
def State.thenAgg (s : State) (a : Agg) : Answer := .next { s with agg := Agg.settle s.agg a }

/-- The next state in which what the parts have alike is `u` in one part, with what follows in it. -/
def State.thenUnit (s : State) (p : Part) (u : Unit) : Answer :=
  match p with
  | .die => s.thenDie { s.die with u := u }
  | .agg => s.thenAgg { s.agg with u := u }

/-- The next state after an operation of a part's timebase and the actions of the trigger channels that it fired. -/
def State.thenTimed (s : State) (p : Part) (r : Unit × List TrigAct) : Answer :=
  match p with
  | .die => s.thenDie (s.die.acts r)
  | .agg => s.thenAgg (s.agg.timed r)

/-- The next state in which the Crucible is `c`. -/
def State.thenCru (s : State) (c : Cru) : Answer := .next { s with cru := c }

/-- A write of the register at `ofs`, past every check of its access port, its island and its lock, reaches it. -/
def Die.takes (d : Die) (o : Origin) (ofs : Nat) : Bool :=
  d.powered && o.suits .die && !o.refused && d.lit ofs
    && (match regRow? ofs with | some r => r.die && !d.u.locked ofs (d.u.instOf o r ofs) | none => false)

/-- The same at an aggregator. -/
def Agg.takes (a : Agg) (o : Origin) (ofs : Nat) : Bool :=
  a.runs && o.suits .agg
    && (match regRow? ofs with | some r => r.agg && !a.locked ofs (a.u.instOf o r ofs) | none => false)

/-- A write of the register at `ofs` of a part, past every check, reaches it. -/
def State.takes (s : State) (p : Part) (o : Origin) (ofs : Nat) : Bool :=
  match p with
  | .die => s.die.takes o ofs
  | .agg => s.agg.takes o ofs

/-- The operator command that a row brings: its sender, OPC, arguments (16 R541). -/
def opOf : Instr → Option (OpCmd × Nat × List Byte)
  | .openGroup c g => some (c, 1, wgArgs g)
  | .teardown c g => some (c, 2, wgArgs g)
  | .setspares c g n => some (c, 3, leBytes 1 g.toNat ++ zeros 1 ++ leBytes 2 n.toNat)
  | .evread c f n => some (c, 0x10, leBytes 4 f.toNat ++ leBytes 2 n.toNat ++ zeros 2)
  | .evclear c r h => some (c, 0x11, leBytes 1 (b2n r + 2 * b2n h) ++ zeros 3)
  | .mkakey c m k w => some (c, 0x20, leBytes 1 m.toNat ++ zeros 3 ++ leBytes 16 k.toNat ++ w)
  | .nodeovr c d g t => some (c, 0x21, leBytes 16 d.toNat ++ leBytes 1 g.toNat ++ leBytes 1 t.toNat ++ zeros 2)
  | .enroll c o x => some ({ c with via := .port o }, 0x30, x)
  | .keyrotate c x => some (c, 0x31, x)
  | .release c d => some (c, 0x32, leBytes 16 d.toNat)
  | _ => none

/-- The operator command of a row reaches the aggregator over the access port `o`, and RESULT of its checks is `code`
(16 R539, R540). -/
def State.opAt (s : State) (i : Instr) (o : Origin) (code : Nat) : Prop :=
  s.agg.runs = true ∧ s.agg.u.inReset 5 = false ∧ o.suits .agg = true ∧
    ∃ c n x, opOf i = some (c, n, x) ∧ c.via = .port o ∧ s.agg.u.opCode (c.bytes n x) s.agg.opNames (!o.sideK) = code

/-- A fleet frame reaches the aggregator: it runs, the fleet port is up, the aggregator accepts its DEST, and the frame is
not one of its own address (01 R24, R26; 11 R396). -/
def State.hears (s : State) (i : FleetIn) : Bool :=
  s.agg.runs && s.agg.portUp i.port.val && s.agg.accepts i.dest
    && !(!i.col && s.agg.u.nodeOk && decide (addrEff i.orig = s.agg.u.node))

/-- The aggregator with the frame counted. -/
def Agg.received (a : Agg) (i : FleetIn) : Agg := a.arrive i id

/-- The same for a message that carries addresses (01 R26). -/
def Agg.receivedVote (a : Agg) (i : FleetIn) (l : List Node) : Agg := a.arriveVote i l id

/-- A unit without the books that a record, an event or an audit entry makes: streams, recorder, trail, compression
engine, registers, outputs, free values drawn. -/
def Unit.bare (u : Unit) : Unit :=
  { u with regs := [], out := [], fresh := 0, recs := records0, evr := recorder0, aud := audit0, flm := flume0 }

/-- What holds of the Crucible throughout: the log within its 1,024 entries, eight parameters and each within its range,
BROKEN only beside SEAL (17 R561-R563). -/
def Cru.Inv (c : Cru) : Prop :=
  c.log.length ≤ 1024 ∧ c.pars.length = 8 ∧ (∀ p, p < 6 → parOk p (c.par p) = true) ∧ (c.broken = true → c.sealed = true)

/-- Registers that a record, an event or an audit entry changes (09 R338; 14 R483; 16 R545; 18 R597). -/
def noteRegs : List Nat :=
  [Reg.glbIrqstat, Reg.recErr, Reg.recRefcnt, Reg.evrAtCnt, Reg.evrAtSupp, Reg.evrSuppcnt, Reg.evrErr, Reg.audLostcnt,
   Reg.audErr]

/-- `y` is `x` with records, events and audit entries made, and nothing else changed. -/
def Unit.Noted (x y : Unit) : Prop :=
  y.bare = x.bare ∧ ∀ ofs inst, ofs < 2 ^ 25 → ofs ∉ noteRegs → y.rd ofs inst = x.rd ofs inst

/-- `y` is the die unit `x` with records, events and audit entries made, and nothing else changed. -/
def Die.Noted (x y : Die) : Prop := y = { x with u := y.u } ∧ x.u.Noted y.u

/-- The same of aggregators. -/
def Agg.Noted (x y : Agg) : Prop := y = { x with u := y.u } ∧ x.u.Noted y.u

end Sys2Proof.Machine
end

