-- ==== Sys2Proof/Certificates/Slice0/Obligations.lean ====
section
/-! DEFINITION. The statements about the block, by family of commands. A clause `exec c s = s.thenDie d` (or `thenUnit`,
`thenAgg`, `thenCru`) says that the command completes, with the whole state after it: the other parts and the queue as before,
and in the part the change given and what follows from it (`Die.settle`, `Agg.settle`). -/

open Sys2Proof Sys2Proof.Machine

/-- 02 R57-R60: marks and time-of-day frames. 02 R65-R73: epochs fire at their instants, and those that a step passed
one by one. -/
def Obligations.MarksAndEpochs : Prop :=
  (∀ (p : Part) (s : State) (t n : Nat), s.lit p = true → (s.part p).tb.tq = 5 → (s.part p).tb.next = some (t, n) → 1 < n →
    exec (.markEdge p) s = s.thenUnit p { s.part p with tb := { (s.part p).tb with next := some (t, n - 1) } })
  ∧ (∀ (p : Part) (s : State) (t n : Nat), s.lit p = true → (s.part p).tb.tq = 5 → (s.part p).tb.next = some (t, n) → n ≤ 1 →
    exec (.markEdge p) s = s.thenUnit p { s.part p with tb := { (s.part p).tb with
      now := t, sub := 0, next := none, tq := 4, good := 0, bad := 0, markAt := t, lastMark := some (s.part p).clk } })
  ∧ (∀ (p : Part) (s : State), s.lit p = true → (s.part p).tb.tq ≠ 5 → withinNs (phaseErr (s.part p).tb.now) 200 = true →
    ∃ u, exec (.markEdge p) s = s.thenUnit p u ∧ u.tb.bad = 0 ∧ u.tb.lastMark = some (s.part p).clk
      ∧ u.tb.good = if withinNs (if (s.part p).tb.tq = 3 then phaseErr (s.part p).tb.now - (s.part p).tb.lastPe
          else phaseErr (s.part p).tb.now) 2 then min ((s.part p).tb.good + 1) 64 else 0)
  ∧ (∀ (p : Part) (s : State), s.lit p = true → (s.part p).tb.tq ≠ 5 → withinNs (phaseErr (s.part p).tb.now) 200 = false →
    ((s.part p).tb.tq = 3 ∨ (s.part p).tb.bad < 3) →
    ∃ u, exec (.markEdge p) s = s.thenUnit p u ∧ u.tb.now = (s.part p).tb.now
      ∧ ((s.part p).tb.tq ≠ 3 → u.tb.bad = (s.part p).tb.bad + 1 ∧ u.tb.good = 0) ∧ u.tb.tq = (s.part p).tb.tq ∧ u.bit Reg.timErr 2 = true
      ∧ u.rd Reg.timOutlier = satInc ((s.part p).rd Reg.timOutlier))
  ∧ (∀ (p : Part) (s : State) (f : BitVec 128), s.lit p = true →
    (crc32c (leBytes 10 (bitsOf f.toNat 87 8))).toNat ≠ bitsOf f.toNat 119 88 →
    exec (.todFrame p f) s = s.thenUnit p ((s.part p).err Reg.timErr 0))
  ∧ (∀ (p : Part) (s : State) (f : BitVec 128), s.lit p = true → (s.part p).tb.tq = 5 → (s.part p).tb.next = none →
    (crc32c (leBytes 10 (bitsOf f.toNat 87 8))).toNat = bitsOf f.toNat 119 88 → bitsOf f.toNat 7 0 = 0x7E →
    ∃ u, exec (.todFrame p f) s = s.thenUnit p u ∧ u.tb.next = some (bitsOf f.toNat 87 8, 896)
      ∧ u.tb.qual = some (bitsOf f.toNat 127 120) ∧ u.tb.now = (s.part p).tb.now ∧ u.tb.tq = 5)
  ∧ (∀ (p : Part) (s : State) (x : Machine.Unit), s.lit p = true → (s.part p).epSwitch = x → x.epochsFire = true →
    x.ep.catchTo = none → instantOf x.nextMain ≤ x.tb.now →
    ∃ u, exec (.epochFire p) s = s.thenUnit p u ∧ u.ep.um = x.nextMain ∧ u.tb = (s.part p).tb
      ∧ u.ep.lastMain = if x.bit Reg.timCtrl 0 then x.nextMain / x.epu else x.ep.lastMain)
  ∧ (∀ (p : Part) (s : State) (x : Machine.Unit), s.lit p = true → (s.part p).epSwitch = x → x.epochsFire = true →
    x.ep.catchTo = none → x.bit Reg.timCtrl 1 = true → instantOf x.nextFast ≤ x.tb.now →
    ∃ u, exec (.fastEpochFire p) s = s.thenUnit p u ∧ u.ep.uf = x.nextFast ∧ u.tb = (s.part p).tb
      ∧ u.ep.lastFast = x.nextFast / x.epfu)
  ∧ (∀ (p : Part) (s : State) (lim t : Nat), s.lit p = true → (s.part p).ep.catchTo = some lim →
    (s.part p).ep.catchClk ≤ (s.part p).clk → (s.part p).dueAt lim = some t →
    ∃ r, exec (.catchupFire p) s = s.thenTimed p r ∧ r.1.ep.catchClk = (s.part p).clk + 250
      ∧ r.2 = ((s.part p).fireAt t).2)
  ∧ (∀ (p : Part) (s : State) (lim : Nat), s.lit p = true → (s.part p).ep.catchTo = some lim →
    (s.part p).ep.catchClk ≤ (s.part p).clk → (s.part p).dueAt lim = none →
    exec (.catchupFire p) s = s.thenUnit p { s.part p with ep := { (s.part p).ep with catchTo := none } })
  ∧ (∀ (p : Part) (s : State) (v nu nf : Nat), s.lit p = true → (s.part p).ep.pend = some (v, nu, nf) →
    instantOf v ≤ (s.part p).tb.now → ((s.part p).epochsFire = false ∨ v ≤ (s.part p).ep.um) →
    ∃ u, exec (.epochSwitch p) s = s.thenUnit p u ∧ u.ep = { (s.part p).ep with pend := none }
      ∧ u.rdN Reg.timEp = nu % 2 ^ 32 ∧ u.rdN Reg.timEpf = nf % 2 ^ 32)

/-- 02 R57, R64: the states of a timebase without marks, and the return from PTP. -/
def Obligations.HoldoverAndPtp : Prop :=
(∀ (p : Part) (s : State) (c : Nat), s.lit p = true → (s.part p).tb.tq = 0 → (s.part p).tb.lastMark = some c →
    954 ≤ (s.part p).clk - c →
    exec (.holdover p) s = s.thenUnit p { s.part p with tb := { (s.part p).tb with
      tq := 1, holdSince := (s.part p).clk, good := 0 } })
  ∧ (∀ (p : Part) (s : State), s.lit p = true → (s.part p).tb.tq = 1 → 2500000 < (s.part p).clk - (s.part p).tb.holdSince →
    exec (.degraded p) s = s.thenUnit p { s.part p with tb := { (s.part p).tb with tq := 2 } })
  ∧ (∀ (s : State) (c : Nat), s.agg.powered = true → s.agg.u.tb.tq = 3 → s.agg.u.tb.ptp.portSince = some c →
    250000000 ≤ s.agg.u.clk - c → s.agg.u.tb.mism = none → withinNs s.agg.u.tb.lastPe 200 = true →
    ∃ u, exec .ptpReturn s = s.thenUnit .agg u ∧ u.tb.tq = 0 ∧ u.ep.started = true)
  ∧ (∀ (s : State) (c : Nat) (d : Int), s.agg.powered = true → s.agg.u.tb.tq = 3 → s.agg.u.tb.ptp.portSince = some c →
    250000000 ≤ s.agg.u.clk - c →
    (s.agg.u.tb.mism = some d ∨ (s.agg.u.tb.mism = none ∧ withinNs s.agg.u.tb.lastPe 200 = false ∧ d = -s.agg.u.tb.lastPe)) →
    exec .ptpReturn s = s.thenTimed .agg ((s.agg.u.setTq 0).stepTime d))
  ∧ (∀ (s : State) (port : Fin 8) (dom : Byte) (rank : Nat), s.agg.runs = true → s.agg.u.inReset 5 = false → s.agg.portUp port = true →
    s.agg.u.bit Reg.timPtpcfg (8 + port) = true → s.agg.u.fld Reg.timPtpcfg 7 0 = dom.toNat → s.agg.u.tb.ptp.master = none →
    exec (.ptpMessage (.announce port dom true rank)) s = s.thenAgg (s.agg.onU fun u => { u with tb := { u.tb with
      ptp := { u.tb.ptp with master := some (port.val, rank) } } }).ptpRequest)
  ∧ (∀ (s : State) (port : Fin 8) (dom : Byte) (sec : BitVec 48) (ns : Word) (r t2 : Nat) (two : Bool), s.agg.runs = true →
    s.agg.u.inReset 5 = false → t2 = ((s.agg.u.tb.now : Int) - tslat (s.agg.u.fld Reg.fltAtTslat 31 16 port)).toNat →
    s.agg.portUp port = true → s.agg.u.bit Reg.timPtpcfg (8 + port) = true → s.agg.u.fld Reg.timPtpcfg 7 0 = dom.toNat →
    s.agg.u.tb.ptp.master = some (port.val, r) →
    exec (.ptpMessage (.sync port dom two sec ns)) s =
      s.thenAgg (s.agg.onU fun u => if two then { u with tb := { u.tb with ptp := { u.tb.ptp with t2 := some (port.val, t2) } } }
        else u.ptpSync port (ptpTime sec ns) t2).ptpRequest)
  ∧ (∀ (s : State) (port : Fin 8) (dom : Byte) (sec : BitVec 48) (ns : Word) (t3 r : Nat), s.agg.runs = true →
    s.agg.u.inReset 5 = false →
    s.agg.portUp port = true → s.agg.u.bit Reg.timPtpcfg (8 + port) = true → s.agg.u.fld Reg.timPtpcfg 7 0 = dom.toNat →
    s.agg.u.tb.ptp.master = some (port.val, r) → s.agg.u.tb.ptp.t3 = some t3 →
    exec (.ptpMessage (.delayResp port dom sec ns)) s = s.thenAgg (s.agg.onU fun u => { u with tb := { u.tb with
      ptp := { u.tb.ptp with
        t3 := none, delay := Int.fdiv (u.tb.ptp.d21 + ((ptpTime sec ns : Int) - (t3 : Int))) 2 } } }).ptpRequest)

/-- 02 R69-R71, R74, R84, R90: the writes of TIM registers that command. 02 R81-R84, R91, R92: the general trigger
channels. -/
def Obligations.TimeWritesAndTriggers : Prop :=
  (∀ (p : Part) (o : Origin) (s : State) (d : Int), s.takes p o Reg.timCtrl = true → (s.part p).tb.refused = some d →
    ∃ u : Machine.Unit, u.bare = (s.part p).bare ∧ exec (.resync p o) s = s.thenTimed p u.resync
      ∧ u.resync.1.tb.now = wrapN 80 ((s.part p).tb.now + d) ∧ u.resync.1.tb.refused = none)
  ∧ (∀ (p : Part) (o : Origin) (s : State) (on : Bool), s.takes p o Reg.timCtrl = true →
    ∃ u, exec (.epenWrite p o on) s = s.thenUnit p u ∧ u.bit Reg.timCtrl 0 = on ∧ u.ep = (s.part p).epochFire.ep
      ∧ u.tb = (s.part p).tb
      ∧ u.bit Reg.timCtrl 1 = (s.part p).bit Reg.timCtrl 1)
  ∧ (∀ (p : Part) (o : Origin) (s : State) (on : Bool), s.takes p o Reg.timCtrl = true →
    ∃ u, exec (.fastenWrite p o on) s = s.thenUnit p u ∧ u.bit Reg.timCtrl 1 = on ∧ u.tb = (s.part p).tb
      ∧ u.bit Reg.timCtrl 0 = (s.part p).bit Reg.timCtrl 0
      ∧ u.ep.uf = if !on then (s.part p).fastFire.ep.uf
          else if (s.part p).bit Reg.timCtrl 1 then (s.part p).ep.uf else max (s.part p).ep.uf (uOf (s.part p).tb.now))
  ∧ (∀ (p : Part) (o : Origin) (s : State) (nu nf : Nat), s.takes p o Reg.timEpswctl = true →
    (s.part p).fld Reg.timEpnext 16 0 = nu → (s.part p).fld Reg.timEpfnext 16 0 = nf → 1 ≤ nf → 1 ≤ nu → nu ≤ 100000 → nf ≤ 100000 →
    nu % nf = 0 →
    ∃ u v, exec (.epochSwitchArm p o) s = s.thenUnit p u ∧ u.ep = { (s.part p).ep with pend := some (v, nu, nf) }
      ∧ u.tb = (s.part p).tb ∧ v % nu = 0 ∧ v % (s.part p).epu = 0)
  ∧ (∀ (p : Part) (o : Origin) (s : State), s.takes p o Reg.timEpswctl = true → (s.part p).fld Reg.timEpnext 16 0 = 0 →
    ∃ u, exec (.epochSwitchArm p o) s = s.thenUnit p u ∧ u.bare = (s.part p).bare ∧ u.bit Reg.timErr 5 = true)
  ∧ (∀ (p : Part) (o : Origin) (s : State) (ch : Nat), s.takes p o Reg.timAtArm = true → (s.part p).selOf Reg.timSel o = ch →
    2 ≤ ch → (s.part p).chMode ch < 5 → 2 ≤ (s.part p).fld Reg.timAtCfg 7 4 ch → (s.part p).fld Reg.timAtCfg 7 4 ch < 5 →
    ((s.part p).chMode ch = 3 → (s.part p).fld Reg.timAtOfs 29 0 ch < (s.part p).fld Reg.timAtPeru 16 0 ch * 10000) →
    ((s.part p).chMode ch = 4 → (s.part p).tb.now + nsUp 1000 ≤ (s.part p).chAt ch) →
    ∃ u, exec (.triggerArm p o true) s = s.thenUnit p u ∧ u.rd Reg.timAtArm ch = 1 ∧ u.chDone ch = (s.part p).tb.now
      ∧ u.tb = (s.part p).tb ∧ u.ep = (s.part p).ep)
  ∧ (∀ (p : Part) (o : Origin) (s : State) (ch : Nat), s.takes p o Reg.timAtArm = true → (s.part p).selOf Reg.timSel o = ch →
    2 ≤ ch → (∀ t, (s.part p).chNext ch = some t → (s.part p).tb.now < t ∨ (s.part p).ep.catchTo ≠ none) →
    ∃ u, exec (.triggerArm p o false) s = s.thenUnit p u ∧ u.rd Reg.timAtArm ch = 0 ∧ u.bare = (s.part p).bare)
  ∧ (∀ (p : Part) (o : Origin) (s : State) (ch t : Nat), s.takes p o Reg.timAtArm = true → (s.part p).selOf Reg.timSel o = ch →
    2 ≤ ch → ch < 16 → (s.part p).chNext ch = some t → t ≤ (s.part p).tb.now → (s.part p).ep.catchTo = none →
    ((s.part p).chFire ch t false).2 = [] →
    ∃ u, exec (.triggerArm p o false) s = s.thenUnit p u ∧ u.rd Reg.timAtArm ch = 0
      ∧ u.rdN Reg.timAtFirecnt ch = ((s.part p).rdN Reg.timAtFirecnt ch + 1) % 2 ^ 32)
  ∧ (∀ (p : Part) (s : State) (ch : Fin 16) (t : Nat), s.lit p = true → (s.part p).chNext ch = some t →
    t ≤ (s.part p).tb.now → (s.part p).ep.catchTo = none → (s.part p).epochDue t = false →
    (∀ k x, k < ch.val → (s.part p).chNext k = some x → t < x) →
    exec (.triggerFire p ch) s = s.thenTimed p ((s.part p).chFire ch t false)
      ∧ ((s.part p).chFire ch t false).1.rdN Reg.timAtFirecnt ch = ((s.part p).rdN Reg.timAtFirecnt ch + 1) % 2 ^ 32)
  ∧ (∀ (p : Part) (s : State) (ch : Fin 16), s.lit p = true →
    ∃ u, exec (.hostoutPulseEnd p ch) s = s.thenUnit p u
      ∧ u.trg.pulse = (s.part p).trg.pulse.filter (fun (q : Nat × Nat) => !(q.1 / 8 == ch.val && decide (q.2 ≤ (s.part p).clk)))
      ∧ u.out = (s.part p).out ++ (((s.part p).trg.pulse.filter fun (q : Nat × Nat) => (q.1 / 8 == ch.val && decide (q.2 ≤ (s.part p).clk)))
          |>.filter fun q => !u.lineHigh (q.1 % 8)).map fun (q : Nat × Nat) => Out.pin (.trigOut (q.1 % 8)) 0)

/-- 02 R75-R80; 03 R94, R106: the latch and what goes before it. -/
def Obligations.SnapshotLatch : Prop :=
(∀ (s : State) (fast : Bool) (n t : Nat), s.die.powered = true → s.die.u.capRuns = true → s.die.armNext fast = (n, t) →
    t ≤ s.die.u.tb.now + 2 ^ 32 / 500000 →
    exec (.capArm fast) s = s.thenDie { s.die with cap := { s.die.cap with
      armMain := if fast then s.die.cap.armMain else some (n, t), armFast := if fast then some (n, t) else s.die.cap.armFast } })
  ∧ (∀ (s : State) (fast : Bool) (n t : Nat), s.die.powered = true → s.die.armNext fast = (n, t) →
    s.die.u.tb.now + 2 ^ 32 / 500000 < t → exec (.capArm fast) s = s.thenDie s.die)
  ∧ (∀ s : State, s.die.powered = true → s.die.u.capRuns = true →
    exec .latchClockDecision s = s.thenDie { s.die with cap := { s.die.cap with aon := some s.die.cap.loss } })
  ∧ (∀ s : State, s.die.powered = true → s.die.u.capRuns = true →
    exec .hostClockLoss s = s.thenDie { s.die with cap := { s.die.cap with loss := true } })
  ∧ (∀ (s : State) (ofs : Int) (f : Fired) (l : List Fired) (n : Nat), s.die.powered = true → s.die.u.capRuns = true →
    s.die.u.ep.fired = f :: l → f.main = some n → f.step = true ∨ s.die.cap.armedFor f.time = true → s.die.cap.aon ≠ some true →
    ∃ d, exec (.snapshotLatch ofs) s = s.thenDie d ∧ d.cap.latMain.map Latched.epn = some n
      ∧ d.cap.latMain.map Latched.clkstop = some false ∧ d.cap.edgeMain = 0 ∧ d.cap.edgeFast = 0
      ∧ d.cap.armMain = s.die.cap.armMain.filter (fun (x : Nat × Nat) => decide (f.time < x.2))
      ∧ ∀ j, j < 64 → d.cap.pctr j = (s.die.cap.pctr j).take.1)
  ∧ (∀ (s : State) (ofs : Int) (f : Fired) (l : List Fired) (n : Nat), s.die.powered = true → s.die.u.capRuns = true →
    s.die.u.ep.fired = f :: l → f.main = some n → f.step = true ∨ s.die.cap.armedFor f.time = true → s.die.cap.aon = some true →
    ∃ d, exec (.snapshotLatch ofs) s = s.thenDie d ∧ d.cap.latMain.map Latched.epn = some n
      ∧ d.cap.latMain.map Latched.clkstop = some true ∧ d.cap.waitTaps = [])
  ∧ (∀ (s : State) (ofs : Int) (f : Fired) (l : List Fired) (n : Nat), s.die.powered = true → s.die.u.capRuns = true →
    s.die.u.ep.fired = f :: l → f.main = none → f.fast = some n → f.step = true ∨ s.die.cap.armedFor f.time = true →
    s.die.cap.aon ≠ some true →
    ∃ d, exec (.snapshotLatch ofs) s = s.thenDie d ∧ d.cap.latFast.map Latched.epn = some n
      ∧ d.cap.latMain = s.die.cap.latMain ∧ d.cap.edgeMain = s.die.cap.edgeMain ∧ d.cap.edgeFast = 0
      ∧ d.cap.armFast = s.die.cap.armFast.filter (fun (x : Nat × Nat) => decide (f.time < x.2)))
  ∧ (∀ (s : State) (f : Fired) (l : List Fired) (n : Nat), s.die.powered = true → s.die.u.capRuns = true →
    s.die.u.ep.fired = f :: l → f.main = some n → f.step = true ∨ s.die.cap.armedFor f.time = true → s.die.cap.aon ≠ some true →
    s.die.clockStopped f = true →
    ∃ d, exec .clkstopLatch s = s.thenDie d ∧ d.cap.latMain.map Latched.epn = some n
      ∧ d.cap.latMain.map Latched.clkstop = some true ∧ d.cap.edgeMain = 0)
  ∧ (∀ c : Counter, c.wrap = 0 → c.raw < 2 ^ 48 → c.prev < 2 ^ 48 →
    c.take.1 = ⟨c.raw, c.raw, (c.cum + (c.raw + 2 ^ 48 - c.prev) % 2 ^ 48) % 2 ^ 64, 0⟩)

/-- 03 R95-R103: counting, the sensor channels, the live view. 03 R123-R125: performance sampling. -/
def Obligations.TapsAndSensors : Prop :=
  (∀ (s : State) (t : Taps), s.die.powered = true → s.die.u.capRuns = true → s.die.cap.aon ≠ some true →
    ∃ d, exec (.captureEdge t) s = s.thenDie d ∧ d = { s.die with cap := d.cap } ∧ d.cap.prev = t.lines.map BitVec.toNat
      ∧ d.cap.edgeMain = s.die.cap.edgeMain + 1 ∧ d.cap.edgeFast = s.die.cap.edgeFast + 1 ∧ d.cap.loss = false)
  ∧ (∀ (s : State) (t : Taps), s.die.powered = true → s.die.u.capRuns = true → s.die.cap.aon = some true →
    ∃ d w, exec (.captureEdge t) s = s.thenDie d ∧ d = { s.die with cap := d.cap } ∧ d.cap.loss = false
      ∧ d.cap.waitTaps = w ++ [(s.die.u.clk, t)] ∧ ∀ x ∈ w, x ∈ s.die.cap.waitTaps ∧ s.die.u.clk ≤ x.1 + 1)
  ∧ (∀ (s : State) (t : Taps) (j : Fin 64) (x : BitVec 16), s.die.powered = true → s.die.u.capRuns = true →
    s.die.cap.aon ≠ some true →
    t.prod = [(j, x)] → j.val < 28 →
    ∃ d, exec (.captureEdge t) s = s.thenDie d ∧ d.cap.pctr j = (s.die.cap.pctr j).add x.toNat)
  ∧ (∀ (s : State) (ch : Fin 224) (v : Word), s.die.powered = true → s.die.u.capRuns = true → (s.die.sensor ch).conv.isSome = true →
    ∃ fr, exec (.conversionComplete ch v) s = s.thenDie { s.die with cap := { s.die.cap with
      fresh := fr, sens := Tab.put ch.val ⟨v, fieldOf (tapSensor (s.die.u.sec 1) ch) 11 8, some s.die.u.clk, none⟩ s.die.cap.sens } })
  ∧ (∀ (s : State) (ch : BitVec 8) (fmt : Nat) (v : Word), s.die.powered = true → s.die.u.capRuns = true → 224 ≤ ch.toNat →
    fmt ≤ 1 → (fmt = 0 → fieldOf v 31 16 = 0) →
    ∃ fr, exec (.sensorWrite ch fmt v) s = s.thenDie { s.die with cap := { s.die.cap with
      fresh := fr, sens := Tab.put ch.toNat ⟨v, 3 + fmt, some s.die.u.clk, none⟩ s.die.cap.sens } })
  ∧ (∀ (s : State) (ch : BitVec 8) (fmt : Nat) (v : Word), s.die.powered = true → s.die.u.capRuns = true → ch.toNat < 224 →
    exec (.sensorWrite ch fmt v) s = s.thenUnit .die ((s.die.u.count Reg.capSenserr).err Reg.capErr 4))
  ∧ (∀ (s : State) (o : Origin), s.die.powered = true → o.suits .die = true → o.refused = false →
    s.die.lit Reg.capAtLivel = true →
    ∃ u, exec (.liveRead o) s = s.thenUnit .die u
      ∧ u.resp = BitVec.ofNat 64 ((s.die.live (s.die.u.selOf Reg.capSel o)).1 % 2 ^ 32)
      ∧ Tab.find (regKey Reg.capAtLiveh (s.die.u.selOf Reg.capSel o)) u.latch
          = some (BitVec.ofNat 32 (s.die.live (s.die.u.selOf Reg.capSel o)).2))
  ∧ (∀ (s : State) (c : BitVec 11) (n : Int), s.die.powered = true → s.die.u.capRuns = true →
    Tab.find c.toNat s.die.cap.psi = some n → n ≤ 0 → s.die.u.rdN Reg.capAtPsiper c.toNat ≠ 0 →
    s.die.cap.coreQ (s.die.u.fld Reg.capAtPsicfg 5 1 c.toNat) = [] →
    (∀ q ∈ s.die.cap.psiQ, ∀ r ∈ q.2, r.ctr ≠ c.toNat) →
    ∃ d, exec (.psiCrossing c) s = s.thenDie d
      ∧ d.cap.psi = Tab.put c.toNat (n + (s.die.u.rdN Reg.capAtPsiper c.toNat : Int)) s.die.cap.psi
      ∧ d.cap.coreQ (s.die.u.fld Reg.capAtPsicfg 5 1 c.toNat) = [⟨c.toNat, s.die.u.tb.now, s.die.u.tb.tq⟩]
      ∧ d.u = s.die.u.emit (.pin (.psiReq (s.die.u.fld Reg.capAtPsicfg 5 1 c.toNat)) 1))
  ∧ (∀ (s : State) (core : Fin 32) (skid : BitVec 16) (addr : BitVec 64) (r : SampReq), s.die.powered = true →
    s.die.u.capRuns = true → s.die.cap.coreQ core = [r] → skid.toNat ≤ 32 →
    exec (.psiAck core skid addr) s = s.thenDie { s.die with
      cap := { s.die.cap with psiQ := Tab.del core.val s.die.cap.psiQ }
      u := (s.die.u.emit (.pin (.psiReq core) 0)).submit ⟨0x03, 16 * b2n (decide (skid.toNat > 0)), .record, r.time, r.tq,
        leBytes 2 r.ctr ++ leBytes 1 core ++ zeros 1 ++ leBytes 4 skid.toNat ++ leBytes 8 addr.toNat, none⟩ })
  ∧ (∀ (s : State) (o : Origin) (v : Word) (i : Nat), s.die.takes o Reg.capAtPsicfg = true → s.die.u.selOf Reg.capSel o = i →
    i < 2048 → bitAt v 0 = true → Tab.find i s.die.cap.psi = none → s.die.cap.sampling < 64 →
    ∃ d, exec (.psiEnable o v) s = s.thenDie d ∧ d.u.rdN Reg.capAtPsicfg i = v.toNat % 64
      ∧ d.cap = { s.die.cap with psi := Tab.put i (s.die.u.rdN Reg.capAtPsiper i : Int) s.die.cap.psi })
  ∧ (∀ (s : State) (o : Origin) (v : Word) (i : Nat), s.die.takes o Reg.capAtPsicfg = true → s.die.u.selOf Reg.capSel o = i →
    i < 2048 → bitAt v 0 = true → Tab.find i s.die.cap.psi = none → 64 ≤ s.die.cap.sampling →
    ∃ d, exec (.psiEnable o v) s = s.thenDie d ∧ d.cap = s.die.cap ∧ d.u.bit Reg.capErr 2 = true)

/-- 03 R114-R119: images, their records, holds. -/
def Obligations.SnapshotImages : Prop :=
(∀ (s : State) (fast : Bool) (k : Nat) (x : Slot), s.die.powered = true → s.die.u.capRuns = true →
    (s.die.cap.pick fast fun y => y.state == 1) = some (k, x) → (fast = true ∨ s.die.cap.fastFirst x = false) →
    ∃ d, exec (.imageComplete fast) s = s.thenDie d ∧ Tab.find k d.cap.slots = some { x with state := 2 }
      ∧ (if fast then d.cap.latestFast else d.cap.latestMain) = some k
      ∧ d.u.rdN Reg.snpWrcnt = x.img.head.seq % 2 ^ 32)
  ∧ (∀ (s : State) (fast : Bool) (k : Nat) (x : Slot), s.die.powered = true → s.die.u.capRuns = true →
    (s.die.cap.pick fast fun y => y.state == 2 && !y.built) = some (k, x) → s.die.u.bit Reg.rasDmastat 0 = false →
    ∃ d b, exec (.recordBuild fast) s = s.thenDie d
      ∧ b = (s.die.cap.pick fast fun y => y.state == 3 && y.lay == x.lay).map (fun (p : Nat × Slot) => p.2.img)
      ∧ (k, { x with state := 3, built := true }) ∈ d.cap.slots
      ∧ d.u = s.die.u.submit ⟨if fast then 2 else 1, 2 * b2n (x.img.head.status.testBit 0), .record, x.img.head.time,
          x.img.head.tq, (x.img.items.map (itemBytes x.img b)).flatten, none⟩)
  ∧ (∀ (s : State) (slot sub : Fin 16) (x : Slot), s.die.powered = true → s.die.u.capRuns = true →
    Tab.find (16 * slot.val + sub.val) s.die.cap.slots = some x → x.built = true → x.state = 2 →
    s.die.reading x = false →
    s.die.u.bit Reg.snpHold slot = false →
    exec (.slotRelease slot sub) s = s.thenDie { s.die with cap := { s.die.cap with
      slots := Tab.del (16 * slot.val + sub.val) s.die.cap.slots } })
  ∧ (∀ (s : State) (o : Origin) (m : BitVec 16), s.die.takes o Reg.snpHold = true → popCount m.toNat 16 ≤ 4 →
    ∃ d, exec (.snapshotHold o m) s = s.thenDie d ∧ d.u.rdN Reg.snpHold = m.toNat)
  ∧ (∀ (s : State) (o : Origin) (m : BitVec 16), s.die.takes o Reg.snpHold = true → 4 < popCount m.toNat 16 →
    ∃ d, exec (.snapshotHold o m) s = s.thenDie d ∧ d.cap = s.die.cap ∧ d.u.bit Reg.snpErr 2 = true
      ∧ d.u.rd Reg.snpHold = s.die.u.rd Reg.snpHold
      ∧ d.u.rd Reg.glbAccerr = satInc (s.die.u.rd Reg.glbAccerr))
  ∧ (∀ (s : State) (slot : Fin 16) (c : Nat), s.die.powered = true → Tab.find slot.val s.die.cap.holds = some c →
    s.die.u.bit Reg.snpHold slot = true → msT (s.die.u.fld Reg.snpHoldto 15 0) ≤ s.die.u.clk - c →
    ∃ d, exec (.holdTimeout slot) s = s.thenDie d ∧ d.u.bit Reg.snpHold slot = false ∧ d.u.bit Reg.snpErr 1 = true
      ∧ d.cap = { s.die.cap with holds := Tab.del slot.val s.die.cap.holds })

/-- 04 R148-R150, R382: launches and runner windows. 04 R157, R160, R162, R163: upward results, the straggler
reference, phase times. -/
def Obligations.RunnerLaunchAndResults : Prop :=
  (∀ (s : State) (plan : Fin 64) (port : Fin 8) (p : Plan) (e : AggEpoch) (ta : Nat) (split : Bool), s.agg.runs = true →
    (s.agg.route port).1 ≠ .empty → s.agg.launchDue plan port = some (e, p) → p.id = plan →
    (∀ q x, q < plan.val → s.agg.launchDue q port = some x → x.1.num ≠ e.num ∨ x.1.fast ≠ e.fast) →
    s.agg.owns p = false → s.agg.launches p port = some (ta, split) → Tab.find (p.id * 8 + port.val) s.agg.rdx.flight = none →
    ∃ a, exec (.runnerLaunch plan port) s = s.thenAgg a
      ∧ Tab.find (p.id * 8 + port.val) a.rdx.flight = some (e.num, p.deadline 0 e.time) ∧ a.rdx.ents = s.agg.rdx.ents)
  ∧ (∀ (s : State) (plan : Fin 64) (port : Fin 8) (p : Plan) (e : AggEpoch), s.agg.runs = true →
    (s.agg.route port).1 ≠ .empty → s.agg.launchDue plan port = some (e, p) → p.id = plan →
    (∀ q x, q < plan.val → s.agg.launchDue q port = some x → x.1.num ≠ e.num ∨ x.1.fast ≠ e.fast) →
    s.agg.owns p = true → s.agg.launches p port = none → s.agg.awaits plan (s.agg.u.pkgAddr port) = false →
    s.agg.rdx.ents.length < 16384 → s.agg.ent? ⟨plan, 0, s.agg.u.pkgAddr port, BitVec.ofNat 64 e.num⟩ = none →
    s.agg.markOf ⟨plan, 0, s.agg.u.pkgAddr port, BitVec.ofNat 64 e.num⟩ = none →
    ∃ a, exec (.runnerLaunch plan port) s = s.thenAgg a ∧ a.u = s.agg.u
      ∧ a.rdx.ents = s.agg.rdx.ents
          ++ [s.agg.newPkg p ⟨plan, 0, s.agg.u.pkgAddr port, BitVec.ofNat 64 e.num⟩ port e.time e.plans])
  ∧ (∀ (p : Part) (s : State) (port : Fin 8) (n : BitVec 64), s.on p = true → ((s.part p).rport port).state = 2 →
    exec (.runnerWindowOpen p port n) s = s.thenUnit p ((s.part p).setRport port
      { (s.part p).rport port with window := some n.toNat, started := false }))
  ∧ (∀ (p : Part) (s : State) (port : Fin 8), s.on p = true → ((s.part p).rport port).window.isSome = true →
    ∃ u, exec (.runnerWindowClose p port) s = s.thenUnit p u ∧ (u.rport port).window = none)
  ∧ (∀ (s : State) (i : FleetIn) (orig : Node) (r : RdxResult) (p : Plan) (e : RdxEnt) (up : RdxKey), s.hears i = true →
    r.key.scope ≠ 0 → r.key.scope.val < 3 →
    up = { r.key with scope := r.key.scope + 1, addr := scopeAddr r.key.addr (r.key.scope.val + 1) } →
    s.agg.ent? up = some e → planIn e.plans r.key.plan = some p → r.key.scope.val < p.scope → p.pver = r.pver.toNat →
    s.agg.rootHere r.key.scope = true → s.agg.owns p = true → e.done = none →
    e.got.contains (contribId r.key.addr r.key.scope) = false → e.lostBy.contains (contribId r.key.addr r.key.scope) = false →
    (r.status.val < 2 → RdxEnt.full { e with got := e.got ++ [contribId r.key.addr r.key.scope] } = false) →
    exec (.frun i orig r) s = s.thenAgg ((s.agg.received i).setEnt (if 2 ≤ r.status.val then
        { e with lostBy := e.lostBy ++ [contribId r.key.addr r.key.scope], nexp := e.nexp + r.nexp.toNat }
      else { e with
        got := e.got ++ [contribId r.key.addr r.key.scope], allOk := e.allOk && decide (r.status = 0)
        ngot := e.ngot + r.ngot.toNat, nexp := e.nexp + r.nexp.toNat
        lanes := some (match e.lanes with | some l => mergeLanes l r.lanes | none => r.lanes) })))
  ∧ (∀ (s : State) (i : FleetIn) (plan : Fin 64) (port : Fin 8) (epn : BitVec 64) (sref : Node), s.hears i = true →
    ∃ a, exec (.srefhand i plan port epn sref) s = s.thenAgg a ∧ a.u = (s.agg.received i).u
      ∧ Tab.find (plan.val * 8 + port.val) a.rdx.sref = some (epn.toNat, sref.toNat) ∧ a.rdx.ents = s.agg.rdx.ents)
  ∧ (∀ (s : State) (b : Fin 16) (n : Node), s.die.powered = true →
    ∃ d, exec (.phaseArr b n) s = s.thenDie d ∧ d = { s.die with rdx := d.rdx }
      ∧ ((Tab.find n.toNat d.rdx.steps).bind fun p => Tab.find b.val p.arr) = some s.die.u.tb.now)
  ∧ (∀ (s : State) (b : Fin 16) (n : Node), s.die.powered = true →
    ∃ d, exec (.phaseRel b n) s = s.thenDie d
      ∧ ((Tab.find n.toNat d.rdx.steps).bind fun p => Tab.find b.val p.rel) = some s.die.u.tb.now
      ∧ (((Tab.find n.toNat s.die.rdx.steps).bind fun p => Tab.find b.val p.arr).isSome = true → d.u = s.die.u)
      ∧ (((Tab.find n.toNat s.die.rdx.steps).bind fun p => Tab.find b.val p.arr).isSome = false →
          d.u = s.die.u.err Reg.rdxErr 3))

/-- 04 R151-R160, R163: runners on their way and at their head. -/
def Obligations.RunnersFoldAndArrive : Prop :=
(∀ (s : State) (f : Side) (r : Runner), s.die.powered = true → s.die.u.raceUp f.ix = true → s.die.u.lnkRuns = true →
    r.rtype = 2 → r.crcOk = true →
    exec (.runnerFold f r) s = s.thenUnit .die (((s.die.u.raceArr f.ix).raceTx f.other.ix 2 r.bytes (.runner f.other.ix r)
      (some f.ix)).burst f.ix))
  ∧ (∀ (s : State) (f : Side) (r : Runner) (p : Plan) (l : Latched), s.die.powered = true → s.die.u.raceUp f.ix = true →
    s.die.u.lnkRuns = true → s.die.u.power < 2 → s.die.u.nodeOk = true → r.rtype = 1 → r.crcOk = true →
    s.die.latchOf r.fast r.epn.toNat = some l → planOf l.plans r = some p →
    ∃ d, exec (.runnerFold f r) s = s.thenDie d ∧ d.rdx.last = Tab.put p.id r.epn.toNat s.die.rdx.last
      ∧ d.u.rd Reg.rdxFoldcnt = satInc (s.die.u.rd Reg.rdxFoldcnt))
  ∧ (∀ (s : State) (port : Fin 8) (r : Runner), s.agg.runs = true → r.crcOk = false →
    exec (.runnerArrival port r) s
      = s.thenAgg ((s.agg.runnerIn port r).onU fun u => (u.count Reg.rdxBadcnt).err Reg.rdxErr 0))
  ∧ (∀ (s : State) (port : Fin 8) (r : Runner) (p : Plan) (x : Agg) (h : r.plan.toNat < 64), s.agg.runs = true →
    s.agg.runnerIn port r = x → r.crcOk = true → r.rtype = 1 ∨ r.rtype = 2 →
    x.planFor ⟨⟨r.plan.toNat, h⟩, 0, x.u.pkgAddr port, r.epn⟩ = some p → r.orig ≠ x.u.node → x.owns p = false →
    exec (.runnerArrival port r) s = s.thenAgg (x.onU fun u => u.emit (.partialRun port r)))
  ∧ (∀ (s : State) (port : Fin 8) (r : Runner) (p : Plan) (x : Agg) (e : RdxEnt) (h : r.plan.toNat < 64), s.agg.runs = true →
    s.agg.runnerIn port r = x → r.crcOk = true → r.rtype = 1 ∨ r.rtype = 2 → r.orig ≠ x.u.node →
    x.ent? ⟨⟨r.plan.toNat, h⟩, 0, x.u.pkgAddr port, r.epn⟩ = some e → planIn e.plans r.plan.toNat = some p →
    p.id = r.plan.toNat → x.owns p = true → e.done = none → e.got.contains r.orig.toNat = false →
    RdxEnt.full { e with contrib := e.contrib ||| r.contrib.toNat, got := e.got ++ [r.orig.toNat] } = false →
    exec (.runnerArrival port r) s = s.thenAgg (x.setEnt { e with
      got := e.got ++ [r.orig.toNat], contrib := e.contrib ||| r.contrib.toNat, sref := r.sref.toNat, rept := r.repeated
      lanes := some (match e.lanes with | some l => mergeLanes l r.lanes | none => r.lanes) }))
  ∧ (∀ (s : State) (k : RdxKey) (e : RdxEnt) (p : Plan), s.agg.runs = true → s.agg.ent? k = some e →
    planIn e.plans k.plan = some p → e.done = none → e.deadline ≤ s.agg.u.tb.now → k.scope = 0 → p.scope = 0 →
    exec (.reductionDeadline k) s = s.thenAgg (s.agg.complete p e false)
      ∧ ((s.agg.complete p e false).ent? k).map RdxEnt.done = some (some (e.status false)))
  ∧ (∀ (s : State) (k : RdxKey) (e : RdxEnt), s.agg.runs = true → s.agg.ent? k = some e → e.done.isSome = true →
    exec (.entryFree k) s = s.thenAgg { s.agg with rdx := { s.agg.rdx with
      ents := s.agg.rdx.ents.filter fun x => decide (x.key ≠ k) } })

/-- 05 R179, R193, R204, R200, R210: vectors, tree jobs, bank swaps, the store. 05 R191, R198: the verdict of a tree
job, on either part. -/
def Obligations.TreeCommands : Prop :=
  (∀ (p : Part) (s : State) (v : Vec), s.on p = true → (s.part p).scoRuns = true → (s.part p).nextUnready = some v →
    ∃ u, exec (.featuresReady p) s = s.thenUnit p u
      ∧ u.sco.lastFeats = encodeAll ((s.part p).bank v.bank) (Tab.find v.bank (s.part p).sco.mainFeats) v.raws ∧ u.sco.lastEpn = v.epn
      ∧ u.sco.trees = (s.part p).sco.trees ∧ u.drf = (s.part p).drf)
  ∧ (∀ (p : Part) (s : State) (j : Job) (q : List Job) (v : Vec), s.on p = true → (s.part p).scoRuns = true →
    (s.part p).sco.treeQ = j :: q → (s.part p).vec? j.vec = some v → v.ready = true →
    exec (.treeJobStart p) s = s.thenUnit p { s.part p with sco := { (s.part p).sco with
      runTree := (s.part p).sco.runTree ++ [j], treeQ := q } })
  ∧ (∀ (p : Part) (o : Origin) (s : State), s.takes p o Reg.treSwapctl = true → (s.part p).ep.fired = [] →
    (s.part p).sco.shadowValid = true → (s.part p).sco.damaged.contains (1 - (s.part p).sco.active) = false →
    ∃ u, exec (.swapArm p o) s = s.thenUnit p u ∧ u.sco = { (s.part p).sco with
      swap := some ((s.part p).rdN Reg.treSwapl + 2 ^ 32 * (s.part p).rdN Reg.treSwaph) })
  ∧ (∀ (p : Part) (o : Origin) (s : State), s.takes p o Reg.treSwapctl = true → (s.part p).ep.fired = [] →
    (s.part p).sco.shadowValid = false →
    ∃ u, exec (.swapArm p o) s = s.thenUnit p u ∧ u.sco = (s.part p).sco ∧ u.bit Reg.treErr 5 = true)
  ∧ (∀ (p : Part) (o : Origin) (s : State), s.takes p o Reg.treSwapctl = true → (s.part p).ep.fired = [] →
    ∃ u, exec (.swapCancel p o) s = s.thenUnit p u ∧ u.sco = { (s.part p).sco with swap := none, swapNext := none })
  ∧ (∀ (p : Part) (o : Origin) (s : State) (k : Nat), s.takes p o Reg.treAtWeirctl = true → (s.part p).selOf Reg.treSel o = k →
    ∃ u, exec (.weirReset p o) s = s.thenUnit p u ∧ (slotSt u.sco.trees (s.part p).sco.active k).wreset = true
      ∧ u.sco.outs = (s.part p).sco.outs)
  ∧ (∀ (p : Part) (s : State), s.on p = true → (s.part p).scoRuns = true →
    Tab.find (s.part p).sco.scrub (s.part p).sco.storeErr = none →
    exec (.treeScrub p none) s = s.thenUnit p { s.part p with sco := { (s.part p).sco with
      scrub := ((s.part p).sco.scrub + 1) % storeSize (s.part p).kind } })
  ∧ (∀ (p : Part) (s : State) (x : StoreErr), s.on p = true → (s.part p).scoRuns = true →
    Tab.find (s.part p).sco.scrub (s.part p).sco.storeErr = some x →
    ∃ u, exec (.treeScrub p none) s = s.thenUnit p u
      ∧ u.sco.storeErr = Tab.del (s.part p).sco.scrub (s.part p).sco.storeErr
      ∧ u.rd Reg.treRepaircnt = satInc ((s.part p).rd Reg.treRepaircnt))
  ∧ (∀ (s : State) (j : Job) (l : List Job), s.die.powered = true → s.die.u.scoRuns = true → s.die.u.sco.runTree = j :: l →
    exec (.treeVerdict .die) s = s.thenUnit .die s.die.u.treeDone ∧ s.die.u.treeDone.sco.runTree = l)
  ∧ (∀ (s : State) (j : Job) (l : List Job) (v : Vec) (e : Ens), s.agg.runs = true → s.agg.u.scoRuns = true →
    s.agg.u.sco.runTree = j :: l → s.agg.u.vec? j.vec = some v → (s.agg.u.bank v.bank).ens? j.slot = some e →
    v.bank = s.agg.u.sco.active →
    exec (.treeVerdict .agg) s = s.thenAgg (({ s.agg with u := s.agg.u.treeDone }.putEns j.slot (e.tplan / 64) v.head.scopea
      (slotSt s.agg.u.treeDone.sco.trees v.bank j.slot).level).voteAll) ∧ s.agg.u.treeDone.sco.runTree = l)
  ∧ (∀ (p : Part) (s : State) (j : Job) (l : List Job) (v : Vec) (e : Ens) (r : SumSt), (s.part p).sco.runTree = j :: l →
    (s.part p).vec? j.vec = some v → ((s.part p).bank v.bank).ens? j.slot = some e →
    (s.part p).sco.lostModel.contains v.bank = false →
    r = sumTrees e v.bank (Tab.getD ((s.part p).bank v.bank).base j.slot 0) v.feats 
      ⟨{ s.part p with sco := { (s.part p).sco with runTree := l } }, e.bias, false, false, false⟩ 0 e.trees →
    r.serr = false →
    (slotSt (s.part p).treeDone.sco.trees v.bank j.slot).score = r.acc
    ∧ (slotSt (s.part p).treeDone.sco.trees v.bank j.slot).level
        = ((slotSt (s.part p).sco.trees v.bank j.slot).start.update e.t e.rise e.fall r.acc).level)
  ∧ (∀ (acc leaf : Int), (addSat40 acc false leaf).1 = clampI (-(2 ^ 39)) (2 ^ 39 - 1) (acc + leaf))

/-- 06 R222-R231, R243: dense jobs. -/
def Obligations.DenseCommands : Prop :=
(∀ (p : Part) (s : State) (j : Job) (q : List Job) (v : Vec), s.on p = true → (s.part p).scoRuns = true →
    (s.part p).sco.runDense = none → (s.part p).sco.denseQ = j :: q → (s.part p).vec? j.vec = some v → v.ready = true →
    exec (.denseJobStart p) s = s.thenUnit p { s.part p with sco := { (s.part p).sco with runDense := some j, denseQ := q } })
  ∧ (∀ (s : State) (j : Job), s.die.powered = true → s.die.u.scoRuns = true → s.die.u.sco.runDense = some j →
    exec (.denseVerdict .die) s = s.thenUnit .die s.die.u.denseDone ∧ s.die.u.denseDone.sco.runDense = none)
  ∧ (∀ (s : State) (j : Job), s.agg.runs = true → s.agg.u.scoRuns = true → s.agg.u.sco.runDense = some j →
    exec (.denseVerdict .agg) s = s.thenAgg (s.agg.denseStep Unit.denseDone) ∧ s.agg.u.denseDone.sco.runDense = none)
  ∧ (∀ (p : Part) (s : State) (j : Job) (v : Vec) (m : Model) (w : DenseWait), (s.part p).sco.runDense = some j →
    (s.part p).denseJob? j = some (v, m) → (s.part p).sco.lostModel.contains v.bank = false →
    w = denseResult ((s.part p).bank v.bank).feats m j v.feats false →
    ((s.part p).joinable w m = false → (s.part p).denseDone.sco.waits = (s.part p).sco.waits ++ [w])
    ∧ ((s.part p).joinable w m = true → Tab.find (v.bank * 256 + m.slot) (s.part p).denseDone.sco.denseEpn = some (v.head.jobEpn j.kind)))
  ∧ (∀ (s : State) (w : DenseWait) (v : Vec) (m : Model), s.die.powered = true → s.die.u.scoRuns = true →
    s.die.u.sco.waits = [w] → s.die.u.denseJob? w.job = some (v, m) → s.die.u.joinable w m = true →
    ∃ u, exec (.denseJoint .die) s = s.thenUnit .die u ∧ u.sco.waits = []
      ∧ Tab.find (v.bank * 256 + m.slot) u.sco.denseEpn = some (v.head.jobEpn w.job.kind))
  ∧ (∀ (s : State) (w : DenseWait) (v : Vec) (m : Model), s.agg.runs = true → s.agg.u.scoRuns = true →
    s.agg.u.sco.waits = [w] → s.agg.u.denseJob? w.job = some (v, m) → s.agg.u.joinable w m = true →
    exec (.denseJoint .agg) s = s.thenAgg (s.agg.denseStep Unit.denseJoint) ∧ s.agg.u.denseJoint.sco.waits = [])
  ∧ (∀ (p : Part) (o : Origin) (s : State) (k : Nat), s.takes p o Reg.dnsAtWeirctl = true → (s.part p).selOf Reg.dnsSel o = k →
    ∃ u, exec (.denseWeirReset p o) s = s.thenUnit p u ∧ u.sco.trees = (s.part p).sco.trees
      ∧ ∀ i, i < 16 → (slotSt u.sco.outs (s.part p).sco.active (k * 16 + i)).wreset = true)

/-- 06 R236-R242: the drift unit. -/
def Obligations.DriftUnit : Prop :=
(∀ (p : Part) (s : State) (i : BitVec 10) (b : Batch) (l : List Batch) (raw : Raw) (q : List (Nat × Raw)) (d : MetD) (m : Int)
    (sat : Bool) (bnd : Option Nat) (bd : Nat), s.on p = true → (s.part p).scoRuns = true → (s.part p).bit Reg.drfCtrl 0 = true →
    (s.part p).drf.batches = b :: l → b.due = (i.toNat, raw) :: q → (driftMets b.sec)[i.toNat]? = some d →
    (driftMets ((s.part p).sec 8))[i.toNat]? = some d → metricValue d raw = some (m, sat) →
    bnd = (match p, b.entry with | .agg, some k => s.agg.bandOf b.sec k | _, _ => b.band) →
    (if d.bandfree then some 0 else bnd) = some bd →
    ∃ u, exec (.driftUpdate p i) s = s.thenUnit p u ∧ u.drf.lastBand = some bnd ∧ u.drf.lastEpn = b.epn
      ∧ Tab.getD u.drf.metrics i.toNat metric0
          = (Tab.getD (s.part p).drf.metrics i.toNat metric0).update b.sec d m sat bd)
  ∧ (∀ (p : Part) (s : State) (i : BitVec 10) (b : Batch) (l : List Batch) (raw : Raw) (q : List (Nat × Raw)) (d : MetD), s.on p = true →
    (s.part p).scoRuns = true → (s.part p).bit Reg.drfCtrl 0 = true → (s.part p).drf.batches = b :: l →
    b.due = (i.toNat, raw) :: q → (driftMets b.sec)[i.toNat]? = some d → d.bandfree = false → b.band = none → b.entry = none →
    ∃ u, exec (.driftUpdate p i) s = s.thenUnit p u ∧ u.drf.metrics = (s.part p).drf.metrics
      ∧ u.rd Reg.drfAtSkipcnt i.toNat = satInc ((s.part p).rd Reg.drfAtSkipcnt i.toNat))
  ∧ (∀ (p : Part) (s : State) (i : BitVec 10), s.on p = true → (s.part p).scoRuns = true → (s.part p).bit Reg.drfCtrl 0 = false →
    ∃ u, exec (.driftUpdate p i) s = s.thenUnit p u ∧ u.drf.metrics = (s.part p).drf.metrics)
  ∧ (∀ (p : Part) (o : Origin) (s : State) (k : Nat), s.takes p o Reg.drfAtRebase = true → (s.part p).selOf Reg.drfSel o = k →
    ∃ u, exec (.rebase p o) s = s.thenUnit p u ∧ u.sco = (s.part p).sco
      ∧ Tab.getD u.drf.metrics k metric0 = { Tab.getD (s.part p).drf.metrics k metric0 with rebase := true })
  ∧ (∀ (x : Metric) (d : MetD) (m b : Int) (ext : Bool),
    (x.cusumStep d m (some (b, ext))).sp = min (2 ^ 31 - 1) (max 0 (x.sp + (m - b) - d.slack))
    ∧ (x.cusumStep d m (some (b, ext))).sn = min (2 ^ 31 - 1) (max 0 (x.sn + (b - m) - d.slack))
    ∧ (x.cusumStep d m (some (b, ext))).drift
        = (decide (d.limit < (x.cusumStep d m (some (b, ext))).sp) || decide (d.limit < (x.cusumStep d m (some (b, ext))).sn)))
  ∧ (∀ (h : DriftHead) (busy : Nat), loadBand h busy 0 = none)

/-- 07 R251, R253-R258: an ANNOUNCE, drawn or not; a draw of rate r takes 2^(16-r) of 2^16 values. 07 R267-R273: the
condition table and the margin demand. -/
def Obligations.WitnessSamplingAndConditions : Prop :=
  (∀ (s : State) (tile : BitVec 64) (eng : BitVec 8), s.die.powered = true → s.die.u.capRuns = true → s.die.wit.seed = none →
    exec (.announce tile eng) s = s.thenUnit .die ((s.die.u.count Reg.witAnncnt).emit (.sample none)))
  ∧ (∀ (s : State) (tile : BitVec 64) (eng : BitVec 8) (seed : Nat), s.die.powered = true → s.die.u.capRuns = true →
    s.die.wit.seed = some seed → s.die.u.bit Reg.witCtrl 0 = true →
    drawn (tileDraw seed tile.toNat) (s.die.witRate (s.die.witKey eng.toNat)) = false →
    ∃ d, exec (.announce tile eng) s = s.thenDie d ∧ d.wit = s.die.wit ∧ d.u.out = s.die.u.out ++ [.sample none])
  ∧ (∀ (s : State) (tile : BitVec 64) (eng : BitVec 8) (seed tag : Nat), s.die.powered = true → s.die.u.capRuns = true →
    s.die.wit.seed = some seed → s.die.u.bit Reg.witCtrl 0 = true →
    drawn (tileDraw seed tile.toNat) (s.die.witRate (s.die.witKey eng.toNat)) = true →
    Tab.freeFrom s.die.wit.pend 0 4096 = some tag →
    ∃ d p, exec (.announce tile eng) s = s.thenDie d ∧ d.wit = { s.die.wit with pend := Tab.put tag p s.die.wit.pend }
      ∧ p.tile = tile.toNat ∧ p.eng = eng.toNat ∧ p.key = s.die.witKey eng.toNat ∧ p.first = none ∧ p.second = none
      ∧ d.u.out = s.die.u.out ++ [.sample (some tag)])
  ∧ (∀ (s : State) (o : Origin) (high : Word), s.takes .die o Reg.witSeedh = true →
    ∃ d, exec (.seedWrite o high) s = s.thenDie d
      ∧ d.wit = { s.die.wit with seed := some (s.die.u.rdN Reg.witSeedl + high.toNat * 2 ^ 32) })
  ∧ (∀ u r : Nat, u < 2 ^ 16 → r ≤ 16 → drawn u r = decide (u < 2 ^ (16 - r)))
  ∧ (∀ (s : State) (k : Nat) (c : WitCond), s.die.powered = true → s.die.u.capRuns = true →
    s.die.wit.swept < s.die.u.tb.now / 2 ^ 32 → s.die.wit.cond = [(k, c)] → c.state = 1 →
    s.die.u.fld Reg.witWin 15 0 * 1000 < (s.die.u.witMs + 2 ^ 32 - c.times.getLastD s.die.u.witMs) % 2 ^ 32 →
    ∃ d, exec .conditionSweep s = s.thenDie d ∧ d.wit.cond = [] ∧ d.wit.pend = s.die.wit.pend)
  ∧ (∀ s : State, s.die.powered = true → s.die.u.capRuns = true → s.die.wit.swept < s.die.u.tb.now / 2 ^ 32 →
    (∀ x ∈ s.die.wit.cond, x.2.state ≠ 1) →
    exec .conditionSweep s = s.thenDie { s.die with wit := { s.die.wit with swept := s.die.u.tb.now / 2 ^ 32 } })
  ∧ (∀ (s : State) (o : Origin) (k : Nat) (c : WitCond), s.takes .die o Reg.witAtClear = true →
    s.die.u.selOf Reg.witSel o = k → Tab.find k s.die.wit.cond = some c →
    ∃ d, exec (.conditionClear o) s = s.thenDie d ∧ d.wit = s.die.wit.free k)
  ∧ (∀ s : State, s.die.powered = true → s.die.u.capRuns = true → s.die.paired = true → s.die.wit.req = none →
    s.die.wit.want s.die.morder ≠ (s.die.wit.sentV, s.die.wit.sentF) →
    ∃ d, exec .marginRequest s = s.thenDie d
      ∧ d.wit.req = some ⟨(s.die.wit.want s.die.morder).1, (s.die.wit.want s.die.morder).2, s.die.u.clk⟩
      ∧ (d.wit.sentV, d.wit.sentF) = s.die.wit.want s.die.morder ∧ d.wit.cond = s.die.wit.cond ∧ d.wit.steps = []
      ∧ d.u.out = s.die.u.out ++ [.margin (s.die.wit.want s.die.morder).1 (s.die.wit.want s.die.morder).2 s.die.wit.engine])
  ∧ (∀ (w : Wit) (c : WitCond), (w.want 3).1 = w.ackV ∧ (w.want 2).2 = w.ackF ∧ (w.steps = [] → w.engine = 0xFF)
    ∧ (∀ c', w.nextStep 3 c = some c' → c'.vstep = c.vstep ∧ c'.fstep = c.fstep + 1)
    ∧ (∀ c', w.nextStep 2 c = some c' → c'.fstep = c.fstep ∧ c'.vstep = c.vstep + 1))
  ∧ (∀ (s : State) (r : MarginReq), s.die.powered = true → s.die.u.capRuns = true → s.die.wit.req = some r →
    exec (.marginAnswer true) s = s.thenDie { s.die with
      u := s.die.u.marginRecord r true false, wit := { s.die.wit with req := none, ackV := r.v, ackF := r.f } }
    ∧ exec (.marginAnswer false) s = s.thenDie { s.die with
      u := (s.die.u.marginRecord r false false).err Reg.witErr 7, wit := { s.die.wit with req := none }.refuse r })
  ∧ (∀ (s : State) (r : MarginReq), s.die.powered = true → s.die.u.capRuns = true → s.die.wit.req = some r →
    usT (s.die.u.fld Reg.witMackto 15 0) ≤ s.die.u.since r.since →
    exec .marginTimeout s = s.thenDie { s.die with
      u := (s.die.u.marginRecord r false true).err Reg.witErr 8, wit := { s.die.wit with req := none }.refuse r })

/-- 07 R251-R254, R259, R260: the exchange of signatures, and what ends it. -/
def Obligations.WitnessExchange : Prop :=
(∀ (s : State) (tag : BitVec 12) (tile : BitVec 64) (eng : BitVec 8) (sig : BitVec 64), s.die.powered = true →
    s.die.u.capRuns = true → Tab.find tag.toNat s.die.wit.pend = none →
    exec (.first tag tile eng sig) s = s.thenUnit .die ((s.die.u.count Reg.witDisccnt).err Reg.witErr 1)
    ∧ exec (.second tag tile eng sig) s = s.thenUnit .die ((s.die.u.count Reg.witDisccnt).err Reg.witErr 1)
    ∧ exec (.third tag tile eng sig) s = s.thenUnit .die ((s.die.u.count Reg.witDisccnt).err Reg.witErr 1))
  ∧ (∀ (s : State) (tag : BitVec 12) (tile : BitVec 64) (eng : BitVec 8) (sig : BitVec 64) (p : WitPend), s.die.powered = true →
    s.die.u.capRuns = true → Tab.find tag.toNat s.die.wit.pend = some p → p.tile = tile.toNat → s.die.pendDue p = false →
    p.eng = eng.toNat →
    p.first = none → p.second = none →
    ∃ d, exec (.first tag tile eng sig) s = s.thenDie d ∧ d.wit = { s.die.wit with
      pend := Tab.put tag.toNat { p with first := some (s.die.witSig eng.toNat sig.toNat) } s.die.wit.pend })
  ∧ (∀ (s : State) (tag : BitVec 12) (tile : BitVec 64) (eng : BitVec 8) (sig : BitVec 64) (p : WitPend) (a : WitSig),
    s.die.powered = true → s.die.u.capRuns = true → Tab.find tag.toNat s.die.wit.pend = some p →
    p.tile = tile.toNat → s.die.pendDue p = false →
    p.eng ≠ eng.toNat → p.first = some a → p.second = none → a.sig = sig.toNat →
    ∃ d, exec (.second tag tile eng sig) s = s.thenDie d ∧ d.wit.pend = Tab.del tag.toNat s.die.wit.pend
      ∧ d.u.rd Reg.witMatchcnt = satInc (s.die.u.rd Reg.witMatchcnt))
  ∧ (∀ (s : State) (tag : BitVec 12) (tile : BitVec 64) (eng : BitVec 8) (sig : BitVec 64) (p : WitPend) (a : WitSig),
    s.die.powered = true → s.die.u.capRuns = true → Tab.find tag.toNat s.die.wit.pend = some p →
    p.tile = tile.toNat → s.die.pendDue p = false →
    p.eng ≠ eng.toNat → p.first = some a → p.second = none → a.sig ≠ sig.toNat →
    ∃ d q, exec (.second tag tile eng sig) s = s.thenDie d
      ∧ q = { p with second := some (s.die.witSig eng.toNat sig.toNat), xreq := some s.die.u.clk }
      ∧ d.wit = { s.die.wit with pend := Tab.put tag.toNat q s.die.wit.pend }
      ∧ d.u.out = s.die.u.out ++ [.thirdReq tag.toNat p.tile a.eng eng.toNat])
  ∧ (∀ (s : State) (tag : BitVec 12) (tile : BitVec 64) (eng : BitVec 8) (sig : BitVec 64) (p : WitPend) (a b : WitSig) (x : Nat),
    s.die.powered = true → s.die.u.capRuns = true → Tab.find tag.toNat s.die.wit.pend = some p →
    p.tile = tile.toNat → s.die.pendDue p = false →
    p.first = some a → p.second = some b → p.xreq = some x → eng.toNat ≠ a.eng → eng.toNat ≠ b.eng →
    ∃ d, exec (.third tag tile eng sig) s = s.thenDie d ∧ d.wit.pend = Tab.del tag.toNat s.die.wit.pend
      ∧ (sig.toNat = a.sig ∨ sig.toNat = b.sig → d.hlt = s.die.hlt ∧ d.u.rd Reg.witMiscnt = satInc (s.die.u.rd Reg.witMiscnt))
      ∧ (sig.toNat ≠ a.sig → sig.toNat ≠ b.sig →
          d.hlt.nvAt = some s.die.u.clk ∧ d.u.rd Reg.witNovotecnt = satInc (s.die.u.rd Reg.witNovotecnt)))
  ∧ (∀ (s : State) (tag : BitVec 12) (p : WitPend), s.die.powered = true → s.die.u.capRuns = true →
    Tab.find tag.toNat s.die.wit.pend = some p → p.xreq = none →
    usT (s.die.u.fld Reg.witPendto 15 0) ≤ s.die.u.since p.since →
    exec (.pendingTimeout tag) s = s.thenDie { s.die with
      wit := s.die.wit.freePend tag.toNat, u := (s.die.u.count Reg.witTocnt).err Reg.witErr 5 })
  ∧ (∀ (s : State) (tag : BitVec 12) (p : WitPend) (x : Nat), s.die.powered = true → s.die.u.capRuns = true →
    Tab.find tag.toNat s.die.wit.pend = some p → p.xreq = some x → usT (s.die.u.fld Reg.witThirdto 15 0) ≤ s.die.u.since x →
    exec (.thirdTimeout tag) s = s.thenDie { s.die with
      wit := s.die.wit.freePend tag.toNat, u := (s.die.u.count Reg.witTocnt).witRecord false (p.exRec 3) })

/-- 08 R280-R287, R320, R321: the score's record, the windows, hard flags, host links. 08 R283, R295-R301: fences at a
die unit. -/
def Obligations.DieHealthAndFences : Prop :=
  (∀ s : State, s.die.powered = true → s.die.u.bit Reg.hltCtrl 0 = true → s.die.u.power < 2 →
    (s.die.lscore, s.die.hlt.lv, s.die.hlt.hard) ≠ s.die.hlt.told → s.die.hlt.toldEpoch ≠ some s.die.u.ep.lastMain →
    ∃ d, exec .healthRecord s = s.thenDie d ∧ s.die.u.Noted d.u ∧ d.hlt = { s.die.hlt with
      told := (s.die.lscore, s.die.hlt.lv, s.die.hlt.hard), toldEpoch := some s.die.u.ep.lastMain })
  ∧ (∀ (s : State) (raw : Nat), s.die.powered = true → s.agg.runs = true →
    raw = verdictOf (s.die.u.rd Reg.hltThr) s.die.hlt.hard (s.die.wit.state == 4) s.die.lscore →
    ∃ d, exec .verdictDownhold s = .next { s with
        die := Die.settle s.die d, agg := Agg.settle s.agg s.agg.voteAll }
      ∧ (s.die.hlt.lv ≤ raw → d.hlt.lv = raw) ∧ (raw < s.die.hlt.lv → d.hlt.lv ≤ s.die.hlt.lv))
  ∧ (∀ (s : State) (c : Nat), s.die.powered = true → s.die.hlt.nvAt = some c →
    msT (1000 * s.die.u.fld Reg.hltNvwin 15 0) ≤ s.die.u.since c →
    ∃ d, exec .novoteExpire s = s.thenDie d ∧ d.hlt.nvAt = none ∧ d.hlt.hard = s.die.hlt.hard)
  ∧ (∀ s : State, s.die.powered = true → s.die.hlt.lv ≤ 3 →
    ∃ d, exec .hostFatal s = s.thenDie d ∧ d.hlt.hard = s.die.hlt.hard ||| 8 ∧ d.hlt.lv = 3)
  ∧ (∀ (s : State) (k : Fin 16), s.die.powered = true → s.die.hlt.up.testBit k.val = true →
    ∃ d, exec (.linkDown k) s = s.thenDie d ∧ d.hlt = { s.die.hlt with
        up := s.die.hlt.up ^^^ 2 ^ k.val, down := Tab.put k.val s.die.u.clk s.die.hlt.down }
      ∧ d.u.bit Reg.hltErr 3 = true)
  ∧ (∀ (s : State) (k : Fin 16), s.die.powered = true → s.die.hlt.up.testBit k.val = false →
    exec (.linkDown k) s = s.thenDie s.die)
  ∧ (∀ (s : State) (k : Fin 16) (c : Nat), s.die.powered = true → s.die.hlt.lv ≤ 3 → Tab.find k.val s.die.hlt.down = some c →
    usT (s.die.u.fld Reg.hltLdto 15 0) ≤ s.die.u.since c → s.die.hlt.dead.testBit k.val = false →
    ∃ d, exec (.linkDead k) s = s.thenDie d ∧ d.hlt.dead = s.die.hlt.dead ||| 2 ^ k.val
      ∧ d.hlt.hard = s.die.hlt.hard ||| 2 ∧ d.hlt.lv = 3)
  ∧ (∀ (s : State) (k : Fin 16) (c : Nat), s.die.powered = true → Tab.find k.val s.die.hlt.down = some c →
    ∃ d, exec (.linkUp k) s = s.thenDie d ∧ s.die.u.Noted d.u
      ∧ d.hlt = { s.die.hlt with up := s.die.hlt.up ||| 2 ^ k.val, down := Tab.del k.val s.die.hlt.down } ∧ (s.die.hlt.dead.testBit k.val = true → d.u = s.die.u))
  ∧ (∀ (thr : Word) (hard score : Nat), hard ≠ 0 → verdictOf thr hard false score = 3)
  ∧ (∀ (thr : Word) (score : Nat), verdictOf thr 0 false score
      = if fieldOf thr 25 16 ≤ score then 2 else if fieldOf thr 9 0 ≤ score then 1 else 0)
  ∧ (∀ (s : State) (f : Fence), s.die.powered = true → s.die.u.miswired = false → f.gen = 0 → s.die.u.nodeOk = true →
    f.eff.names s.die.u.node = true → f.fkind = 4 →
    ∃ d, exec (.fenceReceive f) s = s.thenDie d ∧ d.hlt.inforce = 0 ∧ d.hlt.hard = 0 ∧ d.hlt.dead = 0)
  ∧ (∀ (s : State) (f : Fence), s.die.powered = true → s.die.u.miswired = false → f.gen = 0 → s.die.u.nodeOk = true →
    f.eff.names s.die.u.node = true → f.fkind.toNat ≤ 3 → s.die.paired = true → s.die.hlt.inforce ≤ f.fkind.toNat →
    ∃ d, exec (.fenceReceive f) s = s.thenDie d ∧ d.hlt = { s.die.hlt with inforce := f.fkind.toNat })
  ∧ (∀ (s : State) (f : Fence), s.die.powered = true → s.die.u.miswired = false → f.gen = 0 →
    f.eff.names s.die.u.node = false →
    exec (.fenceReceive f) s = s.thenUnit .die (s.die.u.addrs [f.subj, f.rdie]))
  ∧ (∀ (s : State) (f : Fence), s.die.powered = true → s.die.u.miswired = true →
    exec (.fenceReceive f) s = s.thenDie s.die)
  ∧ (∀ (s : State) (f : Fence) (i : Nat), s.die.powered = true → s.die.u.miswired = false → f.gen ≠ 0 →
    s.die.knows f.eff = true → s.die.arrived f.inst f.fseq.toNat = false → Tab.freeFrom s.die.hlt.slots 0 16 = some i →
    ∃ d, exec (.fenceReceive f) s = s.thenDie d ∧ (Tab.find i d.hlt.slots).isSome = true
      ∧ d.hlt.queue = s.die.hlt.queue)
  ∧ (∀ (s : State) (o : Origin) (k : Nat) (x : FSlot), s.takes .die o Reg.hltAtDone = true → s.die.u.selOf Reg.hltSel o = k →
    Tab.find k s.die.hlt.slots = some x → x.visible = true → x.at_ ≠ s.die.u.clk → s.die.hlt.queue = [] →
    ∃ d, exec (.fenceDone o) s = s.thenDie d ∧ d.hlt = { s.die.hlt with slots := Tab.del k s.die.hlt.slots })
  ∧ (∀ (s : State) (o : Origin) (k : Nat) (x : FSlot), s.takes .die o Reg.hltAtDone = true → s.die.u.selOf Reg.hltSel o = k →
    Tab.find k s.die.hlt.slots = some x → x.at_ = s.die.u.clk →
    ∃ d, exec (.fenceDone o) s = s.thenDie d ∧ d.hlt = s.die.hlt)
  ∧ (∀ (s : State) (k : Fin 256) (w : BitVec 12) (g n : Word) (f : Fence), s.agg.runs = true →
    (∀ x ∈ s.agg.vote.fences, x.inst = (w.toNat, g.toNat) → x.fseq = n → x = f) → f ∈ s.agg.vote.fences →
    f.inst = (w.toNat, g.toNat) → f.fseq = n → s.agg.u.raceUp (k.val / 32) = true →
    exec (.fenceRequest k w g n) s = s.thenAgg ((s.agg.heardDie (s.agg.dieAddr k.val)).issue (k.val / 32) (s.agg.dieAddr k.val) 0 (.fence f)))

/-- 08 R318, R319; 10 R379-R381: copies of chain commands, at the die units and at their issuer; dies that fall
silent. -/
def Obligations.ChainCommands : Prop :=
(∀ (s : State) (side : Side) (c : ChainCmd), s.die.powered = true → s.die.u.raceUp side.ix = true → s.die.u.lnkRuns = true →
    s.die.u.cmdFor c = false → s.die.u.nodeOk = true → s.die.u.raceUp side.other.ix = true →
    ∃ d x, exec (.cmdReceive side c) s = s.thenDie d ∧ d.hlt = s.die.hlt
      ∧ d.u.rd Reg.hltCmdcnt = s.die.u.rd Reg.hltCmdcnt
      ∧ d.u = Unit.raceTx x side.other.ix 1 (32 + c.op.alen)
          (.cmd side.other.ix { c with mask := setBit c.mask s.die.u.dieNo true }) (some side.ix))
  ∧ (∀ (s : State) (side : Side) (c : ChainCmd), s.die.powered = true → s.die.u.raceUp side.ix = true → s.die.u.lnkRuns = true →
    s.die.u.miswired = false → c.dest = 0xFFFFFF → s.die.hlt.window = [] →
    ∃ d, exec (.cmdReceive side c) s = s.thenDie d ∧ d.hlt = { s.die.hlt with window := [c.cseq.toNat] }
      ∧ d.u.rd Reg.hltCmdcnt = satInc (s.die.u.rd Reg.hltCmdcnt))
  ∧ (∀ (s : State) (side : Side) (c : ChainCmd), s.die.powered = true → s.die.u.raceUp side.ix = true → s.die.u.lnkRuns = true →
    s.die.u.miswired = false → c.dest = 0xFFFFFF → c.cseq.toNat ∈ s.die.hlt.window →
    ∃ d, exec (.cmdReceive side c) s = s.thenDie d ∧ d.hlt = s.die.hlt
      ∧ d.u.rd Reg.hltCmddup = satInc (s.die.u.rd Reg.hltCmddup))
  ∧ (∀ (s : State) (p : Fin 8) (c : ChainCmd), s.agg.runs = true → s.agg.u.raceUp p.val = true → c.issuer = s.agg.u.node →
    exec (.cmdret p c) s = s.thenAgg (((s.agg.onU fun u => u.raceRx p.val 1 (32 + c.op.alen)).noteCseq p.val
      c.cseq.toNat).takeMask p.val c.cseq.toNat c.mask.toNat false))
  ∧ (∀ (s : State) (p : Fin 8) (n m : Word) (f : InFlight), s.agg.runs = true → s.agg.vote.flights = [f] → f.port = p.val →
    f.cmd.cseq = n → f.other = none → m.toNat &&& (2 ^ (s.agg.chain p.val).len - 1) = 2 ^ (s.agg.chain p.val).len - 1 →
    f.own = none →
    ∃ a, exec (.cmdMask none p n m) s = s.thenAgg a ∧ a = { s.agg with vote := { s.agg.vote with flights := [] } })
  ∧ (∀ (s : State) (i : FleetIn) (p : Fin 8) (n m : Word) (f : InFlight), s.hears i = true → s.agg.vote.flights = [f] →
    f.port = p.val → f.cmd.cseq = n → f.own = none →
    m.toNat &&& (2 ^ (s.agg.chain p.val).len - 1) ≠ 2 ^ (s.agg.chain p.val).len - 1 →
    ∃ a, exec (.cmdMask (some i) p n m) s = s.thenAgg a ∧ a.vote.flights = [{ f with other := some m.toNat }])
  ∧ (∀ (s : State) (p : Fin 8) (n : Word) (f : InFlight), s.agg.runs = true → s.agg.vote.flights = [f] → f.port = p.val →
    f.cmd.cseq = n → f.reissued = false → s.agg.missing f ≠ [] →
    usT (s.agg.u.fld Reg.votCmdto 15 0) ≤ s.agg.u.since f.at_ → s.agg.partner = true →
    ∃ b, b = { s.agg with vote := { s.agg.vote with flights := [{ f with reissued := true }] } }
      ∧ exec (.cmdReissue p n) s = s.thenAgg ((b.handCmd p.val f.cmd 1).onU fun u => (u.count Reg.votResendcnt).err Reg.votErr 3))
  ∧ (∀ (s : State) (p : Fin 8) (n : Word) (f : InFlight), s.agg.runs = true → s.agg.vote.flights = [f] → f.port = p.val →
    f.cmd.cseq = n → f.reissued = true → s.agg.missing f ≠ [] →
    usT (2 * s.agg.u.fld Reg.votCmdto 15 0) ≤ s.agg.u.since f.at_ →
    ∃ a, exec (.cmdUnack p n) s = s.thenAgg a ∧ a.vote.flights = [] ∧ a.u.bit Reg.votErr 6 = true)
  ∧ (∀ (s : State) (k : Fin 256) (same : Bool), s.agg.runs = true → s.agg.gone k.val = true →
    s.agg.u.bit (Reg.glbOffmap + 4 * (k.val / 32)) (k.val % 32) = false → (same || !s.agg.partner) = true →
    ∃ a, exec (.silent k same) s = s.thenAgg a ∧ (a.dieVote k.val).silent = true ∧ a.u = s.agg.u)
  ∧ (∀ (s : State) (k : Fin 256) (c : Nat), s.agg.runs = true → Tab.find k.val s.agg.heard = some c →
    usT (3 * s.agg.u.fld Reg.raceBeatper 7 0) ≤ s.agg.u.since c →
    exec (.dieUnreachable k) s = s.thenAgg { s.agg with
      heard := Tab.del k.val s.agg.heard, lostAt := Tab.put k.val s.agg.u.clk s.agg.lostAt })
  ∧ (∀ (s : State) (k : Fin 256) (same : Bool), s.agg.runs = true → s.agg.gone k.val = false →
    exec (.silent k same) s = s.thenAgg s.agg)

/-- 08 R302-R304, R315, R316: proposals, and how two become one. -/
def Obligations.Proposals : Prop :=
(∀ (s : State) (n : Node) (p : Proposal), s.agg.runs = true → s.agg.votes = true → s.agg.proposalOf n = some p →
    Tab.find n.toNat s.agg.vote.props = none →
    ∃ a, exec (.propose n) s = s.thenAgg a ∧ Tab.find n.toNat a.vote.props = some ⟨p, s.agg.u.clk, 0⟩
      ∧ a.u.rd Reg.votPropcnt = satInc (s.agg.u.rd Reg.votPropcnt))
  ∧ (∀ (s : State) (n : Node), s.agg.runs = true → s.agg.proposalOf n = none → exec (.propose n) s = s.thenAgg s.agg)
  ∧ (∀ (s : State) (n : Node) (p : Proposal) (q : Proposing), s.agg.runs = true → s.agg.votes = true →
    Tab.find n.toNat s.agg.vote.props = some q → q.p.verd ≠ 4 → s.agg.proposalOf n = some p →
    (if p.pflags.toNat.testBit 0 then msT 1000 else usT (s.agg.u.fld Reg.votGto 15 0)) ≤ s.agg.u.since q.at_ →
    ∃ a, exec (.proposeRepeat n) s = s.thenAgg a ∧ Tab.find n.toNat a.vote.props = some ⟨p, s.agg.u.clk, q.n + 1⟩
      ∧ a.u.bit Reg.votErr 3 = true)
  ∧ (∀ (s : State) (n : Node) (q : Proposing), s.agg.runs = true → Tab.find n.toNat s.agg.vote.props = some q → q.p.verd ≠ 4 →
    s.agg.proposalOf n = none →
    exec (.proposeRepeat n) s = s.thenAgg { s.agg with vote := { s.agg.vote with props := Tab.del n.toNat s.agg.vote.props } })
  ∧ (∀ (s : State) (i : FleetIn) (h : VoteHead) (p : Proposal), s.hears i = true → s.agg.decides false = false →
    ∃ a, exec (.proposeReceive i h p) s = s.thenAgg a ∧ a.vote = { s.agg.vote with
      held := (s.agg.vote.held.filter fun x => decide (x.src ≠ h.eff.src) || decide (x.p.subj ≠ p.eff.subj))
        ++ [⟨h.eff.src, p.eff, true⟩] })
  ∧ (∀ (s : State) (n : Node), s.agg.runs = true →
    exec (.governedExpiry n) s = s.thenAgg { s.agg with vote := { s.agg.vote with
      governed := s.agg.vote.governed.filter fun g => decide (g.subj ≠ n) || decide (s.agg.u.since g.at_ < msT 3000) } })
  ∧ (∀ x y : Held, ∃ q, decided [x, y] = some q ∧ q.verd.toNat = min x.p.verd.toNat y.p.verd.toNat
      ∧ q.score.toNat = min x.p.score.toNat y.p.score.toNat)
  ∧ (∀ (a : Agg) (n : Node), a.govAllows = false → a.governor n 2 = (1, true))

/-- 08 R284, R305, R306, R313, R314: decisions, their agreement, escalation and relay. 08 R301, R307: fences among
aggregators. -/
def Obligations.Decisions : Prop :=
  (∀ (s : State) (i : FleetIn) (h : VoteHead) (f : Fence), s.hears i = true → s.agg.votes = true →
    (s.agg.role (h.role == 2)).held = true → (s.agg.role (h.role == 2)).term = h.term.toNat →
    (f.fkind = 2 → s.agg.govAllows = true) →
    exec (.decideReceive i h f) s = s.thenAgg ((s.agg.receivedVote i [h.src, f.subj, f.rdie]).send h.eff.src 1 (.vote
      (s.agg.voteHead h.role.toNat h.term.toNat (f.decid.toNat % 2 ^ 32)) (.commit f.decid true)) 0))
  ∧ (∀ (s : State) (i : FleetIn) (h : VoteHead) (f : Fence), s.hears i = true → (s.agg.role (h.role == 2)).term ≠ h.term.toNat →
    ∃ a, exec (.decideReceive i h f) s = s.thenAgg a ∧ a.u.bit Reg.votErr 1 = true ∧ a.vote = s.agg.vote)
  ∧ (∀ (s : State) (i : FleetIn) (h : VoteHead) (id : BitVec 64) (d : Decision), s.hears i = true →
    Tab.find id.toNat s.agg.vote.decisions = some d → (s.agg.role d.sys).held = true →
    ∃ a, exec (.commitReceive i h id false) s = s.thenAgg a ∧ a.u.bit Reg.votErr 1 = true
      ∧ a.vote = { s.agg.vote with decisions := Tab.del id.toNat s.agg.vote.decisions })
  ∧ (∀ (s : State) (i : FleetIn) (h : VoteHead) (id : BitVec 64) (d : Decision), s.hears i = true →
    Tab.find id.toNat s.agg.vote.decisions = some d → (s.agg.role d.sys).held = true → d.escalate = false → d.sys = false →
    ∃ b, b = { s.agg.receivedVote i [h.src] with vote := { s.agg.vote with decisions := Tab.del id.toNat s.agg.vote.decisions } }
      ∧ exec (.commitReceive i h id true) s = s.thenAgg ((b.onU fun u => u.count Reg.votDeccnt).publish d.f false))
  ∧ (∀ (s : State) (i : FleetIn) (h : VoteHead) (id : BitVec 64) (d : Decision), s.hears i = true →
    Tab.find id.toNat s.agg.vote.decisions = some d → (s.agg.role d.sys).held = true → d.escalate = true → d.escalated = false →
    s.agg.decides true = false →
    ∃ a, exec (.commitReceive i h id true) s = s.thenAgg a
      ∧ Tab.find id.toNat a.vote.decisions = some { d with escalated := true, at_ := s.agg.u.clk, n := 0 })
  ∧ (∀ (s : State) (id : BitVec 64) (d : Decision), s.agg.runs = true → Tab.find id.toNat s.agg.vote.decisions = some d →
    d.escalated = false ∨ s.agg.decides true = false →
    usT (if d.sys || d.escalated then s.agg.u.fld Reg.votSto 15 0 else s.agg.u.fld Reg.votGto 15 0) ≤ s.agg.u.since d.at_ →
    ∃ a, exec (.decideResend id) s = s.thenAgg a ∧ a.u.bit Reg.votErr 3 = true
      ∧ Tab.find id.toNat a.vote.decisions = some { d with at_ := s.agg.u.clk, n := d.n + 1 })
  ∧ (∀ (s : State) (i : FleetIn) (h : VoteHead) (f : Fence) (ps : List Proposal), s.hears i = true →
    s.agg.decides true = true → (∀ d ∈ s.agg.vote.decisions, d.2.sys = true → d.2.f.subj ≠ f.eff.subj) →
    ∃ a d, exec (.escalateReceive i h f ps) s = s.thenAgg a ∧ Tab.find d.f.decid.toNat a.vote.decisions = some d
      ∧ d.f.subj = f.eff.subj ∧ d.f.fkind = f.fkind ∧ d.f.fflags = f.fflags ||| 4 ∧ d.props = ps.map Proposal.eff ∧ d.sys = true
      ∧ d.escalate = false)
  ∧ (∀ (s : State) (i : FleetIn) (h : VoteHead) (f : Fence), s.hears i = true → s.agg.vote.group.held = true →
    s.agg.vote.decisions = [] → (s.agg.fenceGroups f.eff = [] ∨ (s.agg.fenceGroups f.eff).all WGroup.span = false) →
    exec (.relayReceive i h [f]) s = s.thenAgg ((s.agg.receivedVote i [h.src, f.subj, f.rdie]).publish f.eff false))
  ∧ (∀ (s : State) (t : BitVec 6) (gt : Nat), s.agg.runs = true → s.agg.decides false = true →
    gt = s.agg.tray / 64 * 64 + t.toNat % 64 → gt ≠ s.agg.tray → s.agg.beating (sideAddr gt .a) = false →
    s.agg.beating (sideAddr gt .b) = false → (s.agg.inForce (trayAddr gt)).verd ≠ 3 →
    (∀ d ∈ s.agg.vote.decisions, d.2.f.subj ≠ trayAddr gt) →
    ∃ a d, exec (.traysilent t) s = s.thenAgg a ∧ Tab.find d.f.decid.toNat a.vote.decisions = some d
      ∧ d.f.subj = trayAddr gt ∧ d.f.fkind = 3 ∧ d.f.cause = 13)
  ∧ (∀ (s : State) (i : FleetIn) (h : VoteHead) (f : Fence), s.hears i = true →
    ∃ a, exec (.fenceMessage i h f) s = s.thenAgg a ∧ a.vote.fences.any f.eff.same = true)
  ∧ (∀ (s : State) (i : FleetIn) (h : VoteHead) (id : BitVec 64) (w : BitVec 16) (n : Word) (gap : Bool), s.hears i = true →
    ∃ a, exec (.fackReceive i h id w n gap) s = s.thenAgg a ∧ (∀ p ∈ a.vote.pubs, p.dst ≠ [])
      ∧ ∀ p ∈ a.vote.pubs, p.f.decid = id → p.f.wgid = w → p.f.fseq = n → ∀ t ∈ p.dst, t.1 ≠ h.eff.src)
  ∧ (∀ (s : State) (id : BitVec 64) (p : Published), s.agg.runs = true → s.agg.vote.pubs = [p] → p.f.decid = id →
    usT (if p.sys then s.agg.u.fld Reg.votSto 15 0 else s.agg.u.fld Reg.votGto 15 0) ≤ s.agg.u.since p.at_ →
    p.dst ≠ [] → (∀ t ∈ p.dst, s.agg.beating t.1 = true) →
    ∃ a, exec (.fenceResend id) s = s.thenAgg a ∧ a.vote.pubs = [{ p with at_ := s.agg.u.clk, n := p.n + 1 }]
      ∧ a.u.bit Reg.votErr 3 = true)

/-- 08 R302, R311, R314, R326: beats, the majority, the partner's silence. 01 R39-R42; 08 R312: claims of the group
and system roles. -/
def Obligations.BeatsAndRoles : Prop :=
  (∀ s : State, s.agg.runs = true → s.agg.joined = true →
    exec .trayBeat s = s.thenAgg ((s.agg.beatIn false s.agg.u.node).send s.agg.ctl 1 (.vote (s.agg.voteHead 0 0 0) (.trayBeat ⟨s.agg.u.rd Reg.glbGterm,
      s.agg.u.rd Reg.glbSterm, BitVec.ofNat 8 s.agg.pairByte, BitVec.ofNat 8 s.agg.vote.adm.state⟩)) 0))
  ∧ (∀ (s : State) (i : FleetIn) (h : VoteHead) (b : TrayBeat), s.hears i = true → h.eff.src ≠ s.agg.partnerAddr →
    s.agg.vote.held = [] →
    ∃ a, exec (.trayBeatReceive i h b) s = s.thenAgg a ∧ a.vote.beats = Tab.put h.eff.src.toNat s.agg.u.clk s.agg.vote.beats
      ∧ a.u.rdN Reg.glbGterm = max (s.agg.u.rdN Reg.glbGterm) b.gterm.toNat
      ∧ a.u.rdN Reg.glbSterm = max (s.agg.u.rdN Reg.glbSterm) b.sterm.toNat ∧ a.partner = s.agg.partner)
  ∧ (∀ s : State, s.agg.runs = true → s.agg.joined = true → s.agg.partner = true →
    s.agg.beating s.agg.partnerAddr = false →
    ∃ a, exec .partnerLost s = s.thenAgg a ∧ a.partner = false ∧ a.vote.group.held = false ∧ a.vote.system.held = false)
  ∧ (∀ s : State, s.agg.runs = true → s.agg.joined = true → s.agg.vote.group.held = true →
    exec .groupBeat s = s.thenAgg ((s.agg.beatIn true s.agg.u.node).send systemCtl 1 (.vote (s.agg.voteHead 1 s.agg.vote.group.term 0)
      (.groupBeat (BitVec.ofNat 32 s.agg.vote.group.term) (BitVec.ofNat 8 s.agg.traysHeard))) 0))
  ∧ (∀ (s : State) (i : FleetIn) (h : VoteHead) (t : Word) (n : BitVec 8), s.hears i = true →
    ∃ a, exec (.groupBeatReceive i h t n) s = s.thenAgg a
      ∧ a.vote.gbeats = Tab.put h.eff.src.toNat s.agg.u.clk s.agg.vote.gbeats ∧ a.vote.group = s.agg.vote.group)
  ∧ (∀ (s : State) (sys : Bool), s.agg.runs = true → (s.agg.role sys).held = true → (s.agg.role sys).isolated = false →
    s.agg.majority sys = false →
    ∃ a, exec (.isolation sys) s = s.thenAgg a ∧ (a.role sys) = { s.agg.role sys with isolated := true }
      ∧ (a.role !sys) = s.agg.role !sys ∧ a.u.bit Reg.votErr 4 = true ∧ a.u.out = s.agg.u.out ++ [.alarm .isolated])
  ∧ (∀ (s : State) (sys : Bool), s.agg.runs = true → (s.agg.role sys).held = true → s.agg.roleEligible sys = true →
    (∀ c, (s.agg.role sys).sent = some c → usT 100 ≤ s.agg.u.since c) →
    ∃ a, exec (.roleClaim sys) s = s.thenAgg a ∧ a.role sys = { s.agg.role sys with sent := some s.agg.u.clk })
  ∧ (∀ (s : State) (sys : Bool) (c : Nat), s.agg.runs = true → s.agg.roleEligible sys = true → (s.agg.role sys).sent = some c →
    s.agg.u.since c < usT 100 → exec (.roleClaim sys) s = s.thenAgg s.agg)
  ∧ (∀ (s : State) (sys : Bool), s.agg.runs = true → (s.agg.role sys).held = true → s.agg.roleEligible sys = false →
    ∃ a, exec (.roleClaim sys) s = s.thenAgg a ∧ (a.role sys).held = false ∧ a.u = s.agg.u
      ∧ ∀ d ∈ a.vote.decisions, d.2.sys ≠ sys)
  ∧ (∀ (s : State) (i : FleetIn) (sys : Bool) (holder : Node) (term : Word), s.hears i = true →
    trayOf (addrEff holder) ≠ s.agg.tray → ((s.agg.role sys).held = true → s.agg.loses sys (addrEff holder) term.toNat = true) →
    ∃ a, exec (.roleClaimReceive i sys holder term) s = s.thenAgg a ∧ (a.role sys).heard = some s.agg.u.clk
      ∧ (a.role sys).holder = addrEff holder ∧ (a.role sys).held = false
      ∧ a.u.rdN (termReg sys) = max (s.agg.u.rdN (termReg sys)) term.toNat)
  ∧ (∀ (s : State) (i : FleetIn) (sys : Bool) (holder : Node) (term : Word), s.hears i = true →
    trayOf (addrEff holder) ≠ s.agg.tray → (s.agg.role sys).held = true → s.agg.loses sys (addrEff holder) term.toNat = false →
    ∃ a, exec (.roleClaimReceive i sys holder term) s = s.thenAgg a ∧ a.vote = s.agg.vote)
  ∧ (∀ (s : State) (sys : Bool), s.agg.runs = true → (s.agg.role sys).held = false → s.agg.roleEligible sys = true →
    (∃ c, (s.agg.role sys).heard = some c ∧ usT 300 ≤ s.agg.u.since c) →
    ∃ a, exec (.roleVacant sys) s = s.thenAgg a ∧ (a.role sys).held = true ∧ (a.role sys).quiet = true
      ∧ (a.role sys).term = (s.agg.u.rdN (termReg sys) + 1) % 2 ^ 32 ∧ (a.role sys).won = s.agg.u.clk)
  ∧ (∀ (a : Agg) (sys : Bool), a.majority sys = false → a.decides sys = false)
  ∧ (∀ (a : Agg) (sys : Bool), a.u.bit Reg.glbRolecfg (b2n sys) = false ∨ a.vote.pcand.testBit (b2n sys) = false ∨ a.partner = false →
    a.roleEligible sys = false)
  ∧ (∀ (s : State) (sys : Bool), s.agg.runs = true → (s.agg.role sys).held = false → (s.agg.role sys).heard = none →
    exec (.roleVacant sys) s = s.thenAgg s.agg)
  ∧ (∀ (s : State) (sys : Bool), s.agg.runs = true → (s.agg.role sys).quiet = true →
    usT (if sys then 1200 else 400) ≤ s.agg.u.since (s.agg.role sys).won → s.agg.vote.held = [] →
    ∃ a, exec (.quietPeriodEnd sys) s = s.thenAgg a ∧ a.role sys = { s.agg.role sys with quiet := false } ∧ a.u = s.agg.u)

/-- 08 R322-R324: admission of a repaired tray. -/
def Obligations.AdmissionRun : Prop :=
(∀ (s : State) (o : Origin) (w : BitVec 12), s.takes .agg o Reg.votAdmctl = true → s.agg.vote.adm.state = 0 →
    s.agg.joined = true →
    ∃ a, exec (.admitStart o w) s = s.thenAgg a ∧ a.vote.adm.state = 1 ∧ a.vote.adm.wgid = w.toNat
      ∧ a.vote.decisions = s.agg.vote.decisions)
  ∧ (∀ s : State, s.agg.runs = true → s.agg.vote.adm.state = 1 → s.agg.allChecked = true →
    ∃ a, exec (.admitTestDone true) s = s.thenAgg a
      ∧ a.vote.adm = { s.agg.vote.adm with state := 2, step := 0, at_ := s.agg.u.clk })
  ∧ (∀ s : State, s.agg.runs = true → s.agg.vote.adm.state = 1 →
    ∃ a, exec (.admitTestDone false) s = s.thenAgg a ∧ a.u.bit Reg.votErr 7 = true
      ∧ a.vote.adm = { s.agg.vote.adm with state := 6, failed := true })
  ∧ (∀ s : State, s.agg.runs = true → s.agg.vote.adm.state = 2 → s.agg.vote.adm.step < 16 →
    s.agg.sweepPeriod ≤ s.agg.u.since s.agg.vote.adm.at_ →
    ∃ a, exec .sweepStep s = s.thenAgg a
      ∧ a.vote.adm = { s.agg.vote.adm with step := s.agg.vote.adm.step + 1, at_ := s.agg.u.clk }
      ∧ a.u.out = s.agg.u.out ++ [.sweep (sweepLevels (s.agg.vote.adm.step + 1)).1 (sweepLevels (s.agg.vote.adm.step + 1)).2])
  ∧ (∀ s : State, s.agg.runs = true → s.agg.vote.adm.state = 2 → 16 ≤ s.agg.vote.adm.step →
    s.agg.sweepPeriod ≤ s.agg.u.since s.agg.vote.adm.at_ → s.agg.vote.drift = [] →
    (∀ d ∈ s.agg.vote.dies, d.2.comps.getD 3 0 = 0) →
    ∃ a, exec .sweepEnd s = s.thenAgg a ∧ a.vote.adm = { s.agg.vote.adm with state := 3 })
  ∧ (∀ s : State, s.agg.runs = true → s.agg.vote.adm.state = 2 → 16 ≤ s.agg.vote.adm.step →
    s.agg.sweepPeriod ≤ s.agg.u.since s.agg.vote.adm.at_ → s.agg.vote.drift ≠ [] →
    ∃ a, exec .sweepEnd s = s.thenAgg a ∧ a.u.bit Reg.votErr 7 = true
      ∧ a.vote.adm = { s.agg.vote.adm with state := 6, failed := true })
  ∧ (∀ s : State, s.agg.runs = true → s.agg.vote.adm.step < 16 → exec .sweepEnd s = s.thenAgg s.agg)
  ∧ (∀ (s : State) (o : Origin), s.takes .agg o Reg.votAdmctl = true → s.agg.vote.adm.state = 3 →
    ∃ a q, exec (.admitLoaded o) s = s.thenAgg a ∧ a.vote.adm = { s.agg.vote.adm with state := 4 }
      ∧ Tab.find (trayAddr s.agg.tray).toNat a.vote.props = some q ∧ q.p.verd = 4 ∧ q.p.subj = trayAddr s.agg.tray)
  ∧ (∀ (s : State) (o : Origin), s.takes .agg o Reg.votAdmctl = true →
    ∃ a, exec (.admitAbort o) s = s.thenAgg a ∧ a.vote.adm.state = 0 ∧ a.vote.adm.step = 0
      ∧ ∀ p ∈ a.vote.props, p.2.p.verd ≠ 4)

/-- 18 R590-R592; 01 R38: the pair handshake, the operator certificate at the dies, fleet join. -/
def Obligations.PairHandshake : Prop :=
(∀ s : State, s.agg.runs = true → s.agg.pair.done = false →
    (∀ c, s.agg.pair.sent = some c → msT (if s.agg.pair.failed then 10 else 1) ≤ s.agg.u.since c) →
    ∃ b, b = { s.agg with pair := { s.agg.pair with sent := some s.agg.u.clk } }
      ∧ exec .pairhello s = s.thenAgg (b.send s.agg.partnerAddr 1 (.vote (s.agg.voteHead 0 0 0) (.hello s.agg.hello)) 0))
  ∧ (∀ (s : State) (i : FleetIn) (h : Hello), s.hears i = true → s.agg.helloBad h ≠ [] → s.agg.pair.done = false →
    ∃ a, exec (.pairhelloReceive i h) s = s.thenAgg a ∧ a.pair = { s.agg.pair with failed := true, hello := none })
  ∧ (∀ (s : State) (i : FleetIn) (h : Hello), s.hears i = true → s.agg.helloBad h = [] → h.ack = false →
    ∃ a, exec (.pairhelloReceive i h) s = s.thenAgg a ∧ a.pair = { s.agg.pair with hello := some h, failed := false })
  ∧ (∀ (s : State) (i : FleetIn) (h : Hello), s.hears i = true → s.agg.helloBad h = [] → h.ack = true → s.agg.pair.done = false →
    ∃ a, exec (.pairhelloReceive i h) s = s.thenAgg a ∧ a.pair.done = true
      ∧ a.u.pat.arbMinD = min s.agg.u.pat.arbMinD h.arbmind.toNat)
  ∧ (∀ s : State, s.agg.runs = true → s.agg.pair.done = false → s.agg.pair.alone = false → s.agg.pair.hello = none →
    s.agg.pair.failed = false → msT (s.agg.u.fld Reg.glbPairto 15 0) ≤ s.agg.u.since s.agg.pair.since →
    ∃ a, exec .pairTimeout s = s.thenAgg a ∧ a.pair.alone = true)
  ∧ (∀ (s : State) (side : Side) (x : PairUp), s.die.powered = true → s.die.u.raceUp side.ix = true → s.die.u.miswired = false → x.half = false →
    s.die.pw.half1 = none →
    exec (.pairup side x) s = s.thenDie { s.die with pw := { s.die.pw with half0 := some x } })
  ∧ (∀ (s : State) (side : Side) (x y : PairUp), s.die.powered = true → s.die.u.raceUp side.ix = true → s.die.u.miswired = false → x.half = true →
    s.die.pw.half0 = some y → y.issuer = x.issuer →
    ∃ d, exec (.pairup side x) s = s.thenDie d ∧ d.paired = (s.die.paired || operatorCert (y.cert ++ x.cert)))
  ∧ (∀ s : State, s.agg.runs = true → s.agg.joined = false → (s.agg.pair.done || s.agg.pair.alone) = true →
    s.agg.pair.failed = false → s.agg.joinPort = true → s.agg.ownSynced = true →
    ∃ a, exec .fleetJoin s = s.thenAgg a ∧ a.joined = true ∧ a.u.nodeOk = true ∧ a.u.node = s.agg.identity)

/-- 12 R438-R446: wait-for words of a die, the tray graph, the assembly at the deciders. -/
def Obligations.HangAnalysis : Prop :=
(∀ (s : State) (k : Fin 128) (w : Word), s.die.powered = true → s.die.wfgRuns = true →
    ∃ d, exec (.waitforSample [(k, w)]) s = s.thenDie d ∧ d.wfg.samples = (s.die.wfg.samples + 1) % 2 ^ 32
      ∧ Tab.getD d.wfg.agents k.val wfAgent0
          = (Tab.getD s.die.wfg.agents k.val wfAgent0).sample s.die.u.node k.val (s.die.u.fld Reg.wfgStable 3 0) w)
  ∧ (∀ s : State, s.die.powered = true → s.die.wfgRuns = true →
    ∃ d, exec (.waitforSample []) s = s.thenDie d ∧ d.wfg.edges = [] ∧ d.u = s.die.u)
  ∧ (∀ s : State, s.die.powered = true → s.die.wfgRuns = true → s.die.wfg.edges ≠ s.die.wfg.told →
    ∃ d, exec .waitforReport s = s.thenDie d
      ∧ ((d.u.stream 3).next ≠ (s.die.u.stream 3).next →
          d.wfg = { s.die.wfg with told := s.die.wfg.edges, toldAt := s.die.u.clk }))
  ∧ (∀ s : State, s.die.powered = true → s.die.wfgRuns = true → s.die.wfg.edges = s.die.wfg.told →
    s.die.u.since s.die.wfg.toldAt < msT (s.die.u.fld Reg.wfgRptper 15 0) → exec .waitforReport s = s.thenDie s.die)
  ∧ (∀ (s : State) (n : Nat), s.agg.runs = true → n = timeMs s.agg.u.tb.now / max 1 (s.agg.u.fld Reg.votHangper 15 0) →
    s.agg.hang.period ≠ some n → s.agg.assembles = true → s.agg.decides false = false → s.agg.decides true = false →
    (∀ x ∈ s.agg.hang.dies, s.agg.stale x.2 = false) → (trayExits s.agg.trayEdges s.agg.tray).length ≤ 1024 →
    ∃ b : Agg, exec .hangAssembly s = s.thenAgg (b.sendGraph s.agg.ctl (s.agg.voteHead 0 0 (n % 2 ^ 32)) .trayGraph
        ⟨BitVec.ofNat 64 n, 0, 1, trayCycles s.agg.trayEdges s.agg.tray, trayExits s.agg.trayEdges s.agg.tray⟩)
      ∧ b = { s.agg with hang := b.hang } ∧ b.hang.group = s.agg.hang.group)
  ∧ (∀ (s : State) (n : Nat), s.agg.runs = true → n = timeMs s.agg.u.tb.now / max 1 (s.agg.u.fld Reg.votHangper 15 0) →
    s.agg.hang.period = some n → exec .hangAssembly s = s.thenAgg s.agg)
  ∧ (∀ (s : State) (n : Nat), s.agg.runs = true → n = timeMs s.agg.u.tb.now / max 1 (s.agg.u.fld Reg.votHangper 15 0) →
    n < 2 ^ 64 → s.agg.hang.period ≠ some n → s.agg.decides false = true → s.agg.u.bit Reg.wfaCtrl 0 = true → s.agg.hang.group = none →
    ∃ a x, exec .hangAssembly s = s.thenAgg a ∧ a.hang.group = some x ∧ x.asmn = n ∧ x.from_ = [s.agg.u.node] ∧ x.closed = false)
  ∧ (∀ (s : State) (i : FleetIn) (h : VoteHead) (g : HangGraph) (x : Assembly), s.hears i = true → s.agg.decides false = true →
    s.agg.hang.group = some x → x.closed = false → x.asmn = g.asmn.toNat →
    ∃ a y, exec (.traygraph i h g) s = s.thenAgg a ∧ a.hang = { s.agg.hang with group := some y }
      ∧ y = { x with from_ := x.from_ ++ [h.eff.src], cycles := x.cycles ++ g.cycles, exits := x.exits ++ g.exits })
  ∧ (∀ (s : State) (i : FleetIn) (h : VoteHead) (g : HangGraph) (x : Assembly), s.hears i = true → s.agg.decides true = true →
    s.agg.hang.system = some x → x.closed = false → x.asmn = g.asmn.toNat →
    ∃ a y, exec (.groupgraph i h g) s = s.thenAgg a ∧ a.hang = { s.agg.hang with system := some y }
      ∧ y = { x with from_ := x.from_ ++ [h.eff.src], cycles := x.cycles ++ g.cycles, exits := x.exits ++ g.exits })
  ∧ (∀ (s : State) (x : Assembly), s.agg.runs = true → s.agg.hang.group = some x → x.closed = false → x.exits = [] →
    x.asked = [] → x.rsps = [] → s.agg.hang.system = none → usT 150 ≤ s.agg.u.since x.at_ →
    ∃ a, exec .collectionClose s = s.thenAgg a ∧ a.hang.group = none ∧ a.hang.kept = some { x with closed := true })
  ∧ (∀ (s : State) (i : FleetIn) (h : VoteHead) (n : BitVec 64) (ws : List Word), s.hears i = true → h.role ≠ 2 →
    s.agg.assembles = true →
    exec (.entryq i h n ws) s = s.thenAgg ((s.agg.receivedVote i [h.src]).sendWalks h.eff.src
      (s.agg.voteHead 0 0 (n.toNat % 2 ^ 32)) n.toNat (ws.map (s.agg.receivedVote i [h.src]).walkOf)))
  ∧ (∀ (s : State) (i : FleetIn) (h : VoteHead) (n : BitVec 64) (r : WalkRsp) (x : Assembly), s.hears i = true → h.role ≠ 1 →
    s.agg.decides false = true → s.agg.hang.group = some x → x.closed = false → x.asmn = n.toNat → r.stat ≠ 1 →
    (∀ q ∈ x.rsps, q.w ≠ r.w ∧ q.stat ≠ 1) → s.agg.hang.wanted = [] →
    ∃ a y, exec (.entryrsp i h n [r]) s = s.thenAgg a ∧ a.hang.group = some y ∧ y.rsps = x.rsps ++ [r]
      ∧ y.asked = x.asked.filter (fun w => !(r.w == w)) ∧ y.closed = false)

/-- 09 R341, R345-R350, R359, R360, R615; 14 R486: the die unit's side of the delivery guarantee. -/
def Obligations.DieDelivery : Prop :=
(∀ (s : State) (t : Nat) (x : Draft) (sp : Bool), s.die.powered = true → s.agg.runs = true → s.agg.u.recs.held = [] →
    s.die.u.recs.held = [(t, x, 0)] → s.die.u.nodeOk = true → s.die.u.hostOff = false →
    s.die.u.room .alarm (32 + x.payload.length) = some sp →
    ∃ d, exec .alarmHeldCommit s = .next { s with die := Die.settle s.die d, agg := Agg.settle s.agg s.agg }
      ∧ d.u.recs.held = [] ∧ (d.u.stream x.cls.code).next = (s.die.u.stream x.cls.code).next + 1)
  ∧ (∀ (s : State) (p : Part) (k : Nat) (e : EvEntry) (sp : Bool), s.on p = true → (s.part p).hostOff = false → (s.part p).evr.held = [(k, e)] →
    (s.part p).room .alarm (32 + (evBytes e).length) = some sp →
    ∃ u, exec (.heldEventCommit p) s = s.thenUnit p u ∧ u.evr.held = []
      ∧ (u.stream 0).next = ((s.part p).stream 0).next + 1)
  ∧ (∀ (s : State) (c : RecClass) (i : Nat) (e : LogEnt), s.die.powered = true → s.die.u.bit Reg.rasDmastat 2 = false →
    s.die.u.spilled c.code = some (i, e) →
    s.die.u.bufFill + e.size + (if c = .alarm then 0 else 32768) ≤ bufSize →
    exec (.spillReadback c) s = s.thenUnit .die (s.die.u.setEntry c.code i { e with spill := false }))
  ∧ (∀ (s : State) (c : RecClass) (side : Side) (r : Rec) (n : Nat), s.die.powered = true → s.die.u.nodeOk = true →
    s.die.paired = true → s.die.u.lnkRuns = true → s.die.u.raceReady side.ix c.code (if c.code = 0 then 64 else 2064) = true →
    (s.die.u.rport side.ix).window = none → ((s.die.head side).stream c.code).restart = false →
    ((s.die.head side).stream c.code).ofs = 0 → r.bytes.length ≤ 48 →
    (s.die.u.stream c.code).log[((s.die.head side).stream c.code).next]? = some ⟨.rcd r, n, false⟩ →
    ∃ d, exec (.recordSend c side) s = s.thenDie d
      ∧ d.u.out = s.die.u.out ++ [.recseg side.ix r.src c r.seq 0 true true r.bytes]
      ∧ ((d.head side).stream c.code).next = ((s.die.head side).stream c.code).next + 1 ∧ d.u.recs = s.die.u.recs)
  ∧ (∀ (s : State) (c : RecClass) (side : Side), s.die.powered = true → s.die.paired = false →
    exec (.recordSend c side) s = s.thenDie s.die)
  ∧ (∀ (d : Die) (cls : Nat), d.paired = false → d.releaseOf cls = d)
  ∧ (∀ (s : State) (side : Side) (k : Ack), s.die.powered = true → s.die.u.raceUp side.ix = true →
    addrEff k.dest ≠ s.die.u.node →
    exec (.ackReceive side k) s = s.thenDie ((s.die.heard side).onU fun u => (u.raceRx side.ix 1 44).addrs [k.dest]))
  ∧ (∀ (s : State) (side : Side) (k : Ack), s.die.powered = true → s.die.u.raceUp side.ix = true →
    addrEff k.dest = s.die.u.node → s.die.u.nodeOk = true →
    ∃ d, exec (.ackReceive side k) s = s.thenDie d ∧ (d.head side).reach = true ∧ (d.head side).seen = s.die.u.clk
      ∧ (d.head side).full = k.aflags.toNat.testBit 3)
  ∧ (∀ (s : State) (side : Side) (c : RecClass), s.die.powered = true → (s.die.head side).reach = true →
    s.die.outstanding side c.code = true → ((s.die.head side).full = false ∨ c = .alarm) →
    usT (s.die.u.fld Reg.recAckto 15 0) ≤ s.die.u.since ((s.die.head side).stream c.code).since →
    ∃ d, exec (.ackTimeout side c) s = s.thenDie d ∧ d.u.bit Reg.recErr 2 = true
      ∧ ((d.head side).stream c.code).next = s.die.firstOpen side c.code)
  ∧ (∀ (s : State) (side : Side), s.die.powered = true → (s.die.head side).reach = true →
    usT (s.die.u.fld Reg.recHeadto 15 0) ≤ s.die.u.since (s.die.head side).seen →
    ∃ d, exec (.headTimeout side) s = s.thenDie d ∧ (d.head side).reach = false ∧ d.u.bit Reg.recErr 3 = true)
  ∧ (∀ s : State, s.die.powered = true → (s.die.u.raceUp 0 || s.die.u.raceUp 1) = true →
    exec .powerfail s = s.thenUnit .die { s.die.u with recs := { s.die.u.recs with powerFail := true } })
  ∧ (∀ (s : State) (p : Part), s.on p = true → (s.part p).bit Reg.recCtrl 1 = true → (s.part p).nodeOk = true →
    (s.part p).hostOff = false →
    ∃ u, exec (.digest p) s = s.thenUnit p u
      ∧ ((u.stream 3).next ≠ ((s.part p).stream 3).next → u.recs.dign = (s.part p).recs.dign + 1))
  ∧ (∀ (s : State) (p : Part), s.on p = true → (s.part p).bit Reg.recCtrl 1 = false →
    exec (.digest p) s = s.thenUnit p (s.part p))

/-- 09 R346, R347, R349, R356, R359-R362; 18 R589, R593: the journal of an aggregator. -/
def Obligations.JournalWrites : Prop :=
(∀ (s : State) (p : Fin 8) (g : RecSeg) (b : List Byte) (r : Rec) (c : RecClass) (l : Seq), s.agg.runs = true →
    s.agg.u.raceUp p.val = true → kindOf g.orig = 0 → s.agg.journals = true →
    s.agg.joinSeg g = some b → g.last = true → Rec.parse b = some r → kindOf r.src = 0 → r.rclass = some c →
    r.chk = r.goodChk → r.classNo = 0 → s.agg.lastIn (jrnIx (addrEff r.src) c) = some l → r.seq = l + 1 →
    ∃ a, exec (.recordReceive p g) s = s.thenAgg a ∧ a.jrn.writes = s.agg.jrn.writes ++ [(jrnIx (addrEff r.src) c, .rcd r)]
      ∧ a.jrn.parts = Tab.del (jrnIx (addrEff g.orig) g.cls) s.agg.jrn.parts)
  ∧ (∀ (s : State) (p : Fin 8) (g : RecSeg) (b : List Byte) (r : Rec) (c : RecClass), s.agg.runs = true →
    s.agg.u.raceUp p.val = true → kindOf g.orig = 0 → s.agg.journals = true →
    s.agg.joinSeg g = some b → g.last = true → Rec.parse b = some r → kindOf r.src = 0 → r.rclass = some c →
    r.chk ≠ r.goodChk →
    ∃ a, exec (.recordReceive p g) s = s.thenAgg a ∧ a.jrn.writes = s.agg.jrn.writes
      ∧ (a.jst (jrnIx (addrEff r.src) c)).nack = true ∧ a.u.rd Reg.jrnChkcnt = satInc (s.agg.u.rd Reg.jrnChkcnt))
  ∧ (∀ (s : State) (p : Fin 8) (g : RecSeg) (b : List Byte) (r : Rec) (c : RecClass) (l : Seq), s.agg.runs = true →
    s.agg.u.raceUp p.val = true → kindOf g.orig = 0 → s.agg.journals = true →
    s.agg.joinSeg g = some b → g.last = true → Rec.parse b = some r → kindOf r.src = 0 → r.rclass = some c →
    r.chk = r.goodChk → s.agg.lastIn (jrnIx (addrEff r.src) c) = some l → seqLater r.seq l = true → r.seq ≠ l + 1 →
    ∃ a, exec (.recordReceive p g) s = s.thenAgg a ∧ a.jrn.writes = s.agg.jrn.writes
      ∧ (a.jst (jrnIx (addrEff r.src) c)).nack = true ∧ a.u.rd Reg.jrnGapcnt = satInc (s.agg.u.rd Reg.jrnGapcnt))
  ∧ (∀ (s : State) (p : Fin 8) (g : RecSeg), s.agg.runs = true → s.agg.u.raceUp p.val = true → kindOf g.orig = 0 →
    s.agg.journals = true → s.agg.joinSeg g = none →
    ∃ a, exec (.recordReceive p g) s = s.thenAgg a ∧ a.u.rd Reg.jrnChkcnt = satInc (s.agg.u.rd Reg.jrnChkcnt)
      ∧ a.jrn = { s.agg.jrn with parts := Tab.del (jrnIx (addrEff g.orig) g.cls) s.agg.jrn.parts })
  ∧ (∀ (s : State) (p : Fin 8) (g : RecSeg) (b : List Byte), s.agg.runs = true → s.agg.u.raceUp p.val = true →
    kindOf g.orig = 0 → s.agg.journals = true → s.agg.joinSeg g = some b → g.last = false →
    ∃ a, exec (.recordReceive p g) s = s.thenAgg a
      ∧ a.jrn = { s.agg.jrn with parts := Tab.put (jrnIx (addrEff g.orig) g.cls) b s.agg.jrn.parts })
  ∧ (∀ (a : Agg) (g : RecSeg) (b : List Byte), Tab.find (jrnIx (addrEff g.orig) g.cls) a.jrn.parts = some b →
    (g.first = true ∨ g.sofs.toNat ≠ b.length → a.joinSeg g = none)
    ∧ (g.first = false → g.sofs.toNat = b.length → a.joinSeg g = some (b ++ g.data)))
  ∧ (∀ (s : State) (i : Nat) (b : LogBody) (l : List (Nat × LogBody)), s.agg.runs = true → s.agg.jrn.writes = (i, b) :: l →
    i < 768 →
    ∃ a, exec .journalWrite s = s.thenAgg a ∧ a.jrn.writes = l ∧ (a.jst i).valid = true
      ∧ (a.jst i).jseq = some (match b with | .rcd r => r.seq | .void n => n))
  ∧ (∀ (s : State) (o : Node) (c : RecClass) (n : Seq), s.agg.runs = true → kindOf o = 0 → s.agg.journals = true →
    s.agg.u.raceUp (dieKey o / 32) = true →
    ∃ a, exec (.restartMarker o c false n) s = s.thenAgg a ∧ a.jrn.writes = s.agg.jrn.writes
      ∧ (a.jst (jrnIx (addrEff o) c)).nobase = false
      ∧ (a.jst (jrnIx (addrEff o) c)).base = !(s.agg.jst (jrnIx (addrEff o) c)).valid)
  ∧ (∀ (s : State) (o : Node) (c : RecClass) (n l : Seq), s.agg.runs = true → kindOf o = 0 → s.agg.journals = true →
    s.agg.u.raceUp (dieKey o / 32) = true → s.agg.lastIn (jrnIx (addrEff o) c) = some l → n = l + 1 →
    ∃ a, exec (.restartMarker o c true n) s = s.thenAgg a ∧ a.jrn.writes = s.agg.jrn.writes ++ [(jrnIx (addrEff o) c, .void n)])
  ∧ (∀ (s : State) (k : Fin 256), s.agg.runs = true → s.agg.reaches k.val = true → s.agg.journals = true →
    ∃ a, exec (.ackSend k) s = s.thenAgg a ∧ Tab.find k.val a.jrn.acked = some s.agg.u.clk
      ∧ ∀ c, c < 3 → (a.jst (3 * k.val + c)).nack = false)
  ∧ (∀ s : State, s.agg.runs = true →
    exec .journalReady s = s.thenAgg { s.agg with jrn := { s.agg.jrn with ready := true } })
  ∧ (∀ (s : State) (k : Nat), s.agg.runs = true → k = s.agg.u.tb.now * 10 / 2 ^ 32 → 0 < k → s.agg.u.nodeOk = true →
    (∀ b, s.agg.jrn.block = some b → b + 1 < k) →
    ∃ a, exec .seal s = s.thenAgg a ∧ a.jrn.block = some (k - 1) ∧ a.jrn.uncovered = s.agg.sealRest k ∧ a.jrn.prev.isSome = true
      ∧ a.jrn.streams = s.agg.jrn.streams)
  ∧ (∀ s : State, s.agg.runs = true → s.agg.jrn.warn = none →
    ∃ a, exec .powerFailWarning s = s.thenAgg a ∧ a.jrn = { s.agg.jrn with warn := some s.agg.u.clk })
  ∧ (∀ (s : State) (c : Nat), s.agg.runs = true → s.agg.jrn.warn = some c → msT 4 ≤ s.agg.u.since c →
    s.agg.jrn.flushing = false → s.agg.jrn.flushed = false →
    exec .flashFlush s = s.thenAgg { s.agg with jrn := { s.agg.jrn with flushing := true, flash := s.agg.undelivered } })
  ∧ (∀ (s : State) (b : Agg), s.agg.runs = true → s.agg.jrn.flushing = true →
    b = { s.agg with jrn := { s.agg.jrn with flushing := false, flushed := true } } →
    exec .flushComplete s = s.thenAgg (if s.agg.resetDue then b.sysReset 1 else b))
  ∧ (∀ s : State, s.agg.runs = true → s.agg.jrn.flushed = true →
    ∃ b : Agg, b = { s.agg with jrn := { s.agg.jrn with flash := [] } }
      ∧ exec .powerFailRecovery s = s.thenAgg (b.sysReset 4))

/-- 09 R340, R351-R354; 11 R396-R401: forwarding to the collectors, and the partner's journal state. -/
def Obligations.JournalForwarding : Prop :=
(∀ (s : State) (i p : Nat) (x : JStream) (n : Seq) (m : FleetMsg) (q : Agg × Bool), s.agg.runs = true → x = s.agg.jst i →
    x.port = some p → x.nextEnt = some (.void n) → x.fwd = true → x.sync = none → s.agg.portUp p = true →
    s.agg.joined = true → m = .fvoid x.src x.cls n →
    q = s.agg.enqueue p ⟨x.cls.code, BitVec.ofNat 24 (s.agg.sinkCol x.sink), true, false, m.len, m, some i, s.agg.u.tb.now⟩ →
    exec (.frecSend i) s = s.thenAgg (if q.2 then q.1.forwarded i (.void n) n else s.agg))
  ∧ (∀ (s : State) (i p : Nat) (x : JStream) (r : Rec) (q : Agg × Nat), s.agg.runs = true → x = s.agg.jst i →
    x.port = some p → x.nextEnt = some (.rcd r) → x.fwd = true → x.sync = none → s.agg.portUp p = true →
    s.agg.joined = true → q = s.agg.queueSegs i p x r x.sofs (r.bytes.length + 1) →
    exec (.frecSend i) s = s.thenAgg (if r.bytes.length ≤ q.2 then q.1.forwarded i (.rcd r) r.seq
      else q.1.setJst i { x with sofs := q.2 }))
  ∧ (∀ (s : State) (f : FleetIn) (e : StreamSeq), s.hears f = true → kindOf e.src = 0 →
    (s.agg.jst (jrnIx (addrEff e.src) e.cls)).src = addrEff e.src →
    (∀ q, (s.agg.jst (jrnIx (addrEff e.src) e.cls)).sseq = some q → seqLater e.seq q = true) →
    ∃ a, exec (.sack f [e]) s = s.thenAgg a ∧ (a.jst (jrnIx (addrEff e.src) e.cls)).sseq = some e.seq
      ∧ (a.jst (jrnIx (addrEff e.src) e.cls)).ents = sacked e.seq (s.agg.jst (jrnIx (addrEff e.src) e.cls)).ents)
  ∧ (∀ (s : State) (f : FleetIn) (e : StreamSeq), s.hears f = true → (s.agg.jst (jrnIx (addrEff e.src) e.cls)).src = addrEff e.src →
    (s.agg.jst (jrnIx (addrEff e.src) e.cls)).fwd = true →
    ∃ a, exec (.syncrsp f [e]) s = s.thenAgg a ∧ (a.jst (jrnIx (addrEff e.src) e.cls)).sync = none
      ∧ (a.jst (jrnIx (addrEff e.src) e.cls)).sent = some (e.seq - 1) ∧ (a.jst (jrnIx (addrEff e.src) e.cls)).sofs = 0)
  ∧ (∀ (s : State) (i c : Nat), s.agg.runs = true → (s.agg.jst i).sync = some c → (s.agg.jst i).fwd = true →
    usT (s.agg.u.fld Reg.jrnSyncto 15 0) ≤ s.agg.u.since c →
    ∃ a, exec (.syncTimeout i) s = s.thenAgg a ∧ a.u.bit Reg.jrnErr 5 = true ∧ (a.jst i).sync = some s.agg.u.clk
      ∧ (a.jst i).sent = none)
  ∧ (∀ (s : State) (i : Nat) (n m : Seq) (e : JEnt), s.agg.runs = true → (s.agg.jst i).sent = some n →
    (s.agg.jst i).ents.contains e = true → e.seq? = some m → seqLater m n = false → (s.agg.jst i).fwd = true →
    usT (s.agg.u.fld Reg.jrnSinkto 15 0) ≤ s.agg.u.since (s.agg.jst i).progress →
    ∃ a, exec (.sinkTimeout i) s = s.thenAgg a ∧ a.u.bit Reg.jrnErr 4 = true ∧ (a.jst i).sync = some s.agg.u.clk)
  ∧ (∀ s : State, s.agg.runs = true → s.agg.partner = true →
    ∃ a, exec .jstate s = s.thenAgg a ∧ a.jrn.lastState = s.agg.u.clk ∧ a.jrn.writes = s.agg.jrn.writes)
  ∧ (∀ (s : State) (f : FleetIn) (l : List JPair), s.hears f = true →
    ∃ a, exec (.jstateReceive f l) s = s.thenAgg a ∧ a.jrn = { s.agg.jrn with
      partner := (s.agg.jrn.partner.filter fun x => l.all fun y => decide (x.src ≠ y.src) || decide (x.cls ≠ y.cls)) ++ l })

/-- 10 R367-R369, R371, R372, R386-R388: training, loss and credits of a hop. -/
def Obligations.RaceHops : Prop :=
(∀ (s : State) (p : Part) (k : Fin 8) (peer : Peer), s.on p = true → (s.part p).lnkRuns = true →
    ((s.part p).rport k.val).state ≠ 2 → (s.part p).bit Reg.raceCtrl 0 = true →
    ∃ u, exec (.hopTrain p k peer) s = s.thenUnit p u ∧ (u.rport k.val).state = 1 ∧ (u.rport k.val).gen = 1
      ∧ (u.rport k.val).peer = peer.node ∧ (u.rport k.val).peerAgg = peer.agg ∧ u.regs = (s.part p).regs)
  ∧ (∀ (s : State) (p : Part) (k : Fin 8), s.on p = true → ((s.part p).rport k.val).state = 1 →
    usT 50 ≤ (s.part p).since ((s.part p).rport k.val).since →
    ∃ u, exec (.trainTimeout p k) s = s.thenUnit p u ∧ (u.rport k.val).state = 0)
  ∧ (∀ (s : State) (p : Part) (k : Fin 8), s.on p = true → (s.part p).lnkRuns = true → ((s.part p).rport k.val).state = 0 →
    (s.part p).bit Reg.raceCtrl 0 = true → (s.part p).bit Reg.raceCtrl 1 = true →
    msT 1 ≤ (s.part p).since ((s.part p).rport k.val).since →
    ∃ u, exec (.trainRetry p k) s = s.thenUnit p u ∧ (u.rport k.val).state = 1)
  ∧ (∀ (s : State) (p : Part) (k : Fin 8) (g : Nat), s.on p = true → (s.part p).lnkRuns = true → g = (s.part p).trainGen k.val →
    ((s.part p).rport k.val).state = 1 → (s.part p).hasGen g = true → ((s.part p).rport k.val).gens.testBit (g - 1) = true →
    ∃ u, exec (.hopUp p k) s = s.thenUnit p u ∧ (u.rport k.val).state = 2 ∧ (u.rport k.val).gen = g
      ∧ (u.rport k.val).cred = creditsFull)
  ∧ (∀ (s : State) (k : Fin 8) (burst : Bool), s.die.powered = true → s.die.u.raceUp k.val = true →
    ∃ u, exec (.hopDown .die k burst) s = s.thenUnit .die u ∧ (u.rport k.val).state = 0
      ∧ u.rdN Reg.raceAtLastdown k.val = (if burst then 2 else 1))
  ∧ (∀ (s : State) (k : Fin 8) (burst : Bool), s.agg.runs = true → s.agg.u.raceUp k.val = true →
    (s.agg.chain k.val).status = .complete →
    ∃ a, exec (.hopDown .agg k burst) s = s.thenAgg a ∧ (a.u.rport k.val).state = 0
      ∧ (a.chain k.val).status = .split ∧ (a.chain k.val).last = 0x3F)
  ∧ (∀ (s : State) (p : Part) (k : Fin 8), s.on p = true → (s.part p).raceUp k.val = false →
    exec (.hopDown p k false) s = s.thenUnit p (s.part p))
  ∧ (∀ (s : State) (k : Fin 8), s.die.powered = true → s.die.u.stalled k.val = true →
    ∃ u, exec (.creditStall .die k) s = s.thenUnit .die u ∧ (u.rport k.val).state = 0 ∧ u.bit Reg.raceErr 3 = true
      ∧ u.rdN Reg.raceAtLastdown k.val = 3)
  ∧ (∀ (s : State) (k : Fin 8), s.agg.runs = true → s.agg.u.stalled k.val = true →
    ∃ a, exec (.creditStall .agg k) s = s.thenAgg a ∧ (a.u.rport k.val).state = 0 ∧ a.u.bit Reg.raceErr 3 = true)
  ∧ (∀ (s : State) (p : Part) (k : Fin 8) (c : Fin 5) (n : BitVec 8) (x : RacePort), s.on p = true → x = (s.part p).rport k.val →
    x.state = 2 → x.wait = [] →
    exec (.creditWord p k c n) s = s.thenUnit p ((s.part p).setRport k.val { x with
      cred := x.cred.set c.val (min (creditsFull.getD c.val 0) (x.cred.getD c.val 0 + n.toNat)), credAt := (s.part p).clk }))
  ∧ (∀ (s : State) (p : Part) (o : Origin) (k : Nat), s.takes p o Reg.raceAtRetrain = true →
    (s.part p).selOf Reg.raceSel o = k → (s.part p).bit Reg.raceCtrl 0 = true → ((s.part p).rport k).state = 0 →
    (s.part p).justFell k = false →
    ∃ u, exec (.portRetrain p o) s = s.thenUnit p u ∧ (u.rport k).state = 1)
  ∧ (∀ (s : State) (o : Origin) (k : Nat), s.takes .die o Reg.raceAtRetrain = true → s.die.u.selOf Reg.raceSel o = k → k < 2 →
    s.die.u.bit Reg.raceCtrl 0 = false →
    ∃ u, exec (.portRetrain .die o) s = s.thenUnit .die u ∧ (u.rport k).state = 0)

/-- 10 R367, R368, R370, R374-R376, R379, R387: generations, frames that a die unit relays, BEATs, HOPDOWN and HOPUP.
-/
def Obligations.RaceFrames : Prop :=
(∀ (s : State) (g : BitVec 2) (t : BitVec 80), s.die.powered = true → s.die.u.miswired = false → g ≠ 0 →
    exec (.setgen g t) s = s.thenUnit .die { s.die.u with race := { s.die.u.race with
      setgen := Tab.put 0 (g.toNat, t.toNat) s.die.u.race.setgen } })
  ∧ (∀ (s : State) (p : Part) (k : Fin 8) (g t : Nat), s.on p = true →
    Tab.find ((s.part p).chainKey k.val) (s.part p).race.setgen = some (g, t) → t ≤ (s.part p).tb.now →
    Tab.find k.val (s.part p).race.switched ≠ some t → (s.part p).raceUp k.val = true →
    ∃ u, exec (.genSwitch p k false) s = s.thenUnit p u ∧ (u.rport k.val).state = 2 ∧ (u.rport k.val).gen = g
      ∧ u.chainGen k.val = g)
  ∧ (∀ (s : State) (k : Fin 8) (g t : Nat), s.die.powered = true →
    Tab.find (s.die.u.chainKey k.val) s.die.u.race.setgen = some (g, t) → t ≤ s.die.u.tb.now → s.die.u.raceUp k.val = true →
    Tab.find k.val s.die.u.race.switched ≠ some t →
    ∃ u, exec (.genSwitch .die k true) s = s.thenUnit .die u ∧ (u.rport k.val).state = 0 ∧ u.bit Reg.raceErr 5 = true
      ∧ u.chainGen k.val = g)
  ∧ (∀ (s : State) (p : Part) (k : Fin 8) (failed : Bool) (g t : Nat), s.on p = true →
    Tab.find ((s.part p).chainKey k.val) (s.part p).race.setgen = some (g, t) →
    ((s.part p).tb.now < t ∨ Tab.find k.val (s.part p).race.switched = some t) →
    exec (.genSwitch p k failed) s = s.thenUnit p (s.part p))
  ∧ (∀ (s : State) (side : Side) (f : RaceFrame), s.die.powered = true → s.die.u.raceUp side.ix = true →
    s.die.u.lnkRuns = true → runnerFrame f = false → f.hchkOk = false →
    exec (.frameRelay side f) s = s.thenUnit .die (((((s.die.u.raceBad side.ix).count Reg.raceAtHdrerr side.ix).err
      Reg.raceErr 0).giveCredit (some side.ix) f.cls.toNat (unitsOf (frameBytes f))).burst side.ix))
  ∧ (∀ (s : State) (p : Nat), s.die.powered = true → p < 2 → 16 ≤ (s.die.u.rport p).bad → s.die.u.raceUp p = true →
    (s.die.u.burst p).raceUp p = false)
  ∧ (∀ (s : State) (side : Side) (f : RaceFrame), s.die.powered = true → s.die.u.raceUp side.ix = true →
    s.die.u.lnkRuns = true → runnerFrame f = false → f.hchkOk = true → frameOk f = true → headOf f.orig = none →
    f.cut = false → f.crcOk = true → f.ftype ≠ 0x13 →
    exec (.frameRelay side f) s = s.thenUnit .die (((s.die.u.raceArr side.ix).raceTx side.other.ix f.cls.toNat
      (12 + f.len.toNat) (.relay side.other.ix f true) (some side.ix)).burst side.ix))
  ∧ (∀ (s : State) (side : Side) (f : RaceFrame), s.die.powered = true → s.die.u.raceUp side.ix = true →
    s.die.u.lnkRuns = true → f.hchkOk = true → frameOk f = true → headOf f.orig = none → f.cut = false → f.crcOk = true →
    f.ftype = 0x13 → s.die.u.nodeOk = true → addrEff f.dest = s.die.u.node →
    exec (.frameRelay side f) s = s.thenUnit .die ((((s.die.u.raceArr side.ix).addrs [f.dest]).giveCredit (some side.ix)
      f.cls.toNat (unitsOf (frameBytes f))).burst side.ix))
  ∧ (∀ s : State, s.die.powered = true → s.die.u.lnkRuns = true →
    exec .beat s = s.thenUnit .die ((s.die.u.raceOwn 0 3 20 (.beat 0)).raceOwn 1 3 20 (.beat 1)))
  ∧ (∀ (s : State) (k : Fin 8) (o : Node) (side : Side) (c : BitVec 8), s.agg.runs = true → s.agg.u.raceUp k.val = true →
    side ≠ s.agg.side → (s.agg.chain k.val).status = .complete →
    ∃ a, exec (.hopdownReceive k o side c) s = s.thenAgg a ∧ (a.chain k.val).status = .split
      ∧ (a.chain k.val).last = bitsOf o.toNat 6 2)
  ∧ (∀ (s : State) (k : Fin 8) (o : Node), s.agg.runs = true → s.agg.u.raceUp k.val = true → s.agg.side = .a →
    ∃ a, exec (.hopupReceive k o) s = s.thenAgg a ∧ (a.chain k.val).enumAt = some s.agg.u.clk)
  ∧ (∀ (s : State) (k : Fin 8) (o : Node), s.agg.runs = true → s.agg.u.raceUp k.val = true → s.agg.side = .b →
    exec (.hopupReceive k o) s = s.thenAgg ((s.agg.heardDie o).onU fun u => u.raceRx k.val 0 28))

/-- 01 R30-R34: enumeration of a chain. -/
def Obligations.Enumeration : Prop :=
(∀ (s : State) (k : Fin 8), s.agg.runs = true → s.agg.side = .a → s.agg.u.raceUp k.val = true →
    ∃ a, exec (.enumStart k) s = s.thenAgg a ∧ (a.chain k.val).enumAt = some s.agg.u.clk
      ∧ a.u = s.agg.u.raceOwn k.val 1 20 (.enum k.val (s.agg.enumMsg k.val 7)))
  ∧ (∀ (s : State) (e : EnumMsg) (n : Node), s.die.powered = true → s.die.u.raceUp Side.a.ix = true → e.side = .a →
    s.die.u.miswired = false → enumAddr e = some n →
    ∃ d, exec (.enum .a e) s = s.thenDie d ∧ d.u.node = n ∧ d.u.nodeOk = true ∧ d.u.race.len = e.len.toNat)
  ∧ (∀ (s : State) (e : EnumMsg), s.die.powered = true → s.die.u.raceUp Side.b.ix = true → e.side = .b →
    s.die.u.miswired = false → s.die.u.nodeOk = true → enumAddr e ≠ some s.die.u.node →
    ∃ d, exec (.enum .b e) s = s.thenDie d ∧ d.u.nodeOk = false ∧ d.u.miswired = true ∧ d.u.checked = false)
  ∧ (∀ (s : State) (e : EnumMsg), s.die.powered = true → s.die.u.raceUp Side.b.ix = true → e.side = .b →
    s.die.u.miswired = false → s.die.u.nodeOk = true → enumAddr e = some s.die.u.node →
    ∃ d, exec (.enum .b e) s = s.thenDie d ∧ d.u.node = s.die.u.node ∧ d.u.nodeOk = true ∧ d.u.miswired = false
      ∧ d.u.checked = s.die.u.race.apass)
  ∧ (∀ (s : State) (k : Fin 8) (e : EnumMsg), s.agg.runs = true → s.agg.side = .b → e.side = .a → s.agg.u.raceUp k.val = true →
    ∃ a, exec (.enumComplete k e) s = s.thenAgg a
      ∧ (a.chain k.val).status = (if s.agg.enumAgrees k.val e then .complete else .miswired))
  ∧ (∀ (s : State) (k : Fin 8) (e : EnumMsg), s.agg.runs = true → s.agg.side = .a → e.side = .b → s.agg.u.raceUp k.val = true →
    ∃ a, exec (.bPassEnd k e) s = s.thenAgg a ∧ (a.chain k.val).enumAt = none
      ∧ (a.chain k.val).status = (if s.agg.enumAgrees k.val e then .complete else .miswired))
  ∧ (∀ (s : State) (k : Fin 8) (c : Nat), s.agg.runs = true → s.agg.side = .a → (s.agg.chain k.val).enumAt = some c →
    usT 200 ≤ s.agg.u.since c → (s.agg.chain k.val).status ≠ .miswired →
    ∃ a, exec (.enumTimeout k) s = s.thenAgg a ∧ (a.chain k.val).status = .split
      ∧ (a.chain k.val).last = s.agg.lastReached k.val ∧ (a.chain k.val).enumAt = none)
  ∧ (∀ (s : State) (k : Fin 8), s.agg.runs = true → s.agg.side = .b → s.agg.u.raceUp k.val = true →
    (s.agg.chain k.val).bAt = none → (s.agg.chain k.val).status ≠ .miswired →
    ∃ a, exec (.enumTimeout k) s = s.thenAgg a ∧ (a.chain k.val).status = .split
      ∧ (a.chain k.val).last = s.agg.lastReached k.val ∧ (a.chain k.val).bAt = some s.agg.u.clk)
  ∧ (∀ (s : State) (k : Fin 8), s.agg.runs = true → (s.agg.chain k.val).status = .miswired →
    ∃ a, exec (.enumTimeout k) s = s.thenAgg a ∧ (a.chain k.val).status = .miswired)
  ∧ (∀ (s : State) (k : Fin 8) (g : BitVec 3), s.agg.runs = true → s.agg.side = .b → s.agg.u.raceUp k.val = true →
    (s.agg.pair.alone = true
      ∨ (s.agg.chain k.val).aSent = false ∧ msT 10 ≤ s.agg.u.since (s.agg.u.rport k.val).since) →
    (s.agg.chain k.val).status ≠ .miswired →
    ∃ a, exec (.enumAlone k g) s = s.thenAgg a ∧ (a.chain k.val).status = .split
      ∧ (a.chain k.val).last = s.agg.lastReached k.val ∧ (a.chain k.val).bAt = some s.agg.u.clk)
  ∧ (∀ (s : State) (k : Fin 8) (g : BitVec 3), s.agg.runs = true → s.agg.pair.alone = false →
    (s.agg.chain k.val).aSent = true → exec (.enumAlone k g) s = s.thenAgg s.agg)
  ∧ (∀ (a : Agg) (n : Node) (t : Nat), (a.chain (dieKey n / 32)).bAt = some t → (a.chain (dieKey n / 32)).status = .split →
    dieKey n % 32 < (a.chain (dieKey n / 32)).last → a.u.since t < usT (3 * a.u.fld Reg.raceBeatper 7 0) →
    ((a.heardDie n).chain (dieKey n / 32)).last = dieKey n % 32)
  ∧ (∀ e : EnumMsg, e.side = .a → e.h.toNat < 32 → enumAddr e
      = some (BitVec.ofNat 24 (e.g.toNat * 65536 + e.t.toNat * 1024 + e.p.toNat * 128 + e.h.toNat * 4)))

/-- 01 R48-R52; 10 R375: the proxy path. -/
def Obligations.ProxyPath : Prop :=
(∀ (s : State) (x : ProxyAcc), s.agg.runs = true → x.o.suits .agg = true → s.agg.pxTarget x.slot.val = none → x.data = none →
    exec (.proxyAccess x) s = s.thenUnit .agg (s.agg.u.accErr.answer 0))
  ∧ (∀ (s : State) (x : ProxyAcc) (p d : Nat), s.agg.runs = true → x.o.suits .agg = true →
    s.agg.pxTarget x.slot.val = some (p, d) → s.agg.pxNoAddr p d = true → x.data = none →
    x.size ≤ 4 → Tab.getD s.agg.px x.slot.val [] = [] →
    ∃ a, exec (.proxyAccess x) s = s.thenAgg a ∧ a.u.resp = 0xFFFFFFFF ∧ a.u.bit Reg.glbPxstat (16 + x.slot.val) = true)
  ∧ (∀ (s : State) (x : ProxyAcc) (p d : Nat), s.agg.runs = true → x.o.suits .agg = true →
    s.agg.pxTarget x.slot.val = some (p, d) → s.agg.pxNoAddr p d = true → x.data = none →
    x.size = 8 → 0x20000 ≤ x.ofs.toNat → x.ofs.toNat % 8 = 0 → Tab.getD s.agg.px x.slot.val [] = [] →
    ∃ a, exec (.proxyAccess x) s = s.thenAgg a ∧ a.u.resp = 0xFFFFFFFFFFFFFFFF)
  ∧ (∀ (s : State) (x : ProxyAcc) (p d : Nat) (q : PxReq) (t : List PxReq), s.agg.runs = true → x.o.suits .agg = true →
    s.agg.pxTarget x.slot.val = some (p, d) → s.agg.pxNoAddr p d = true → Tab.getD s.agg.px x.slot.val [] = q :: t →
    q.bad = false →
    ∃ a, exec (.proxyAccess x) s = s.thenAgg a ∧ a.u = s.agg.u)
  ∧ (∀ (s : State) (x : ProxyAcc) (p d : Nat), s.agg.runs = true → x.o.suits .agg = true →
    s.agg.pxTarget x.slot.val = some (p, d) → s.agg.pxNoAddr p d = false → (x.data.isSome ∨ x.size ≤ 4) →
    exec (.proxyAccess x) s = s.thenAgg (s.agg.proxySend x.slot.val p d x.ofs.toNat x.data false 0))
  ∧ (∀ (s : State) (side : Side) (src : Node) (slot : Fin 16) (ofs : BitVec 20) (e d : Die), s.die.powered = true →
    s.die.u.raceUp side.ix = true → s.die.u.nodeOk = true → s.die.proxyMaps ofs.toNat = true →
    e = ((s.die.heard side).onU fun u => (u.raceRx side.ix 1 28).addrs [src]) →
    d = e.read (.proxy side (addrEff src)) ofs.toNat 4 →
    exec (.pxrd side src slot false ofs) s = s.thenDie { d with
      u := d.u.raceOwn side.ix 1 24 (.pxrsp side.ix slot.val false false d.u.resp) })
  ∧ (∀ (s : State) (side : Side) (src : Node) (slot : Fin 16) (ofs : BitVec 20) (v : Word) (e d : Die), s.die.powered = true →
    s.die.u.raceUp side.ix = true → s.die.u.nodeOk = true → s.die.proxyMaps ofs.toNat = true →
    e = ((s.die.heard side).onU fun u => (u.raceRx side.ix 1 32).addrs [src]) →
    d = e.write (.proxy side (addrEff src)) ofs.toNat 4 v →
    exec (.pxwr side src slot ofs v) s = s.thenDie { d with
      u := d.u.raceOwn side.ix 1 24 (.pxrsp side.ix slot.val false false 0) })
  ∧ (∀ (s : State) (side : Side) (src : Node) (slot : Fin 16) (ofs : BitVec 20) (v : Word), s.die.powered = true →
    s.die.u.raceUp side.ix = true → s.die.u.nodeOk = false →
    exec (.pxrd side src slot false ofs) s = s.thenDie ((s.die.heard side).onU fun u => u.raceRx side.ix 1 28)
    ∧ exec (.pxwr side src slot ofs v) s = s.thenDie ((s.die.heard side).onU fun u => u.raceRx side.ix 1 32))
  ∧ (∀ (s : State) (slot : Fin 16) (refused : Bool) (data : BitVec 64) (q : PxReq) (t : List PxReq), s.agg.runs = true →
    Tab.getD s.agg.px slot.val [] = q :: t → q.write = false → q.wide = false → q.word = 0 → q.edit = none →
    (∀ x ∈ t, x.bad = false) →
    ∃ a, exec (.pxrsp slot refused false data) s = s.thenAgg a ∧ Tab.find slot.val a.px = some t
      ∧ a.u.resp = BitVec.ofNat 64 (if refused then 0 else data.toNat % 2 ^ 32))
  ∧ (∀ (s : State) (slot : Fin 16) (q : PxReq) (t : List PxReq), s.agg.runs = true → Tab.getD s.agg.px slot.val [] = q :: t →
    usT 50 ≤ s.agg.u.since q.at_ → q.edit = none → q.word = 0 → (∀ x ∈ t, x.bad = false) →
    ∃ a, exec (.proxyTimeout slot) s = s.thenAgg a ∧ Tab.find slot.val a.px = some t ∧ a.u.bit Reg.glbPxstat slot.val = true
      ∧ (q.write = false → q.wide = false → a.u.resp = 0xFFFFFFFF)
      ∧ (q.write = false → q.wide = true → a.u.resp = 0xFFFFFFFFFFFFFFFF))

/-- 11 R391-R396, R401-R405: fleet ports. -/
def Obligations.FleetPorts : Prop :=
(∀ (s : State) (k : Fin 8) (sp : BitVec 2) (fec : BitVec 3), s.agg.runs = true → s.agg.u.bit Reg.fltAtCfg 31 k.val = true →
    s.agg.u.bit Reg.fltCtrl 0 = true → (s.agg.port k.val).state ≠ 2 → s.agg.cfgBad k.val = false →
    (s.agg.u.fld Reg.fltAtCfg 29 28 k.val = 0 ∨ s.agg.u.fld Reg.fltAtCfg 29 28 k.val = sp.toNat) →
    fecOk sp.toNat fec.toNat = true → (s.agg.sluice k.val).oper = none →
    ∃ a, exec (.fleetPortUp k sp fec) s = s.thenAgg a ∧ (a.port k.val).state = 2 ∧ (a.port k.val).speed = sp.toNat
      ∧ (a.port k.val).fec = fecOf sp.toNat fec.toNat)
  ∧ (∀ (s : State) (k : Fin 8) (sp : BitVec 2) (fec : BitVec 3), s.agg.runs = true → s.agg.u.bit Reg.fltAtCfg 31 k.val = true →
    s.agg.u.bit Reg.fltCtrl 0 = true → (s.agg.port k.val).state ≠ 2 → s.agg.cfgBad k.val = true →
    ∃ a, exec (.fleetPortUp k sp fec) s = s.thenAgg a ∧ (a.port k.val).cfgErr = true
      ∧ (a.port k.val).state = (s.agg.port k.val).state ∧ a.u.bit Reg.fltErr 7 = true)
  ∧ (∀ (s : State) (k : Fin 8), s.agg.runs = true →
    ∃ a, exec (.fleetPortDown k) s = s.thenAgg a ∧ (a.port k.val).state = 0 ∧ a.u.bit Reg.hltAggerr 2 = true)
  ∧ (∀ (s : State) (k : Fin 8) (an : BitVec 2), s.agg.runs = true → s.agg.u.inReset 5 = false →
    exec (.mkaKeyInstall k .gcm128 an) s = s.thenUnit .agg ((s.agg.u.err Reg.fltErr 6).alarm .keyRej))
  ∧ (∀ (s : State) (k : Fin 8) (an : BitVec 2), s.agg.runs = true → s.agg.u.inReset 5 = false →
    s.agg.portUp k.val = true → s.agg.u.bit Reg.fltAtMsecctl 0 k.val = true →
    exec (.mkaKeyInstall k .gcm256 an) s
      = s.thenAgg (s.agg.setPort k.val { s.agg.port k.val with msec := ⟨true, true, false, an.toNat, 0, false⟩ })
    ∧ exec (.mkaKeyInstall k .xpn256 an) s
      = s.thenAgg (s.agg.setPort k.val { s.agg.port k.val with msec := ⟨true, true, true, an.toNat, 0, false⟩ }))
  ∧ (∀ (s : State) (k : Fin 8) (x : FPort), s.agg.runs = true → x = s.agg.port k.val → x.msec.keyed = true →
    (if x.msec.xpn then 0xC000000000000000 else 0xC0000000) ≤ x.msec.pn →
    exec (.macsecRekey k) s = s.thenAgg (s.agg.setPort k.val { x with msec := { x.msec with rekey := true } }))
  ∧ (∀ (s : State) (k : Fin 8), s.agg.runs = true → s.agg.pnOut k.val = true →
    ∃ a, exec (.pnExhausted k) s = s.thenAgg a ∧ (a.port k.val).state = 0 ∧ a.u.bit Reg.fltErr 3 = true
      ∧ a.u.out = s.agg.u.out ++ [.alarm .pnExh])
  ∧ (∀ (s : State) (k : Fin 8), s.agg.runs = true → s.agg.pnOut k.val = false → exec (.pnExhausted k) s = s.thenAgg s.agg)
  ∧ (∀ (s : State) (k : Fin 8), s.agg.runs = true →
    exec (.fleetFrameDiscard k .pause) s = s.thenUnit .agg ((s.agg.u.count Reg.fltAtPausecnt k.val).err Reg.fltErr 4)
    ∧ exec (.fleetFrameDiscard k .badHeader) s = s.thenUnit .agg ((s.agg.u.count Reg.fltAtHdrerr k.val).err Reg.fltErr 0)
    ∧ exec (.fleetFrameDiscard k .fcs) s = s.thenUnit .agg ((s.agg.u.count Reg.fltAtFcserr k.val).err Reg.fltErr 1)
    ∧ exec (.fleetFrameDiscard k .msec) s = s.thenUnit .agg ((s.agg.u.count Reg.fltAtMsecerr k.val).err Reg.fltErr 2)
    ∧ exec (.fleetFrameDiscard k .vlan) s = s.thenUnit .agg s.agg.u
    ∧ ∀ w, w = .lldp ∨ w = .foreignDest ∨ w = .poolFull ∨ w = .recordClass →
        exec (.fleetFrameDiscard k w) s = s.thenUnit .agg ((s.agg.u.count Reg.fltRxdrop).err Reg.fltErr 5))

/-- 11 R407-R412: the Sluice. -/
def Obligations.Sluice : Prop :=
(∀ (s : State) (o : Origin) (k : Nat), s.takes .agg o Reg.sluAtArm = true → s.agg.u.selOf Reg.sluSel o = k →
    (∀ g, (s.agg.sluice k).pend = some g → s.agg.u.tb.now < g.start) → s.agg.listOk k (s.agg.admList k) = true → s.agg.u.tb.now + nsUp 1000 ≤ s.agg.admBase k →
    ∃ a, exec (.gclArm o) s = s.thenAgg a
      ∧ (a.sluice k).pend = some ⟨s.agg.admList k, s.agg.admBase k, s.agg.admBase k⟩
      ∧ (a.sluice k).oper = (s.agg.sluice k).oper)
  ∧ (∀ (s : State) (o : Origin) (k : Nat), s.takes .agg o Reg.sluAtArm = true → s.agg.u.selOf Reg.sluSel o = k →
    (∀ g, (s.agg.sluice k).pend = some g → s.agg.u.tb.now < g.start) → s.agg.listOk k (s.agg.admList k) = false →
    ∃ a, exec (.gclArm o) s = s.thenAgg a ∧ a.slu = s.agg.slu ∧ a.u.bit Reg.sluErr 0 = true)
  ∧ (∀ (s : State) (o : Origin) (k : Nat) (g : Gcl), s.takes .agg o Reg.sluAtArm = true → s.agg.u.selOf Reg.sluSel o = k →
    (s.agg.sluice k).pend = some g → s.agg.u.tb.now < g.start →
    ∃ a, exec (.gclCancel o) s = s.thenAgg a ∧ a.sluice k = { s.agg.sluice k with pend := none })
  ∧ (∀ (s : State) (k : Fin 8) (g : Gcl), s.agg.runs = true → (s.agg.sluice k.val).pend = some g → g.start ≤ s.agg.u.tb.now →
    exec (.gclTakeover k) s = s.thenAgg (s.agg.setSlu k.val { s.agg.sluice k.val with
      pend := none, oper := some g, cur := 0, open_ := !s.agg.runsFit k.val g.ents }))
  ∧ (∀ (s : State) (k : Fin 8) (g : Gcl), s.agg.runs = true → (s.agg.sluice k.val).pend = some g → s.agg.u.tb.now < g.start →
    exec (.gclTakeover k) s = s.thenAgg s.agg)
  ∧ (∀ (s : State) (k : Fin 8) (g : Gcl), s.agg.runs = true → (s.agg.sluice k.val).oper = some g →
    exec (.gateEntry k) s = s.thenAgg (s.agg.setSlu k.val { s.agg.sluice k.val with cur := g.entry s.agg.u.tb.now }))
  ∧ (∀ (s : State) (k : Fin 8) (f : TxFrame), s.agg.runs = true → s.agg.portUp k.val = true →
    s.agg.u.bit Reg.fltCtrl 0 = true → f.ptp = false → (s.agg.port k.val).busy ≤ s.agg.u.tb.now → s.agg.nextFrame k.val = some f →
    ∃ a, exec (.frameStart k) s = s.thenAgg a
      ∧ a.u.out = s.agg.u.out ++ [.fleet k.val (s.agg.ethHead k.val f) f.msg]
      ∧ (a.port k.val).queue f.cls = ((s.agg.port k.val).queue f.cls).drop 1
      ∧ (a.port k.val).pseq = ((s.agg.port k.val).pseq + 1) % 2 ^ 32
      ∧ (a.port k.val).busy = s.agg.u.tb.now + s.agg.timeOf k.val (s.agg.wireLen k.val f))
  ∧ (∀ (s : State) (k : Fin 8) (f : TxFrame), s.agg.runs = true → s.agg.portUp k.val = true →
    s.agg.u.bit Reg.fltCtrl 0 = true → f.ptp = true → (s.agg.port k.val).busy ≤ s.agg.u.tb.now →
    s.agg.nextFrame k.val = some f →
    ∃ a, exec (.frameStart k) s = s.thenAgg a ∧ a.u.out = s.agg.u.out ++ [.delayReq k.val]
      ∧ (a.port k.val).pseq = (s.agg.port k.val).pseq ∧ (a.port k.val).msec = (s.agg.port k.val).msec)
  ∧ (∀ (s : State) (k : Fin 8), s.agg.runs = true → s.agg.u.tb.now < (s.agg.port k.val).busy →
    exec (.frameStart k) s = s.thenAgg s.agg)
  ∧ (∀ (s : State) (k : Fin 8) (c : Fin 5), s.agg.runs = true → s.agg.u.ep.lastMain = s.agg.sluEpoch →
    ∃ a, exec .queueSample s = s.thenAgg a ∧ a.u = s.agg.u ∧ a.ports = s.agg.ports
      ∧ (Tab.getD (a.sluice k.val).q c.val qstat0).n = satN 32 ((Tab.getD (s.agg.sluice k.val).q c.val qstat0).n + 1)
      ∧ (Tab.getD (a.sluice k.val).q c.val qstat0).maxd
          = max (Tab.getD (s.agg.sluice k.val).q c.val qstat0).maxd (s.agg.depth k.val c.val))
  ∧ (∀ mask : Nat, gateIn mask 0 = true)

/-- 12 R416-R427, R433: packets, staging, the trace region. -/
def Obligations.TraceStreams : Prop :=
(∀ (s : State) (c : Fin 32) (x : TraceSlot), s.die.powered = true → s.die.trcRuns = true → s.die.trc.session = none →
    ∃ d, exec (.traceEvent c [x]) s = s.thenDie d ∧ d.u = s.die.u
      ∧ d.ts c.val = { s.die.ts c.val with ctx := ⟨x.gen.toNat, x.thr.toNat, x.priv.toNat, x.privd⟩ })
  ∧ (∀ (s : State) (c : Fin 32) (x : TraceSlot) (k : BitVec 3) (tgt : BitVec 64), s.die.powered = true →
    s.die.tracing c.val = true → x.ev = .indirect k tgt →
    (s.die.ts c.val).ctx = ⟨x.gen.toNat, x.thr.toNat, x.priv.toNat, x.privd⟩ → s.die.visible (s.die.ts c.val).ctx = true →
    (s.die.ts c.val).hidden = false → (s.die.ts c.val).lost = none → (s.die.ts c.val).run = none →
    (s.die.ts c.val).lastTime = none → (s.die.ts c.val).full = [] → (s.die.ts c.val).cur.data = [] →
    s.die.u.bit Reg.trcAtCfg 2 c.val = true → (s.die.ts c.val).sinceSync + 9 < s.die.u.fld Reg.trcSyncper 15 0 →
    ∃ d, exec (.traceEvent c [x]) s = s.thenDie d
      ∧ (d.ts c.val).cur.data = leBytes 1 (0x30 + k.toNat) ++ leBytes 8 tgt.toNat ∧ (d.ts c.val).ref = tgt.toNat
      ∧ (d.ts c.val).ofs = (s.die.ts c.val).ofs + 9)
  ∧ (∀ (s : State) (c : Fin 32) (b : TBlock) (l : List TBlock), s.die.powered = true → s.die.trcRuns = true →
    s.die.trc.halted = false → (s.die.ts c.val).full = b :: l → (s.die.ts c.val).lost = none →
    (s.die.ts c.val).area.length < s.die.areaBlocks →
    ∃ d, exec (.blockDrain c) s = s.thenDie d ∧ (d.ts c.val).full = l ∧ (d.ts c.val).area = (s.die.ts c.val).area ++ [b])
  ∧ (∀ (s : State) (c : Fin 32), s.die.powered = true → s.die.trcRuns = true → s.die.trc.halted = false →
    usT 10 ≤ s.die.u.since (s.die.ts c.val).idle → (s.die.ts c.val).full = [] → (s.die.ts c.val).cur.data ≠ [] →
    (s.die.ts c.val).lost = none → (s.die.ts c.val).area.length < s.die.areaBlocks →
    ∃ d, exec (.drainIdle c) s = s.thenDie d ∧ (d.ts c.val).full = [] ∧ (d.ts c.val).cur.data = []
      ∧ (d.ts c.val).area.length = (s.die.ts c.val).area.length + 1)
  ∧ (∀ (s : State) (c : Fin 32) (b : TBlock) (l : List TBlock), s.die.powered = true → s.die.trcRuns = true →
    (s.die.ts c.val).area = b :: l → s.die.u.fld Reg.trcCtrl 2 1 = 2 → (s.die.ts c.val).offered = none →
    ∃ d, exec (.traceRecord c) s = s.thenDie d ∧ s.die.u.Noted d.u
      ∧ (d.ts c.val).offered = some (takeBlocks b.ofs b.classU (s.die.u.fld Reg.trcRecmax 13 0 / 512) (b :: l)).length)
  ∧ (∀ s : State, s.die.powered = true →
    ∃ d, exec .drainHalt s = s.thenDie d ∧ d.trc = { s.die.trc with halted := true } ∧ d.u.bit Reg.trcErr 5 = true)
  ∧ (∀ (s : State) (o : Origin), s.takes .die o Reg.trcCtrl = true → s.die.u.bit Reg.trcCtrl 0 = false →
    ∃ d, exec (.traceResume o) s = s.thenDie d ∧ d.trc = { s.die.trc with halted := false } ∧ d.u.bit Reg.trcCtrl 0 = true)
  ∧ (∀ (s : State) (c : Fin 32) (enter : Bool) (st : BitVec 4), s.die.powered = true →
    ∃ d, exec (.coreLowPower c enter st) s = s.thenDie d ∧ (d.ts c.val).low = (if enter then some st.toNat else none)
      ∧ d.trc.session = s.die.trc.session)

/-- 12 R428-R432: debug tokens and sessions. 12 R434-R437, R449: watchpoints. -/
def Obligations.SessionsAndWatchpoints : Prop :=
  (∀ (s : State) (o : Origin), s.takes .die o Reg.trcTokctl = true → s.die.trc.token = none → s.die.trc.session = none →
    ∃ d b, exec (.tokenVerify o) s = s.thenDie d ∧ d.trc = { s.die.trc with token := some ⟨b, 1⟩ }
      ∧ b = ((List.range 40).map fun i => leBytes 4 (s.die.u.rdN Reg.trcTokdata i)).flatten)
  ∧ (∀ (s : State) (b : List Byte), s.die.powered = true → s.die.trc.token = some ⟨b, 1⟩ →
    ∃ d, exec .tokenVerified s = s.thenDie d
      ∧ d.trc = { s.die.trc with token := some ⟨b, if s.die.tokenValid b then 2 else 3⟩ }
      ∧ (s.die.tokenValid b = false → d.u.bit Reg.trcErr 2 = true))
  ∧ (∀ (s : State) (o : Origin), s.takes .die o Reg.trcTokctl = true → s.die.trc.session = none →
    ∃ d, exec (.tokenClear o) s = s.thenDie d ∧ d.trc = { s.die.trc with token := none })
  ∧ (∀ (s : State) (x : TSession), s.die.powered = true → s.die.trc.session = some x → x.classU = true →
    s.die.u.rdN Reg.hltGen ≠ x.gen →
    ∃ d, exec .tokenExpiry s = s.thenDie d ∧ d.trc.session = none ∧ d.u = s.die.u)
  ∧ (∀ (s : State) (x : TSession), s.die.powered = true → s.die.trc.session = some x → x.classU = true →
    s.die.tokenFor x.gen = true →
    exec .tokenInForce s = s.thenDie { s.die with trc := { s.die.trc with session := some { x with tok := true } } })
  ∧ (∀ (s : State) (o : Origin) (cu : Bool), s.takes .die o Reg.trcSession = true → s.die.mayOpen cu = false →
    ∃ d, exec (.sessionOpen o cu) s = s.thenDie d ∧ d.trc = s.die.trc ∧ d.u.bit Reg.trcErr 4 = true)
  ∧ (∀ (s : State) (o : Origin) (cu : Bool), s.takes .die o Reg.trcSession = true → s.die.mayOpen cu = true →
    ∃ d x, exec (.sessionOpen o cu) s = s.thenDie d ∧ d.trc.session = some x ∧ x.classU = cu
      ∧ x.gen = (if cu then s.die.u.rdN Reg.trcSessgen else 0))
  ∧ (∀ (s : State) (o : Origin), s.takes .die o Reg.trcSession = true →
    ∃ d, exec (.sessionClose o) s = s.thenDie d ∧ d.trc.session = none)
  ∧ (∀ (s : State) (q : WatchReq) (i : Fin 16), s.die.powered = true → s.die.trcRuns = true →
    (∀ j, j < 16 → s.die.u.watchHit q j = decide (j = i.val)) →
    ∃ d, exec (.watchMatch [q]) s = s.thenDie d ∧ d.u.rd Reg.wchAtHitcnt i.val = satInc (s.die.u.rd Reg.wchAtHitcnt i.val)
      ∧ d.u.rd Reg.wchAtLastl i.val = BitVec.ofNat 32 q.addr.toNat)
  ∧ (∀ (s : State) (q : WatchReq), s.die.powered = true → s.die.trcRuns = true →
    (∀ j, j < 16 → s.die.u.watchHit q j = false) → exec (.watchMatch [q]) s = s.thenDie s.die)
  ∧ (∀ (u : Machine.Unit) (q : WatchReq) (i : Nat), u.bit Reg.wchAtEn 0 i = false → u.watchHit q i = false)
  ∧ (∀ (s : State) (i : Fin 16), s.die.powered = true → s.die.u.bit Reg.wchAtHalt 0 i.val = true →
    exec (.haltAck i) s
      = s.thenUnit .die ((s.die.u.wrBit Reg.wchAtHalt 0 false i.val).emit (.pin (.haltReq i.val) 0)))
  ∧ (∀ (s : State) (o : Origin) (i : Nat), s.takes .die o Reg.wchAtHalt = true → s.die.u.selOf Reg.wchSel o = i →
    s.die.u.bit Reg.wchAtHalt 0 i = true → Tab.find i s.die.trc.haltAt ≠ some s.die.u.clk →
    ∃ d, exec (.haltRelease o) s = s.thenDie d ∧ d.u.bit Reg.wchAtHalt 0 i = false
      ∧ .pin (.haltReq i) 0 ∈ d.u.out)
  ∧ (∀ (s : State) (o : Origin) (i : Nat), s.takes .die o Reg.wchAtHalt = true → s.die.u.selOf Reg.wchSel o = i →
    Tab.find i s.die.trc.haltAt = some s.die.u.clk →
    ∃ d, exec (.haltRelease o) s = s.thenDie d ∧ d.u.bit Reg.wchAtHalt 0 i = s.die.u.bit Reg.wchAtHalt 0 i)
  ∧ (∀ (s : State) (o : Origin) (i : Nat) (on : Bool), s.takes .die o Reg.wchAtEn = true → s.die.u.selOf Reg.wchSel o = i →
    ∃ d, exec (.watchEnable o on) s = s.thenDie d
      ∧ d.u.bit Reg.wchAtEn 0 i = (if on && s.die.u.fld Reg.wchAtCfg 31 30 i == 0 then s.die.u.bit Reg.wchAtEn 0 i else on)
      ∧ (on = true → s.die.u.fld Reg.wchAtCfg 31 30 i = 0 → d.u.bit Reg.wchErr 1 = true))

/-- 13 R453, R457-R460, R464-R467: the compressor and the verifier. -/
def Obligations.Compression : Prop :=
(∀ (s : State) (p : Part) (x : Draft) (q : List Draft), s.on p = true → (s.part p).flm.cur = none →
    (s.part p).flm.queue = x :: q →
    ∃ u c, exec (.compress p) s = s.thenUnit p u ∧ u.flm.cur = some c ∧ u.flm.queue = q ∧ c.draft = x
      ∧ c.since = (s.part p).clk ∧ ((s.part p).bit Reg.flmCtrl 2 = true → c.level = 0 ∧ c.forced = true))
  ∧ (∀ (s : State) (p : Part) (c : Compressing), s.on p = true → (s.part p).flm.cur = some c →
    ∃ u, exec (.compressComplete p) s = s.thenUnit p u ∧ u.flm.cur = none
      ∧ (c.draft.payload.length ≤ (flmFrame c.draft.payload c.level ((s.part p).flmRef c)).length → u.bit Reg.flmErr 1 = true))
  ∧ (∀ (s : State) (p : Part) (c : Compressing), s.on p = true → (s.part p).flm.cur = some c → c.level ≠ 0 →
    usT ((s.part p).fld Reg.flmCbudget 15 0) ≤ (s.part p).since c.since →
    ∃ u, exec (.compressAbandon p) s = s.thenUnit p u
      ∧ u.flm = { (s.part p).flm with cur := some { c with level := 0, since := (s.part p).clk } }
      ∧ u.rd Reg.flmAbandcnt = satInc ((s.part p).rd Reg.flmAbandcnt) ∧ u.bit Reg.flmErr 0 = true)
  ∧ (∀ (s : State) (p : Part) (c : Compressing) (ue : Bool), s.on p = true → (s.part p).flm.cur = some c →
    ∃ u, exec (.compressFault p ue) s = s.thenUnit p u ∧ u.flm.cur = none ∧ (ue = true → u.bit Reg.flmErr 5 = true))
  ∧ (∀ (s : State) (r : Rec) (q : List Rec), s.agg.runs = true → s.agg.u.flm.vqueue = r :: q → isCompressed r = false →
    ∃ u, exec .frameVerify s = s.thenUnit .agg u ∧ u.flm.vqueue = q ∧ u.regs = s.agg.u.regs
      ∧ (isSnap r = true → Tab.find (vrefKey r.src.toNat r.typ.toNat) u.flm.vrefs = some ⟨r.seq.toNat, r.payload⟩))
  ∧ (∀ (s : State) (r : Rec) (q : List Rec), s.agg.runs = true → s.agg.u.flm.vqueue = r :: q → isCompressed r = true →
    ∃ u, exec .frameVerify s = s.thenUnit .agg u ∧ u.flm.vqueue = q ∧ u.rd Reg.flmDeccnt = satInc (s.agg.u.rd Reg.flmDeccnt))

/-- 14 R471-R477: queues and doorbells. `k` is the sender's side. -/
def Obligations.MailboxQueues : Prop :=
(∀ (s : State) (p : Part) (o : Origin) (w : Word) (ch : Nat), s.takes p o Reg.mbxAtTxdata = true →
    (s.part p).selOf Reg.mbxSel o = ch → ((s.part p).mside ch !o.sideK).denies o.stamp = false →
    ((s.part p).mside ch !o.sideK).queue.length < 16 →
    ∃ u, exec (.mbxPush p o w) s = s.thenUnit p u ∧ u.mside ch o.sideK = (s.part p).mside ch o.sideK
      ∧ (u.mside ch !o.sideK).queue = ((s.part p).mside ch !o.sideK).queue ++ [⟨w, o.stamp, (s.part p).mepoch o.sideK⟩])
  ∧ (∀ (s : State) (p : Part) (o : Origin) (w : Word) (ch : Nat), s.takes p o Reg.mbxAtTxdata = true →
    (s.part p).selOf Reg.mbxSel o = ch → ((s.part p).mside ch !o.sideK).denies o.stamp = false →
    ((s.part p).mside ch !o.sideK).queue.length = 16 →
    ∃ u, exec (.mbxPush p o w) s = s.thenUnit p u ∧ u.mside ch (!o.sideK) = (s.part p).mside ch (!o.sideK)
      ∧ bitAt (u.mside ch o.sideK).flags 2 = true
      ∧ (u.mside ch o.sideK).fullcnt = satInc ((s.part p).mside ch o.sideK).fullcnt)
  ∧ (∀ (s : State) (o : Origin) (ch : Nat) (w : MbxWord) (q : List MbxWord), s.die.powered = true → o.suits .die = true →
    o.refused = false → s.die.lit Reg.mbxAtRxdata = true → s.die.u.selOf Reg.mbxSel o = ch →
    (s.die.u.mside ch o.sideK).queue = w :: q →
    ∃ u, exec (.mbxPop .die o) s = s.thenUnit .die u ∧ u.resp = BitVec.ofNat 64 w.word.toNat
      ∧ (u.mside ch o.sideK).queue = q)
  ∧ (∀ (s : State) (o : Origin) (ch : Nat) (w : MbxWord) (q : List MbxWord), s.agg.runs = true → o.suits .agg = true →
    s.agg.u.selOf Reg.mbxSel o = ch → (s.agg.u.mside ch o.sideK).queue = w :: q →
    ∃ u, exec (.mbxPop .agg o) s = s.thenUnit .agg u ∧ u.resp = BitVec.ofNat 64 w.word.toNat
      ∧ (u.mside ch o.sideK).queue = q)
  ∧ (∀ (s : State) (p : Part) (o : Origin) (bits : Word) (ch : Nat), s.takes p o Reg.mbxAtDbset = true →
    (s.part p).selOf Reg.mbxSel o = ch → ((s.part p).mside ch !o.sideK).denies o.stamp = false → bits ≠ 0 →
    ∃ u, exec (.doorbellSet p o bits) s = s.thenUnit p u
      ∧ ∀ b, b < 32 → bits.toNat.testBit b = true →
          (Tab.find b (u.mside ch !o.sideK).db).isSome = true ∧ (Tab.find b (u.mside ch o.sideK).pend).isSome = true)
  ∧ (∀ (s : State) (p : Part) (o : Origin) (bits : Word) (ch : Nat), s.takes p o Reg.mbxAtDb = true →
    (s.part p).selOf Reg.mbxSel o = ch →
    ∃ u, exec (.doorbellAck p o bits) s = s.thenUnit p u
      ∧ (u.mside ch o.sideK).db = ((s.part p).mside ch o.sideK).db.filter (fun x => !bits.toNat.testBit x.1)
      ∧ (u.mside ch !o.sideK).pend = ((s.part p).mside ch !o.sideK).pend.filter (fun x => !bits.toNat.testBit x.1))
  ∧ (∀ (s : State) (p : Part) (ch : Fin 16) (k : Bool) (x : MbxSide), s.on p = true → x = (s.part p).mside ch.val k →
    (x.pend.any fun y => decide (usT (fieldOf x.timeout 15 0) ≤ (s.part p).since y.2)) = true → x.fired = false →
    exec (.mbxTimeout p ch k) s = s.thenUnit p ((s.part p).setSide ch.val k { x with
      flags := setBit x.flags 0 true, tocnt := satInc x.tocnt, fired := true }))

/-- 14 R473: a push and a doorbell set below MINPRIV are discarded, and FLAGS.DENIED is set at the sender's side. -/
def Obligations.MailboxDenies : Prop :=
(∀ (s : State) (p : Part) (o : Origin) (w : Word) (ch : Nat), s.takes p o Reg.mbxAtTxdata = true →
    (s.part p).selOf Reg.mbxSel o = ch →
    (bitAt ((s.part p).mside ch !o.sideK).cfg 0 = false
      ∨ fieldOf o.stamp 15 12 < fieldOf ((s.part p).mside ch !o.sideK).cfg 7 4) →
    ∃ u, exec (.mbxPush p o w) s = s.thenUnit p u ∧ u.mside ch (!o.sideK) = (s.part p).mside ch (!o.sideK)
      ∧ bitAt (u.mside ch o.sideK).flags 3 = true)
  ∧ (∀ (s : State) (p : Part) (o : Origin) (bits : Word) (ch : Nat), s.takes p o Reg.mbxAtDbset = true →
    (s.part p).selOf Reg.mbxSel o = ch → bits ≠ 0 →
    (bitAt ((s.part p).mside ch !o.sideK).cfg 0 = false
      ∨ fieldOf o.stamp 15 12 < fieldOf ((s.part p).mside ch !o.sideK).cfg 7 4) →
    ∃ u, exec (.doorbellSet p o bits) s = s.thenUnit p u ∧ u.mside ch (!o.sideK) = (s.part p).mside ch (!o.sideK)
      ∧ bitAt (u.mside ch o.sideK).flags 3 = true)

/-- 14 R481-R483, R488: service requests, the recorder's buckets, the history. -/
def Obligations.ServiceAndRecorder : Prop :=
(∀ (s : State) (p : Part) (ch : Fin 16) (h : MbxWord), s.on p = true → ch.val < mbxChans (s.part p).kind →
    (Tab.find 0 ((s.part p).mside ch.val true).db).isSome = true → (s.part p).mbx.resetK = false →
    ((s.part p).mside ch.val true).queue = [h] → fieldOf h.word 23 20 = 0 →
    ((s.part p).mside ch.val false).denies (s.part p).kStamp = false → ((s.part p).mside ch.val false).queue.length < 16 →
    (fieldOf h.word 31 24 = 1 → ∃ u, exec (.postevent p ch) s = s.thenUnit p u
      ∧ (u.mside ch.val true).queue = []
      ∧ (u.mside ch.val false).queue = ((s.part p).mside ch.val false).queue ++ [⟨BitVec.ofNat 32 (0x81000000
          + if fieldOf h.word 11 0 < 0xC00 then 2 else 0), (s.part p).kStamp, (s.part p).mbx.epochK⟩])
    ∧ (fieldOf h.word 31 24 = 2 → ∃ u, exec (.ping p ch) s = s.thenUnit p u ∧ (u.mside ch.val true).queue = []
      ∧ (u.mside ch.val false).queue = ((s.part p).mside ch.val false).queue
          ++ [⟨0x82000000, (s.part p).kStamp, (s.part p).mbx.epochK⟩])
    ∧ (fieldOf h.word 31 24 = 5 → ∃ u, exec (.unknownRequest p ch) s = s.thenUnit p u ∧ (u.mside ch.val true).queue = []
      ∧ (u.mside ch.val false).queue = ((s.part p).mside ch.val false).queue
          ++ [⟨0x85000001, (s.part p).kStamp, (s.part p).mbx.epochK⟩]))
  ∧ (∀ (s : State) (p : Part) (ch : Fin 16), s.on p = true → Tab.find 0 ((s.part p).mside ch.val true).db = none →
    exec (.postevent p ch) s = s.thenUnit p (s.part p) ∧ exec (.ping p ch) s = s.thenUnit p (s.part p)
    ∧ exec (.unknownRequest p ch) s = s.thenUnit p (s.part p))
  ∧ (∀ (s : State) (p : Part) (k : Nat) (n : Nat), s.on p = true → (s.part p).evr.tokens = [(k, n)] →
    (s.part p).evr.refillMs < timeMs (s.part p).tb.now →
    ∃ u, exec (.bucketRefill p) s = s.thenUnit p u ∧ u.evr.refillMs = timeMs (s.part p).tb.now
      ∧ u.evr.tokens = [(k, min ((s.part p).fld Reg.evrAtCfg 15 8 k * 1000)
          (n + (timeMs (s.part p).tb.now - (s.part p).evr.refillMs) * (s.part p).fld Reg.evrAtCfg 31 16 k))])
  ∧ (∀ (s : State) (p : Part) (o : Origin) (v : Word) (k : Nat), s.takes p o Reg.evrAtCfg = true →
    (s.part p).selOf Reg.evrSel o = k → 1 ≤ fieldOf v 15 8 →
    ∃ u, exec (.evrCfgWrite p o v) s = s.thenUnit p u ∧ u.bit Reg.evrAtCfg 0 k = bitAt v 0
      ∧ u.fld Reg.evrAtCfg 15 8 k = fieldOf v 15 8 ∧ u.fld Reg.evrAtCfg 31 16 k = fieldOf v 31 16)
  ∧ (∀ s : State, s.agg.runs = true → s.agg.u.kind = .agg → s.agg.u.inReset 5 = false →
    64 ≤ s.agg.u.evr.unflushed.length → s.agg.u.evr.history.length + s.agg.u.evr.unflushed.length ≤ histCap →
    exec (.historyFlush true) s = s.thenUnit .agg { s.agg.u with evr := { s.agg.u.evr with
      unflushed := [], history := s.agg.u.evr.history ++ s.agg.u.evr.unflushed, flushClk := s.agg.u.clk } })
  ∧ (∀ s : State, s.agg.runs = true → s.agg.u.kind = .agg → s.agg.u.inReset 5 = false →
    64 ≤ s.agg.u.evr.unflushed.length →
    ∃ u, exec (.historyFlush false) s = s.thenUnit .agg u ∧ u.evr.unflushed = s.agg.u.evr.unflushed
      ∧ u.evr.history = s.agg.u.evr.history ∧ u.bit Reg.evrErr 3 = true ∧ Out.alarm .histFail ∈ u.out)

/-- 15 R497, R500-R503, R506: what the scrubber finds. Memory 12 (RACEB) is one of both parts; what an uncorrectable
error in it does lies in the common part. 15 R496, R497: one bit in error is the bit that the syndrome names, two bits
in error are no bit. -/
def Obligations.MemoryErrors : Prop :=
  (∀ (s : State) (p : Part) (m : Fin 19), s.on p = true → (s.part p).scrubs m.val = true →
    Tab.find (errKey m.val ((s.part p).memSt m.val).scrub) (s.part p).ras.err = none →
    exec (.memoryScrub p m 0 none) s = s.thenUnit p ((s.part p).scrubNext m.val))
  ∧ (∀ (s : State) (p : Part) (m : Fin 19) (k a : Nat), s.on p = true → (s.part p).scrubs m.val = true → k < 39 →
    ((s.part p).memSt m.val).scrub = a → Tab.find (errKey m.val a) (s.part p).ras.err = none →
    ((s.part p).memSt m.val).ce = List.replicate 8 none →
    ∃ u, exec (.memoryScrub p m (BitVec.ofNat 39 (2 ^ k)) none) s = s.thenUnit p u
      ∧ u.rd Reg.rasCecnt = satInc ((s.part p).rd Reg.rasCecnt)
      ∧ u.rd Reg.rasAtCecnt m.val = satInc ((s.part p).rd Reg.rasAtCecnt m.val) ∧ u.bit Reg.rasErr 0 = true
      ∧ (m.val, a) ∈ u.ras.wb ∧ u.errAt m.val a = BitVec.ofNat 39 (2 ^ k)
      ∧ (u.memSt m.val).ce = some ⟨a, eccCol k, 1, false, false⟩ :: List.replicate 7 none)
  ∧ (∀ (s : State) (p : Part) (a : Nat) (e : BitVec 39), s.on p = true → (s.part p).scrubs 12 = true →
    ((s.part p).memSt 12).scrub = a → Tab.find (errKey 12 a) (s.part p).ras.err = none →
    eccSyndrome e ≠ 0 → eccBit (eccSyndrome e) = none →
    ∃ u, exec (.memoryScrub p 12 e none) s = s.thenUnit p u
      ∧ u.rd Reg.rasUecnt = satInc ((s.part p).rd Reg.rasUecnt)
      ∧ u.rd Reg.rasAtUecnt 12 = satInc ((s.part p).rd Reg.rasAtUecnt 12) ∧ u.bit Reg.rasErr 1 = true
      ∧ u.errAt 12 a = 0 ∧ (u.memSt 12).lastUe = some (a, eccSyndrome e))
  ∧ (∀ (s : State) (p : Part) (m : Fin 19) (k : Fin 3) (a : BitVec 23) (e : BitVec 39), s.on p = true →
    a.toNat < memWords (s.part p).kind m.val → (s.part p).memOn m.val = true → (s.part p).bit Reg.rasDmastat k.val = false →
    Tab.find (errKey m.val a.toNat) (s.part p).ras.err = none → eccSyndrome e ≠ 0 → eccBit (eccSyndrome e) = none →
    m.val = 12 →
    ∃ u, exec (.memoryScrub p m e (some (k, a))) s = s.thenUnit p u ∧ u.bit Reg.rasDmastat k.val = true
      ∧ u.bit Reg.rasErr 5 = true ∧ u.rd Reg.rasUecnt = satInc ((s.part p).rd Reg.rasUecnt) ∧ u.errAt 12 a.toNat = 0)
  ∧ (∀ (s : State) (p : Part) (m : Fin 19) (k : Fin 3) (a : BitVec 23), s.on p = true →
    Tab.find (errKey m.val a.toNat) (s.part p).ras.err = none →
    exec (.memoryScrub p m 0 (some (k, a))) s = s.thenUnit p (s.part p))
  ∧ (∀ (s : State) (p : Part) (m : Fin 19) (a : BitVec 23) (k : Nat), s.on p = true → k < 39 →
    (m.val, a.toNat) ∈ (s.part p).ras.wb → (s.part p).errAt m.val a.toNat = BitVec.ofNat 39 (2 ^ k) →
    exec (.eccWriteBack p m a) s = s.thenUnit p { (s.part p) with ras := { (s.part p).ras with
      err := Tab.del (errKey m.val a.toNat) (s.part p).ras.err
      wb := (s.part p).ras.wb.filter fun w => w != (m.val, a.toNat) } })
  ∧ (∀ (s : State) (p : Part) (m : Fin 19) (a : BitVec 23), s.on p = true → (m.val, a.toNat) ∉ (s.part p).ras.wb →
    exec (.eccWriteBack p m a) s = s.thenUnit p (s.part p))
  ∧ (∀ k, k < 39 → eccBit (eccSyndrome (BitVec.ofNat 39 (2 ^ k))) = some k)
  ∧ (∀ i j, i < j → j < 39 → eccSyndrome (BitVec.ofNat 39 (2 ^ i + 2 ^ j)) ≠ 0
      ∧ eccBit (eccSyndrome (BitVec.ofNat 39 (2 ^ i + 2 ^ j))) = none)
  ∧ (∀ data : Nat, data < 2 ^ 32 → eccCheck data < 128
      ∧ eccSyndrome (BitVec.ofNat 39 (data + eccCheck data * 2 ^ 32)) = 0)

/-- 15 R504, R505: merge buffers. 15 R501, R512; 19 R604: the table cleared, the checker test, the host's memory port.
-/
def Obligations.NarrowWritesAndTable : Prop :=
  (∀ (s : State) (p : Part) (m : Fin 19), s.on p = true → ((s.part p).memSt m.val).merge = [] →
    exec (.mergeFlush p m []) s = s.thenUnit p (s.part p))
  ∧ (∀ (s : State) (p : Part) (m : Fin 19) (w : NarrowWrite), s.on p = true →
    ((s.part p).memSt m.val).merge = [] → (s.part p).ras.flip = none →
    Tab.find (errKey m.val w.addr.toNat) (s.part p).ras.err = none →
    ∃ u, exec (.mergeFlush p m [w]) s = s.thenUnit p u ∧ (u.memSt m.val).merge = []
      ∧ u.errAt m.val w.addr.toNat = 0 ∧ (m.val, w.addr.toNat) ∉ u.ras.wb)
  ∧ (∀ (s : State) (p : Part) (m : Fin 19) (w : NarrowWrite) (mask : BitVec 39), s.on p = true →
    ((s.part p).memSt m.val).merge = [] → w.mask = 0xF → (s.part p).ras.flip = some (mask, m.val) →
    ∃ u, exec (.mergeFlush p m [w]) s = s.thenUnit p u ∧ (u.memSt m.val).merge = []
      ∧ (mask ≠ 0 → u.errAt m.val w.addr.toNat = mask) ∧ u.ras.flip = none ∧ u.bit Reg.rasErr 6 = true)
  ∧ (∀ (s : State) (p : Part) (w : NarrowWrite), s.on p = true → ((s.part p).memSt 12).merge = [] → w.mask ≠ 0xF →
    eccSyndrome ((s.part p).errAt 12 w.addr.toNat) ≠ 0 → eccBit (eccSyndrome ((s.part p).errAt 12 w.addr.toNat)) = none →
    ∃ u, exec (.mergeFlush p 12 [w]) s = s.thenUnit p u ∧ (u.memSt 12).merge = []
      ∧ u.rd Reg.rasUecnt = satInc ((s.part p).rd Reg.rasUecnt)
      ∧ (u.memSt 12).lastUe = some (w.addr.toNat, eccSyndrome ((s.part p).errAt 12 w.addr.toNat)))
  ∧ (∀ (s : State) (p : Part) (o : Origin) (m : Nat), s.takes p o Reg.rasAtCeclr = true → (s.part p).selOf Reg.rasSel o = m →
    ∃ u, exec (.ceClear p o) s = s.thenUnit p u
      ∧ ∀ e, some e ∈ (u.memSt m).ce ↔ some e ∈ ((s.part p).memSt m).ce ∧ e.remapped = true)
  ∧ (∀ (s : State) (p : Part) (o : Origin) (m : BitVec 5), s.takes p o Reg.rasFlipctl = true →
    memWords (s.part p).kind m.toNat = 0 →
    ∃ u, exec (.flipArm p o m) s = s.thenUnit p u ∧ u.ras = (s.part p).ras
      ∧ u.rd Reg.glbAccerr = satInc ((s.part p).rd Reg.glbAccerr))
  ∧ (∀ (s : State) (p : Part) (o : Origin) (m : BitVec 5), s.takes p o Reg.rasFlipctl = true →
    memWords (s.part p).kind m.toNat ≠ 0 →
    ∃ u, exec (.flipArm p o m) s = s.thenUnit p u ∧ u.ras.flip = some (BitVec.ofNat 39
      ((s.part p).rdN Reg.rasFlipl + (s.part p).fld Reg.rasFliph 6 0 * 2 ^ 32), m.toNat))
  ∧ (∀ (s : State) (c : RecClass) (e : Bool), s.die.powered = true → e = true → s.die.u.spilled c.code = none →
    exec (.memoryPortRead c e) s = s.thenDie s.die)
  ∧ (∀ (s : State) (c : RecClass), s.die.powered = true → exec (.memoryPortRead c false) s = s.thenDie s.die)
  ∧ (∀ (s : State) (k : BitVec 2) (n : BitVec 7), s.die.powered = true → s.die.u.capRuns = true → k.toNat < 3 →
    exec (.memoryPortDone k n) s = s.thenDie { s.die with cap := s.die.cap.addProd (28 + k.toNat) n.toNat })
  ∧ (∀ (s : State) (n : BitVec 7), s.die.powered = true → exec (.memoryPortDone 3 n) s = s.thenDie s.die)
  ∧ (∀ (s : State) (c : RecClass) (i : Nat) (x : LogEnt), s.die.powered = true → s.die.u.spilled c.code = some (i, x) →
    ∃ d, exec (.memoryPortRead c true) s = s.thenDie d ∧ d.u.bit Reg.recErr 5 = true ∧ d.u.bit Reg.rasDmastat 2 = true
      ∧ d.u.rd Reg.rasUecnt = satInc (s.die.u.rd Reg.rasUecnt))

/-- 15 R508-R511: fetch traps, partition resets and their ends, resumed channels. -/
def Obligations.PartitionResets : Prop :=
(∀ (s : State) (p : Part) (a : BitVec 23) (y : BitVec 7), s.on p = true → badSynd y.toNat = false →
    exec (.fetchTrap p a y) s = s.thenUnit p (s.part p))
  ∧ (∀ (s : State) (a : BitVec 23) (y : BitVec 7), s.die.powered = true → badSynd y.toNat = true → a.toNat < 16384 →
    s.die.u.recentResets.length < 2 →
    ∃ d, exec (.fetchTrap .die a y) s = s.thenDie d ∧ d.u.bit Reg.rasErr 4 = true ∧ d.u.bit Reg.rasStat 4 = true
      ∧ d.u.rd Reg.rasUecnt = satInc (s.die.u.rd Reg.rasUecnt) ∧ d.u.rd Reg.rasPrstcnt = satInc (s.die.u.rd Reg.rasPrstcnt)
      ∧ d.u.mbx.resetK = true ∧ d.wfg.agents = [])
  ∧ (∀ (s : State) (a : BitVec 23) (y : BitVec 7), s.agg.runs = true → badSynd y.toNat = true → a.toNat < 65536 →
    ∃ g, exec (.fetchTrap .agg a y) s = s.thenAgg g ∧ g.u.bit Reg.rasErr 4 = true ∧ g.u.bit Reg.rasStat 5 = true
      ∧ g.u.rd Reg.rasUecnt = satInc (s.agg.u.rd Reg.rasUecnt) ∧ g.u.mbx.resetK = true)
  ∧ (∀ (s : State) (p : Part) (k : Fin 7), s.on p = true → hasPart p k.val = false →
    exec (.partitionReset p k none) s = s.thenUnit p (s.part p))
  ∧ (∀ s : State, s.die.powered = true →
    ∃ d, exec (.partitionReset .die 2 none) s = s.thenDie d ∧ d.u.bit Reg.rasStat 2 = true ∧ d.trc.halted = true
      ∧ d.u.rdN Reg.glbRstcause = 4 ∧ d.u.rd Reg.rasPrstcnt = satInc (s.die.u.rd Reg.rasPrstcnt)
      ∧ (2 ≤ s.die.u.recentResets.length → d.u.bit Reg.rasErr 7 = true))
  ∧ (∀ (s : State) (o : Origin), s.die.takes o Reg.rasPrst = true → s.die.u.recentResets.length < 2 →
    ∃ d, exec (.partitionReset .die 2 (some o)) s = s.thenDie d ∧ d.u.bit Reg.rasStat 2 = true ∧ d.trc.halted = true)
  ∧ (∀ s : State, s.agg.runs = true →
    ∃ g : Agg, exec (.partitionReset .agg 1 none) s = s.thenAgg g ∧ g.u.bit Reg.rasStat 1 = true ∧ g.u.sco.trees = []
      ∧ g.u.drf.metrics = [] ∧ (2 ≤ s.agg.u.recentResets.length → g.u.bit Reg.hltAggerr 0 = true))
  ∧ (∀ (s : State) (k : Fin 7) (n : Nat), s.die.powered = true → k = 2 ∨ k = 3 → s.die.u.inReset k.val = true →
    exec (.partitionResetEnd .die k n) s = s.thenUnit .die (s.die.u.wrBit Reg.rasStat k.val false))
  ∧ (∀ (s : State) (p : Part) (k : Fin 7) (n : Nat), s.lit p = true → (s.part p).inReset k.val = false →
    exec (.partitionResetEnd p k n) s = s.thenUnit p (s.part p))
  ∧ (∀ (s : State) (n : Nat), s.agg.powered = true → s.agg.u.inReset 6 = true →
    ∃ g : Agg, exec (.partitionResetEnd .agg 6 n) s = s.thenAgg g ∧ g.pair.since = s.agg.u.clk
      ∧ ∀ k, k ∈ coreParts → g.u.bit Reg.rasStat k = false)
  ∧ (∀ (s : State) (p : Part) (c : Fin 4) (t : Nat), s.on p = true → c.val ≠ 3 → Tab.find c.val (s.part p).ras.dmaAt = some t →
    usT 10 ≤ (s.part p).since t →
    exec (.dmaResume p c) s = s.thenUnit p ((s.part p).wrBit Reg.rasDmastat c.val false))
  ∧ (∀ (s : State) (p : Part) (c : Fin 4) (t : Nat), s.on p = true → Tab.find c.val (s.part p).ras.dmaAt = some t →
    c.val = 3 ∨ (s.part p).since t < usT 10 →
    exec (.dmaResume p c) s = s.thenUnit p (s.part p))

/-- 16 R526, R532, R533: a load over an access port. -/
def Obligations.PatternLoads : Prop :=
(∀ (s : State) (p : Part) (o : Origin), s.takes p o Reg.patLoadctl = true → (s.part p).bit Reg.patCtrl 0 = true →
    (s.part p).loadBusy = false →
    ∃ u, exec (.loadBegin p o) s = s.thenUnit p u ∧ u.pat = { (s.part p).pat with
      loading := some ⟨(s.part p).rdN Reg.patLoadlen, none, [], false, o.stamp, o.onode⟩ })
  ∧ (∀ (s : State) (p : Part) (o : Origin), s.takes p o Reg.patLoadctl = true → (s.part p).bit Reg.patCtrl 0 = true →
    (s.part p).loadBusy = true →
    ∃ u, exec (.loadBegin p o) s = s.thenUnit p u ∧ u.pat = { (s.part p).pat with result := 11 }
      ∧ u.rd Reg.patRejcnt = satInc ((s.part p).rd Reg.patRejcnt) ∧ u.bit Reg.patErr 11 = true)
  ∧ (∀ (s : State) (p : Part) (o : Origin), s.takes p o Reg.patLoadctl = true → (s.part p).bit Reg.patCtrl 0 = false →
    ∃ u, exec (.loadBegin p o) s = s.thenUnit p u ∧ u.pat = (s.part p).pat)
  ∧ (∀ (s : State) (p : Part) (o : Origin) (w : Word) (l : Loading), s.takes p o Reg.patData = true →
    (s.part p).pat.loading = some l → l.race = none → l.got < maxCont (s.part p).kind →
    exec (.loadData p o w) s = s.thenUnit p { (s.part p) with pat := { (s.part p).pat with
      loading := some { l with chunks := Tab.put l.got (leBytes 4 w.toNat) l.chunks } } })
  ∧ (∀ (s : State) (p : Part) (o : Origin) (w : Word), s.takes p o Reg.patData = true → (s.part p).pat.loading = none →
    exec (.loadData p o w) s = s.thenUnit p (s.part p))
  ∧ (∀ (s : State) (p : Part) (o : Origin) (l : Loading), s.takes p o Reg.patLoadctl = true →
    (s.part p).pat.loading = some l → l.race = none →
    ∃ u, exec (.loadEnd p o) s = s.thenUnit p u ∧ u.pat.loading = none
      ∧ u.pat.verifying = some { l with len := (s.part p).rdN Reg.patLoadlen
                                        bad := l.bad || !covers ((s.part p).rdN Reg.patLoadlen) 0 l.chunks })
  ∧ (∀ (s : State) (p : Part) (o : Origin), s.takes p o Reg.patLoadctl = true →
    (∀ l, (s.part p).pat.loading = some l → l.race.isSome = true) →
    ∃ u, exec (.loadEnd p o) s = s.thenUnit p u ∧ u.pat = (s.part p).pat)
  ∧ (∀ (s : State) (p : Part) (o : Origin), s.takes p o Reg.patLoadctl = true →
    ∃ u, exec (.loadAbort p o) s = s.thenUnit p u
      ∧ u.pat = { (s.part p).pat with loading := none, verifying := none })
  ∧ (∀ (s : State) (p : Part) (o : Origin) (c : Content), s.takes p o Reg.patLoadctl = true →
    (s.part p).pat.pending = some c → ((s.part p).ep.fired.any fun f => f.main.any c.due) = false →
    ∃ u, exec (.loadCancel p o) s = s.thenUnit p u ∧ u.pat = { (s.part p).pat with pending := none }
      ∧ (c.scoring = true → u.sco = { (s.part p).sco with swap := none }))
  ∧ (∀ (s : State) (p : Part) (o : Origin) (c : Content), s.takes p o Reg.patLoadctl = true →
    (s.part p).pat.pending = some c → ((s.part p).ep.fired.any fun f => f.main.any c.due) = true →
    ∃ u, exec (.loadCancel p o) s = s.thenUnit p u ∧ u.pat = (s.part p).pat ∧ u.sco = (s.part p).sco)

/-- 16 R524, R526, R535, R536: verification. The signature check is the opaque one of log entry 7. 16 R534: a load
over the Race. -/
def Obligations.VerificationAndRaceLoads : Prop :=
  (∀ (s : State) (p : Part), s.on p = true → (s.part p).pat.verifying = none →
    exec (.loadVerified p) s = s.thenUnit p (s.part p))
  ∧ (∀ (s : State) (p : Part) (l : Loading) (u : Machine.Unit) (n : Nat), s.on p = true → (s.part p).pat.verifying = some l →
    u = { (s.part p) with pat := { (s.part p).pat with verifying := none } } → u.verifyCode l l.gather = n + 1 →
    ∃ t, exec (.loadVerified p) s = s.thenUnit p t ∧ t.pat = { u.pat with result := n + 1 } ∧ t.sco = u.sco
      ∧ t.rd Reg.patRejcnt = satInc (u.rd Reg.patRejcnt) ∧ (n < 12 → t.bit Reg.patErr (n + 1) = true))
  ∧ (∀ (s : State) (p : Part) (l : Loading) (u : Machine.Unit) (c : Cont), s.on p = true → (s.part p).pat.verifying = some l →
    u = { (s.part p) with pat := { (s.part p).pat with verifying := none } } → c = parseCont l.gather →
    u.verifyCode l l.gather = 0 →
    ∃ t, exec (.loadVerified p) s = s.thenUnit p t ∧ t.pat.verifying = none ∧ t.pat.result = 0 ∧ t.pat.meas = u.pat.meas
      ∧ (u.distributes c = true → t.pat.dstore = (if c.kind = 1 then u.pat.dstore ++ [c.bytes] else [c.bytes])
          ∧ t.pat.arbMinD = c.arb ∧ t.pat.pending = u.pat.pending)
      ∧ (c.isFw = true → t.pat.fw.verified = true ∧ t.pat.fw.otherImage.isSome = true ∧ t.pat.fw.active = u.pat.fw.active)
      ∧ (u.distributes c = false → c.isFw = false →
          (∃ x, t.pat.pending = some x ∧ x.eff = c.eff ∧ x.digest = c.digest ∧ x.insert = decide (c.kind = 1))
          ∧ t.pat.fw = u.pat.fw))
  ∧ (∀ (u : Machine.Unit) (l : Loading), l.bad = true → u.verifyCode l l.gather = 1)
  ∧ (∀ (s : State) (f : Side) (i n : Word) (o : Origin), s.die.powered = true → s.die.u.raceUp f.ix = true →
    s.die.u.miswired = false → s.die.u.bit Reg.patCtrl 1 = true → s.die.u.loadBusy = false →
    o = .proxy f (sideAddr (s.die.u.node.toNat / 1024 % 4096) f) →
    exec (.patbegin f i n) s = s.thenUnit .die { s.die.u with pat := { s.die.u.pat with
      loading := some ⟨n.toNat, some i.toNat, [], false, o.stamp, o.onode⟩ } })
  ∧ (∀ (s : State) (f : Side) (i n : Word) (b : List Byte), s.die.powered = true →
    s.die.u.raceUp f.ix = false ∨ s.die.u.miswired = true →
    exec (.patbegin f i n) s = s.thenDie s.die ∧ exec (.patend f i) s = s.thenDie s.die
    ∧ exec (.patchunk f i n b) s = s.thenDie s.die)
  ∧ (∀ (s : State) (f : Side) (i n : Word) (b : List Byte) (l : Loading), s.die.powered = true →
    s.die.u.raceUp f.ix = true → s.die.u.miswired = false → s.die.u.pat.loading = some l → l.race = some i.toNat →
    Tab.find n.toNat l.chunks = none →
    n.toNat % 4 = 0 → overlaps l.chunks n.toNat b.length = false → b ≠ [] → b.length ≤ 216 →
    n.toNat + b.length ≤ maxCont s.die.u.kind →
    exec (.patchunk f i n b) s = s.thenUnit .die { s.die.u with pat := { s.die.u.pat with
      loading := some { l with chunks := Tab.put n.toNat b l.chunks } } })
  ∧ (∀ (s : State) (f : Side) (i n : Word) (b : List Byte) (l : Loading), s.die.powered = true →
    s.die.u.pat.loading = some l → l.race ≠ some i.toNat ∨ (Tab.find n.toNat l.chunks).isSome = true →
    exec (.patchunk f i n b) s = s.thenUnit .die s.die.u)
  ∧ (∀ (s : State) (f : Side) (i : Word) (l : Loading), s.die.powered = true → s.die.u.raceUp f.ix = true →
    s.die.u.miswired = false → s.die.u.pat.loading = some l → l.race = some i.toNat →
    exec (.patend f i) s = s.thenUnit .die { s.die.u with pat := { s.die.u.pat with
      loading := none, verifying := some { l with bad := l.bad || !covers l.len 0 l.chunks } } })

/-- 16 R536-R538: firmware. -/
def Obligations.FirmwareBanks : Prop :=
(∀ (s : State) (p : Part) (o : Origin), s.takes p o Reg.patFwctl = true →
    (s.part p).pat.fw.otherImage = none ∨ (s.part p).pat.fw.verified = false →
    ∃ u, exec (.fwSwap p o) s = s.thenUnit p u ∧ u.pat = (s.part p).pat)
  ∧ (∀ (s : State) (o : Origin) (i j : FwImage), s.die.takes o Reg.patFwctl = true → s.die.u.kind = .die →
    s.die.u.pat.fw.otherImage = some i → s.die.u.pat.fw.image = some j → s.die.u.pat.fw.verified = true → i.stv = j.stv →
    ∃ u, exec (.fwSwap .die o) s = s.thenUnit .die u
      ∧ u.pat = { s.die.u.pat with fw := { s.die.u.pat.fw with swapAt := some s.die.u.clk } })
  ∧ (∀ (s : State) (o : Origin) (i : FwImage), s.agg.takes o Reg.patFwctl = true → s.agg.u.kind = .agg →
    s.agg.u.pat.fw.otherImage = some i → s.agg.u.pat.fw.verified = true →
    ∃ a : Agg, exec (.fwSwap .agg o) s = s.thenAgg a ∧ a.u.pat.fw.active = s.agg.u.pat.fw.other
      ∧ a.u.pat.fw.previous = s.agg.u.pat.fw.active ∧ a.u.pat.fw.startAt = some s.agg.u.clk
      ∧ a.u.bit Reg.rasStat 5 = true)
  ∧ (∀ (s : State) (c : Nat), s.agg.runs = true → s.agg.u.pat.fw.startAt = some c → msT 1000 ≤ s.agg.u.since c →
    ∃ a : Agg, exec (.fwRevert .agg) s = s.thenAgg a ∧ a.u.pat.fw.active = s.agg.u.pat.fw.previous
      ∧ a.u.pat.fw.reverted = true ∧ a.u.pat.fw.startAt = none)
  ∧ (∀ (s : State) (c : Nat), s.die.powered = true → s.die.u.pat.fw.startAt = some c → msT 1000 ≤ s.die.u.since c →
    ∃ d : Die, exec (.fwRevert .die) s = s.thenDie d ∧ d.u.pat.fw.active = s.die.u.pat.fw.previous
      ∧ d.u.pat.fw.reverted = true ∧ d.u.bit Reg.rasStat 4 = true)
  ∧ (∀ (s : State) (p : Part), s.on p = true → (∀ c, (s.part p).pat.fw.startAt = some c → (s.part p).since c < msT 1000) →
    exec (.fwRevert p) s = s.thenUnit p (s.part p))
  ∧ (∀ (s : State) (p : Part) (o : Origin) (x y : FwImage), s.takes p o Reg.patFwctl = true →
    (s.part p).pat.fw.bank0 = some x → (s.part p).pat.fw.bank1 = some y →
    ∃ u, exec (.fwCommit p o) s = s.thenUnit p u
      ∧ (u.pat.fw.fuse = max (s.part p).pat.fw.fuse (min x.svn y.svn))
      ∧ (min x.svn y.svn ≤ (s.part p).pat.fw.fuse → u.pat.result = 12 ∧ u.bit Reg.patErr 12 = true))

/-- 08 R293, R294, R317; 14 R491; 16 R539-R541: operator commands over an access port, `code` being RESULT. A command
that passes every check rests on the opaque signature check of log entry 7. 01 R37; 11 R403; 16 R519, R539-R541: keys,
the node override, owners. -/
def Obligations.OperatorCommands : Prop :=
  (∀ (s : State) (i : Instr) (o : Origin) (code : Nat), s.opAt i o code → code ≠ 0 →
    ∃ u, exec i s = s.thenUnit .agg u ∧ u.secu.result = code ∧ u.bit Reg.secErr 0 = true ∧ u.secu.seen = s.agg.u.secu.seen
      ∧ u.pat = s.agg.u.pat)
  ∧ (∀ (s : State) (i : Instr) (o : Origin), s.opAt i o 0 →
    ∃ a : Agg, exec i s = s.thenAgg a ∧ a.u.secu.result = 0)
  ∧ (∀ (s : State) (c : OpCmd) (g : WatchGroup) (o : Origin), s.opAt (.openGroup c g) o 0 →
    (∀ t ∈ g.trays, t.2.length = 8) → s.agg.ownsFor (wgSpans g) = true → s.agg.vote.system.held = true →
    s.agg.vote.gens < 0xFFFFFFFF → s.agg.wgBusy g = false → s.agg.wgFull g = false →
    ∃ a : Agg, exec (.openGroup c g) s = s.thenAgg a ∧ a.vote.gens = s.agg.vote.gens + 1
      ∧ ∃ x ∈ a.vote.groups, x.wgid = g.wgid.toNat ∧ x.gen = s.agg.vote.gens ∧ x.trays = wgTrays g)
  ∧ (∀ (s : State) (c : OpCmd) (g : WatchGroup) (o : Origin) (x : WGroup), s.opAt (.teardown c g) o 0 →
    (∀ t ∈ g.trays, t.2.length = 8) → s.agg.ownsFor (wgSpans g) = true →
    (s.agg.vote.groups.find? fun x => s.agg.ownsGroup x && x.wgid == g.wgid.toNat && x.until_.isNone) = some x →
    ∃ a : Agg, exec (.teardown c g) s = s.thenAgg a
      ∧ ∀ y ∈ a.vote.groups, y.wgid = x.wgid → y.gen = x.gen → y.until_ = some g.tf.toNat)
  ∧ (∀ (s : State) (c : OpCmd) (g : BitVec 6) (n : BitVec 16) (o : Origin), s.opAt (.setspares c g n) o 0 →
    s.agg.tray / 64 = g.toNat →
    ∃ a : Agg, exec (.setspares c g n) s = s.thenAgg a ∧ a.u.rdN Reg.votSpares = n.toNat)
  ∧ (∀ (s : State) (c : OpCmd) (f : Word) (n : BitVec 16) (o : Origin), s.opAt (.evread c f n) o 0 →
    exec (.evread c f n) s = s.thenUnit .agg ((s.agg.u.opAccept (c.bytes 0x10
      (leBytes 4 f.toNat ++ leBytes 2 n.toNat ++ zeros 2)) o.stamp 0).evRead f.toNat n.toNat))
  ∧ (∀ (s : State) (c : OpCmd) (r h : Bool) (o : Origin), s.opAt (.evclear c r h) o 0 →
    ∃ u, exec (.evclear c r h) s = s.thenUnit .agg u ∧ (r = true → u.evr.ring.length ≤ 1)
      ∧ (h = true → u.evr.history = []))
  ∧ (∀ (s : State) (i : Instr) (o : Origin) (c : OpCmd) (n : Nat) (x : List Byte), s.agg.runs = true → s.agg.u.inReset 5 = true →
    o.suits .agg = true → opOf i = some (c, n, x) → c.via = .port o →
    exec i s = s.thenUnit .agg { s.agg.u with secu := { s.agg.u.secu with
      waiting := s.agg.u.secu.waiting ++ [⟨c.bytes n x, o.stamp, 0, !o.sideK⟩] } })
  ∧ (∀ (s : State) (c : OpCmd) (m : BitVec 8) (k : BitVec 128) (w : List Byte) (o : Origin), s.opAt (.mkakey c m k w) o 0 →
    ∃ a : Agg, exec (.mkakey c m k w) s = s.thenAgg a
      ∧ ∀ p, p < 8 → Tab.find p a.cak = (if m.toNat.testBit p then some (k.toNat, w) else Tab.find p s.agg.cak))
  ∧ (∀ (s : State) (c : OpCmd) (d : BitVec 128) (g t : BitVec 6) (o : Origin), s.opAt (.nodeovr c d g t) o 0 →
    ∃ a : Agg, exec (.nodeovr c d g t) s = s.thenAgg a ∧ a.ovr = some (g.toNat * 64 + t.toNat)
      ∧ a.u.node = s.agg.u.node)
  ∧ (∀ (s : State) (c : OpCmd) (o : Origin) (x : List Byte), s.opAt (.enroll c o x) o 0 →
    s.agg.u.pat.owner = none ∧ o.sideK = false
    ∧ ∃ u, exec (.enroll c o x) s = s.thenUnit .agg u
      ∧ u.pat = { s.agg.u.pat with owner := some (certOwner x), cert := x })
  ∧ (∀ (s : State) (c : OpCmd) (x : List Byte) (o : Origin), s.opAt (.keyrotate c x) o 0 →
    s.agg.u.pat.owner = some (certOwner x)
    ∧ ∃ u, exec (.keyrotate c x) s = s.thenUnit .agg u ∧ u.pat = { s.agg.u.pat with cert := x })
  ∧ (∀ (s : State) (c : OpCmd) (d : BitVec 128) (o : Origin), s.opAt (.release c d) o 0 →
    ∃ a : Agg, exec (.release c d) s = s.thenAgg a ∧ a.ovr = none ∧ a.cak = [] ∧ a.u.pat.owner = none
      ∧ a.u.pat.cert = [] ∧ a.u.pat.dstore = [] ∧ ∀ p ∈ a.ports, p.2.msec = ⟨false, false, false, 0, 0, false⟩)

/-- 16 R542, R547-R549: attestation, the read buffers, the trail in flash. -/
def Obligations.Attestation : Prop :=
(∀ (s : State) (p : Part) (o : Origin), s.takes p o Reg.secAttctl = true → (s.part p).secu.nonce = none →
    ∃ u, exec (.attest p o) s = s.thenUnit p u ∧ u.secu = { (s.part p).secu with
      ready := false
      nonce := some ((List.range 8).map fun i => leBytes 4 ((s.part p).rdN (Reg.secNonce + 4 * i))).flatten })
  ∧ (∀ (s : State) (p : Part) (o : Origin), s.takes p o Reg.secAttctl = true → (s.part p).secu.nonce.isSome = true →
    ∃ u, exec (.attest p o) s = s.thenUnit p u ∧ u.secu = (s.part p).secu ∧ u.bit Reg.secErr 1 = true)
  ∧ (∀ (s : State) (p : Part) (n : List Byte), s.on p = true → (s.part p).secu.nonce = some n →
    ∃ u, exec (.attestReady p) s = s.thenUnit p u ∧ u.secu.nonce = none ∧ u.secu.ready = true
      ∧ slice u.secu.buf 24 n.length = n ∧ u.rd Reg.secAttcnt = satInc ((s.part p).rd Reg.secAttcnt))
  ∧ (∀ (s : State) (p : Part), s.on p = true → (s.part p).secu.nonce = none →
    exec (.attestReady p) s = s.thenUnit p (s.part p))
  ∧ (∀ (s : State) (p : Part) (o : Origin), s.takes p o Reg.secAttctl = true →
    ∃ u, exec (.cert p o) s = s.thenUnit p u ∧ u.secu.ready = true ∧ u.secu.buf.take 240 = deviceCert (s.part p).kind
      ∧ u.secu.nonce = (s.part p).secu.nonce)
  ∧ (∀ (s : State) (o : Origin) (i : Nat), s.die.powered = true → o.suits .die = true → o.refused = false →
    s.die.lit Reg.secBufdata = true → s.die.u.fld Reg.secBufidx 7 0 = i →
    ∃ u, exec (.bufdataRead .die o) s = s.thenUnit .die u ∧ u.resp = BitVec.ofNat 64 (leAt s.die.u.secu.buf (4 * i) 4)
      ∧ u.rdN Reg.secBufidx = (i + 1) % 256)
  ∧ (∀ (s : State) (o : Origin) (i : Nat), s.agg.runs = true → o.suits .agg = true →
    s.agg.u.fld Reg.secBufidx 7 0 = i →
    ∃ u, exec (.bufdataRead .agg o) s = s.thenUnit .agg u ∧ u.resp = BitVec.ofNat 64 (leAt s.agg.u.secu.buf (4 * i) 4)
      ∧ u.rdN Reg.secBufidx = (i + 1) % 256)
  ∧ (∀ (s : State) (o : Origin) (i n : Nat), s.die.powered = true → o.suits .die = true → o.refused = false →
    s.die.lit Reg.patAtSecdata = true → s.die.u.selOf Reg.patSel o = i → s.die.u.rdN Reg.patAtSecofs i = n →
    ∃ u, exec (.secdataRead .die o) s = s.thenUnit .die u
      ∧ u.resp = BitVec.ofNat 64 (if n < (s.die.u.sec i).length then leAt (s.die.u.sec i) n 4 else 0)
      ∧ u.rdN Reg.patAtSecofs i = (n + 4) % 2 ^ 32)
  ∧ (∀ (s : State) (o : Origin) (i n : Nat), s.agg.runs = true → o.suits .agg = true →
    s.agg.u.selOf Reg.patSel o = i → s.agg.u.rdN Reg.patAtSecofs i = n →
    ∃ u, exec (.secdataRead .agg o) s = s.thenUnit .agg u
      ∧ u.resp = BitVec.ofNat 64 (if n < (s.agg.u.sec i).length then leAt (s.agg.u.sec i) n 4 else 0)
      ∧ u.rdN Reg.patAtSecofs i = (n + 4) % 2 ^ 32)
  ∧ (∀ s : State, s.agg.runs = true → s.agg.u.kind = .agg →
    s.agg.u.aud.flash.length + s.agg.u.aud.pendFlash.length ≤ trailCap →
    ∃ u, exec (.auditFlashWrite true) s = s.thenUnit .agg u ∧ u.aud.pendFlash = []
      ∧ u.aud.flash = s.agg.u.aud.flash ++ s.agg.u.aud.pendFlash)
  ∧ (∀ s : State, s.agg.runs = true → s.agg.u.kind = .agg → s.agg.u.aud.pendFlash ≠ [] →
    ∃ u, exec (.auditFlashWrite false) s = s.thenUnit .agg u ∧ u.aud = s.agg.u.aud ∧ u.bit Reg.audErr 1 = true)

/-- 17 R554-R557: samples and the energy register. 17 R553, R554, R563, R564, R566: marks, power and the ROM check;
the fused SWCRC is opaque (log entry 7). -/
def Obligations.EnergyRegister : Prop :=
  (∀ (s : State) (v i : BitVec 24), s.cru.powered = true → s.cru.error = false → 0 ≤ s.cru.uOf v * s.cru.cOf i →
    ∃ c, exec (.crucibleSample v i false) s = s.thenCru c
      ∧ c.acc = s.cru.acc + BitVec.ofInt 112 (s.cru.uOf v * s.cru.cOf i) ∧ c.revcnt = s.cru.revcnt
      ∧ c.sampn = s.cru.sampn + 1 ∧ c.ulast = s.cru.uOf v ∧ c.clast = s.cru.cOf i)
  ∧ (∀ (s : State) (v i : BitVec 24), s.cru.powered = true → s.cru.uOf v * s.cru.cOf i < 0 →
    ∃ c, exec (.crucibleSample v i false) s = s.thenCru c ∧ c.acc = s.cru.acc ∧ c.revcnt = satInc s.cru.revcnt
      ∧ c.sampn = s.cru.sampn + 1)
  ∧ (∀ (s : State) (v i : BitVec 24) (ue : Bool), s.cru.powered = true → s.cru.error = true →
    ∃ c, exec (.crucibleSample v i ue) s = s.thenCru c ∧ c.acc = s.cru.acc ∧ c.error = true ∧ c.sampn = s.cru.sampn + 1)
  ∧ (∀ (s : State) (v i : BitVec 24) (ue : Bool), s.cru.powered = true →
    ∃ c, exec (.crucibleSample v i ue) s = s.thenCru c
      ∧ c.overNow = (atEnd v || atEnd i || decide (5 * (s.cru.cOf i).natAbs > 6000 * (s.cru.par 4).toNat))
      ∧ c.beyond = (s.cru.beyond || c.overNow)
      ∧ c.ovrcnt = (if atEnd v || atEnd i then satInc s.cru.ovrcnt else s.cru.ovrcnt)
      ∧ c.error = (s.cru.error || ue))
  ∧ (∀ (s : State) (f : Option (BitVec 128)) (u : Machine.Unit), s.cru.powered = true →
    u = (match f with | some x => (s.cru.asUnit.todFrame x).1 | none => s.cru.asUnit).markEdge.1 →
    exec (.crucibleMark f) s = s.thenCru { s.cru with tb := u.tb, fresh := u.fresh, freq := u.rd Reg.timFreq })
  ∧ (∀ (s : State) (crc : Word) (ue : Bool), s.cru.powered = false → s.agg.cruOff = false →
    s.cru.log.length < 1021 →
    ∃ c, exec (.cruciblePowerup crc ue) s = s.thenCru c ∧ c.powered = true ∧ c.acc = s.cru.acc ∧ c.clk = 0
      ∧ c.tb = timebase0 ∧ c.restart = true ∧ c.swcrc = crc ∧ c.pars = s.cru.pars ∧ c.rseq = s.cru.rseq
      ∧ c.error = (ue || decide (crc ≠ fusedCrc))
      ∧ ∃ e, c.log[s.cru.log.length]? = some e ∧ leAt e 2 1 = 1 ∧ leAt e 0x1C 4 = crc.toNat)
  ∧ (∀ s : State, s.cru.powered = true → s.cru.log.length < 1022 →
    ∃ c, exec .cruciblePowerdown s = s.thenCru c ∧ c.powered = false ∧ c.acc = s.cru.acc
      ∧ ∃ e, c.log = s.cru.log ++ [e] ∧ leAt e 2 1 = 2 ∧ leAt e 0x18 4 = s.cru.rseq.toNat)
  ∧ (∀ (s : State) (crc : Word), s.cru.powered = true →
    ∃ c, exec (.swcrcCheck crc) s = s.thenCru c ∧ c.swcrc = crc ∧ c.acc = s.cru.acc
      ∧ c.error = (s.cru.error || decide (crc ≠ fusedCrc)))
  ∧ (∀ (s : State) (f : Option (BitVec 128)) (v i : BitVec 24) (ue k : Bool) (x : CalItem) (n : BitVec 16) (p : Fin 8)
      (w : Word), s.cru.powered = false →
    exec (.crucibleMark f) s = s.thenCru s.cru ∧ exec (.crucibleSample v i ue) s = s.thenCru s.cru
    ∧ exec .crucibleReading s = s.thenCru s.cru ∧ exec .readingRepeat s = s.thenCru s.cru
    ∧ exec .crlinkLive s = s.thenCru s.cru ∧ exec .crlinkIdent s = s.thenCru s.cru ∧ exec .logResend s = s.thenCru s.cru
    ∧ exec (.calRead x) s = s.thenCru s.cru ∧ exec (.calLogRead n) s = s.thenCru s.cru
    ∧ exec (.calWrite p w k) s = s.thenCru s.cru ∧ exec (.calSeal k) s = s.thenCru s.cru
    ∧ exec .cruciblePowerdown s = s.thenCru s.cru ∧ exec (.swcrcCheck w) s = s.thenCru s.cru)

/-- 17 R559, R560, R563, R565: readings and what the Crucible sends on CRLINK. 17 R561-R563: the calibration port. -/
def Obligations.ReadingsAndCalibration : Prop :=
  (∀ (s : State) (b : List Byte), s.cru.powered = true →
    b = s.cru.readingBytes ++ Config.sign meterKey (Config.sha384 s.cru.readingBytes) →
    exec .crucibleReading s = s.thenCru { s.cru with
      rseq := s.cru.rseq + 1, lost := false, beyond := false, restart := false, reading := some (b, s.cru.clk)
      out := s.cru.out ++ [.crlink (.reading b)] })
  ∧ (∀ (c : Cru), c.readingBytes.length = 96 ∧ leAt c.readingBytes 4 4 = c.rseq.toNat ∧ leAt c.readingBytes 0x14 8 = c.emj
      ∧ leAt c.readingBytes 0x1C 4 = c.efrac ∧ leAt c.readingBytes 0x20 8 = c.sampn.toNat
      ∧ leAt c.readingBytes 0x28 4 = c.revcnt.toNat ∧ leAt c.readingBytes 0x50 4 = c.parcrc.toNat)
  ∧ (∀ (s : State) (b : List Byte) (t : Nat), s.cru.powered = true → s.cru.reading = some (b, t) →
    t + msT 10 ≤ s.cru.clk →
    exec .readingRepeat s = s.thenCru { s.cru with reading := none, out := s.cru.out ++ [.crlink (.reading b)] })
  ∧ (∀ s : State, s.cru.powered = true → (∀ b t, s.cru.reading = some (b, t) → s.cru.clk < t + msT 10) →
    exec .readingRepeat s = s.thenCru s.cru)
  ∧ (∀ s : State, s.cru.powered = true →
    exec .crlinkLive s = s.thenCru { s.cru with out := s.cru.out ++ [.crlink (.live (BitVec.ofNat 16 s.cru.stat)
      (BitVec.ofNat 64 s.cru.emj) (BitVec.ofNat 32 s.cru.efrac) (BitVec.ofNat 80 s.cru.tb.now)
      (BitVec.ofInt 32 s.cru.ulast) (BitVec.ofInt 32 s.cru.clast))] })
  ∧ (∀ s : State, s.cru.powered = true →
    exec .crlinkIdent s = s.thenCru { s.cru with
      out := s.cru.out ++ [.crlink (.ident (BitVec.ofNat 128 meterId) swid s.cru.swcrc s.cru.pars)] })
  ∧ (∀ (s : State) (e : List Byte), s.cru.powered = true → s.cru.log[s.cru.resend]? = some e →
    exec .logResend s = s.thenCru { s.cru with
      resend := (s.cru.resend + 1) % 1024, out := s.cru.out ++ [.crlink (.logent e)] })
  ∧ (∀ s : State, s.cru.powered = true → s.cru.log[s.cru.resend]? = none →
    exec .logResend s = s.thenCru { s.cru with resend := (s.cru.resend + 1) % 1024, out := s.cru.out ++ [] })
  ∧ (∀ s : State, s.cru.powered = true →
    exec (.calRead .register) s = s.thenCru { s.cru with resp := leBytes 8 s.cru.emj ++ leBytes 4 s.cru.efrac, nack := false }
    ∧ (∀ p : Fin 8, exec (.calRead (.par p)) s
        = s.thenCru { s.cru with resp := leBytes 4 (s.cru.par p.val).toNat, nack := false })
    ∧ exec (.calRead .state) s = s.thenCru { s.cru with resp := leBytes 2 s.cru.stat, nack := false }
    ∧ exec (.calRead .ident) s = s.thenCru { s.cru with
        resp := leBytes 16 meterId ++ leBytes 4 swid.toNat ++ leBytes 4 s.cru.swcrc.toNat, nack := false })
  ∧ (∀ (s : State) (n : BitVec 16) (e : List Byte), s.cru.powered = true → s.cru.log[n.toNat]? = some e →
    exec (.calLogRead n) s = s.thenCru { s.cru with resp := e, nack := false })
  ∧ (∀ (s : State) (n : BitVec 16), s.cru.powered = true → s.cru.log[n.toNat]? = none →
    exec (.calLogRead n) s = s.thenCru { s.cru with nack := true })
  ∧ (∀ (s : State) (p : Fin 8) (v : Word) (k : Bool), s.cru.powered = true → s.cru.log.length < 1021 →
    s.cru.pars.length = 8 → s.cru.sealed = false ∨ k = true → parOk p.val v = true →
    ∃ c, exec (.calWrite p v k) s = s.thenCru c ∧ c.par p.val = v ∧ (∀ q, q ≠ p.val → c.par q = s.cru.par q)
      ∧ c.nack = false ∧ c.broken = (s.cru.broken || s.cru.sealed) ∧ c.sealed = s.cru.sealed
      ∧ ∃ e ∈ c.log.drop s.cru.log.length, leAt e 2 1 = 3 ∧ leAt e 3 1 = p.val
          ∧ leAt e 0x18 4 = (s.cru.par p.val).toNat ∧ leAt e 0x1C 4 = v.toNat)
  ∧ (∀ (s : State) (p : Fin 8) (v : Word) (k : Bool), s.cru.powered = true →
    s.cru.logFull = true ∨ (s.cru.sealed = true ∧ k = false) ∨ parOk p.val v = false →
    exec (.calWrite p v k) s = s.thenCru { s.cru with nack := true })
  ∧ (∀ s : State, s.cru.powered = true → s.cru.sealed = false → s.cru.log.length < 1022 →
    ∃ c, exec (.calSeal true) s = s.thenCru c ∧ c.sealed = true ∧ c.pars = s.cru.pars ∧ c.nack = false
      ∧ ∃ e, c.log = s.cru.log ++ [e] ∧ leAt e 2 1 = 4 ∧ leAt e 0x1C 4 = s.cru.parcrc.toNat)
  ∧ (∀ (s : State) (k : Bool), s.cru.powered = true → s.cru.sealed = true ∨ k = false ∨ s.cru.logFull = true →
    exec (.calSeal k) s = s.thenCru { s.cru with nack := true })

/-- 17 R559, R565, R567, R568: frames of CRLINK at the aggregator. -/
def Obligations.CrucibleMirror : Prop :=
(∀ (s : State) (f : CrFrame), s.agg.runs = true →
    exec (.crlinkReceive f false) s = s.thenUnit .agg (s.agg.u.count Reg.cruLinkerr))
  ∧ (∀ (s : State) (st : BitVec 16) (e : BitVec 64) (fr : Word) (t : BitVec 80) (v i : Word), s.agg.runs = true →
    exec (.crlinkReceive (.live st e fr t v i) true) s = s.thenAgg { s.agg with cru := { s.agg.cru with
      seen := some s.agg.u.clk, stat := st.toNat, emj := e.toNat, efrac := fr.toNat, time := t.toNat
      vlast := v.toNat, ilast := i.toNat } })
  ∧ (∀ (s : State) (b : List Byte), s.agg.runs = true → s.agg.cru.rseq = some (leAt b 4 4) →
    exec (.crlinkReceive (.reading b) true) s
      = s.thenAgg { s.agg with cru := { s.agg.cru with seen := some s.agg.u.clk } })
  ∧ (∀ (s : State) (b : List Byte), s.agg.runs = true → s.agg.cru.rseq ≠ some (leAt b 4 4) →
    ∃ a : Agg, exec (.crlinkReceive (.reading b) true) s = s.thenAgg a ∧ a.cru.rseq = some (leAt b 4 4)
      ∧ a.cru.last = some (leAt b 0x14 8) ∧ a.cru.revcnt = leAt b 0x28 4 ∧ a.cru.ovrcnt = leAt b 0x2C 4
      ∧ (s.agg.cru.last = none → a.u = s.agg.u.energy (leAt b 8 10) (leAt b 2 1) b))
  ∧ (∀ (s : State) (e : List Byte), s.agg.runs = true →
    exec (.crlinkReceive (.logent e) true) s = s.thenAgg { s.agg with cru := { s.agg.cru with
      seen := some s.agg.u.clk, log := Tab.put (leAt e 0 2) e s.agg.cru.log
      logn := max s.agg.cru.logn (leAt e 0 2 + 1) } })
  ∧ (∀ (s : State) (m : BitVec 128) (w c : Word) (l : List Word), s.agg.runs = true →
    exec (.crlinkReceive (.ident m w c l) true) s = s.thenAgg { s.agg with cru := { s.agg.cru with
      seen := some s.agg.u.clk, mid := m.toNat, swid := w.toNat, swcrc := c.toNat, pars := l } })

/-- 17 R552: no command but the Crucible's own reaches it, and what it holds after a step depends on nothing else. -/
def Obligations.CrucibleApart : Prop :=
(∀ s t s' t' : State, s.pending = t.pending → s.cru = t.cru → s.agg.cruOff = t.agg.cruOff → step s = .next s' →
    step t = .next t' → s'.cru = t'.cru)
  ∧ (∀ s t : State, step s = .next t → t.agg.cruOff = s.agg.cruOff)
  ∧ (∀ (s : State) (crc : Word) (ue : Bool), s.agg.cruOff = true → exec (.cruciblePowerup crc ue) s = s.thenCru s.cru)

/-- 17 R556, R561-R563: every step keeps the Crucible's log within its bound, its parameters in their ranges, and
BROKEN beside SEAL; no step clears a fuse, changes or removes an entry of the log, or lowers the energy register. -/
def Obligations.CrucibleInvariant : Prop :=
∀ s t : State, step s = .next t → s.cru.Inv →
    t.cru.Inv ∧ s.cru.log <+: t.cru.log ∧ (s.cru.sealed = true → t.cru.sealed = true)
      ∧ (s.cru.broken = true → t.cru.broken = true)
      ∧ (s.cru.acc.toNat + 2 ^ 64 < 2 ^ 112 → s.cru.acc.toNat ≤ t.cru.acc.toNat)

/-- 18 R574, R576, R577, R579, R580: power states of the die unit. -/
def Obligations.PowerStates : Prop :=
(∀ s : State, s.die.powered = true → s.die.pw.target = none → s.die.pw.inforce = 0 → s.die.u.kind = .die →
    ∃ d : Die, exec (.pmRequest none 1) s = s.thenDie d ∧ d.pw = { s.die.pw with target := some 1 }
      ∧ d.u.power = 1 ∧ d.u.bit Reg.pwrStat 2 = true ∧ d.u.sco.treeQ = [] ∧ d.u.sco.denseQ = [] ∧ d.u.sco.runTree = [])
  ∧ (∀ s : State, s.die.powered = true → s.die.pw.target = none → s.die.pw.inforce < 2 → s.die.u.kind = .die →
    ∃ d : Die, exec (.pmRequest none 2) s = s.thenDie d ∧ d.pw.target = some 2 ∧ d.u.power = 2
      ∧ d.cap.armMain = none ∧ d.cap.armFast = none)
  ∧ (∀ s : State, s.die.powered = true → s.die.pw.target = none → s.die.pw.inforce = 2 →
    ∃ d : Die, exec (.pmRequest none 3) s = s.thenDie d ∧ d.pw.target = some 3 ∧ d.pw.drain = some s.die.u.clk
      ∧ d.u.recs.off = true ∧ d.u.bit Reg.pwrWakesrc 0 = true)
  ∧ (∀ (s : State) (t : Nat) (st : BitVec 2), s.die.powered = true → s.die.pw.target = some t →
    ∃ d : Die, exec (.pmRequest none st) s = s.thenDie d ∧ d.pw = { s.die.pw with kept := some st.toNat }
      ∧ d.u.fld Reg.pwrStat 4 3 = st.toNat)
  ∧ (∀ (s : State) (o : Origin) (t : Nat) (st : BitVec 2), s.die.takes o Reg.pwrReq = true → s.die.pw.target = some t →
    ∃ d : Die, exec (.pmRequest (some o) st) s = s.thenDie d ∧ d.pw = { s.die.pw with kept := some st.toNat }
      ∧ d.u.bit Reg.pwrStat 6 = false)
  ∧ (∀ (s : State) (st : Nat), s.die.powered = true → s.die.pw.target = some st → s.die.pw.drain = none →
    s.die.pw.kept = none → s.die.pw.inforce ≤ st →
    ∃ d : Die, exec .powerTransitionDone s = s.thenDie d ∧ d.pw = { s.die.pw with inforce := st, target := none }
      ∧ d.u.rd Reg.pwrTrancnt = satInc (s.die.u.rd Reg.pwrTrancnt) ∧ d.u.bit Reg.pwrStat 2 = false
      ∧ Out.pin .pmAck st ∈ d.u.out)
  ∧ (∀ (s : State) (st : Nat), s.die.powered = true → s.die.pw.target = some st → s.die.pw.drain = none →
    s.die.pw.kept = none → st < s.die.pw.inforce → s.die.pw.inforce < 4 → s.die.u.kind = .die →
    ∃ d : Die, exec .powerTransitionDone s = s.thenDie d ∧ d.pw.inforce = st ∧ d.pw.target = none ∧ d.u.power = st
      ∧ Out.pin .pmAck st ∈ d.u.out)
  ∧ (∀ s : State, s.die.powered = true → s.die.pw.target = none ∨ s.die.pw.drain.isSome = true →
    exec .powerTransitionDone s = s.thenDie s.die)
  ∧ (∀ (s : State) (c : Nat), s.die.powered = true → s.die.pw.drain = some c →
    s.die.drained = true ∨ msT (s.die.u.fld Reg.pwrDrainto 15 0) ≤ s.die.u.since c →
    ∃ d : Die, exec .hostoffDrain s = s.thenDie d ∧ d.pw = { s.die.pw with drain := none } ∧ d.u.fld Reg.pwrStat 1 0 = 3
      ∧ (s.die.drained = false → d.u.bit Reg.pwrErr 1 = true))
  ∧ (∀ s : State, s.die.powered = true →
    (∀ c, s.die.pw.drain = some c → s.die.drained = false ∧ s.die.u.since c < msT (s.die.u.fld Reg.pwrDrainto 15 0)) →
    exec .hostoffDrain s = s.thenDie s.die)
  ∧ (∀ s : State, s.die.powered = true → s.die.u.pat.fw.swapAt = none →
    exec .ladleIdle s = s.thenUnit .die (if 2 ≤ s.die.u.power then s.die.u.wrBit Reg.pwrStat 5 false else s.die.u))
  ∧ (∀ (s : State) (c : Nat), s.die.powered = true → s.die.u.pat.fw.swapAt = some c →
    ∃ u, exec .ladleIdle s = s.thenUnit .die u ∧ u.pat.fw.active = s.die.u.pat.fw.other ∧ u.pat.fw.swapAt = none)
  ∧ (∀ (s : State) (f : Side) (st : BitVec 8), s.die.powered = true → s.die.u.raceUp f.ix = true →
    s.die.u.miswired = false → s.die.pw.inforce = 2 → s.die.pw.target = none → s.die.u.bit Reg.pwrCtrl 0 = true → st.toNat < 2 →
    exec (.wake f st) s = s.thenDie { s.die with
      u := (s.die.u.wrBit Reg.pwrWakesrc 2 true).wrBit Reg.pwrStat 2 true
      pw := { s.die.pw with target := some st.toNat } })
  ∧ (∀ (s : State) (f : Side) (st : BitVec 8), s.die.powered = true →
    s.die.u.raceUp f.ix = false ∨ s.die.u.miswired = true ∨ s.die.pw.inforce ≠ 2 ∨ s.die.u.bit Reg.pwrCtrl 0 = false ∨ 4 ≤ st.toNat →
    exec (.wake f st) s = s.thenDie s.die)

/-- 18 R581-R583, R595: comparators. -/
def Obligations.Comparators : Prop :=
(∀ (s : State) (i : Fin 16) (v : Word), s.die.powered = true → s.die.u.bit Reg.pwrAtCmpen 0 i.val = true →
    s.die.u.bit Reg.pwrAtCmpstat 0 i.val = false → s.die.u.cmpBeyond i.val v = true →
    ((s.die.u.fld Reg.pwrAtCmpcfg 19 16 i.val).testBit 1 = false ∨ s.die.pw.inforce < 2) →
    ∃ u, exec (.comparatorTrip i v) s = s.thenUnit .die u ∧ u.rd Reg.pwrAtCmpval i.val = v
      ∧ u.bit Reg.pwrAtCmpstat 0 i.val = true
      ∧ u.rd Reg.pwrAtCmpcnt i.val = satInc (s.die.u.rd Reg.pwrAtCmpcnt i.val) ∧ u.bit Reg.pwrErr 2 = true
      ∧ ((s.die.u.fld Reg.pwrAtCmpcfg 19 16 i.val).testBit 3 = true → Out.pin (.cmpOut i) 1 ∈ u.out))
  ∧ (∀ (s : State) (i : Fin 16) (v : Word) (w : Nat), s.die.powered = true →
    s.die.u.bit Reg.pwrAtCmpen 0 i.val = true → s.die.u.bit Reg.pwrAtCmpstat 0 i.val = false →
    s.die.u.cmpBeyond i.val v = true → (s.die.u.fld Reg.pwrAtCmpcfg 19 16 i.val).testBit 1 = true →
    s.die.pw.inforce = 2 → s.die.pw.target = none → s.die.u.fld Reg.pwrCtrl 5 4 = w → w < 2 →
    ∃ d : Die, exec (.comparatorTrip i v) s = s.thenDie d ∧ d.pw = { s.die.pw with target := some w }
      ∧ d.u.bit Reg.pwrWakesrc 1 = true)
  ∧ (∀ (s : State) (i : Fin 16) (v : Word), s.die.powered = true →
    s.die.u.bit Reg.pwrAtCmpen 0 i.val = false ∨ s.die.u.bit Reg.pwrAtCmpstat 0 i.val = true
      ∨ s.die.u.cmpBeyond i.val v = false →
    exec (.comparatorTrip i v) s = s.thenDie s.die)
  ∧ (∀ (s : State) (i : Fin 16) (v : Word), s.die.powered = true → s.die.u.bit Reg.pwrAtCmpstat 0 i.val = true →
    s.die.u.cmpBack i.val v = true →
    ∃ u, exec (.comparatorClear i v) s = s.thenUnit .die u ∧ u.rd Reg.pwrAtCmpval i.val = v
      ∧ u.bit Reg.pwrAtCmpstat 0 i.val = false
      ∧ ((s.die.u.fld Reg.pwrAtCmpcfg 19 16 i.val).testBit 3 = true → Out.pin (.cmpOut i) 0 ∈ u.out))
  ∧ (∀ (s : State) (i : Fin 16) (v : Word), s.die.powered = true →
    s.die.u.bit Reg.pwrAtCmpstat 0 i.val = false ∨ s.die.u.cmpBack i.val v = false →
    exec (.comparatorClear i v) s = s.thenDie s.die)
  ∧ (∀ (s : State) (o : Origin) (i : Nat), s.die.takes o Reg.pwrAtCmpen = true → s.die.u.selOf Reg.pwrSel o = i →
    cmpCfgBad (s.die.u.rd Reg.pwrAtCmpcfg i) = false →
    ∃ u, exec (.comparatorEnable o true) s = s.thenUnit .die u ∧ u.rd Reg.pwrAtCmpen i = 1)
  ∧ (∀ (s : State) (o : Origin) (i : Nat), s.die.takes o Reg.pwrAtCmpen = true → s.die.u.selOf Reg.pwrSel o = i →
    cmpCfgBad (s.die.u.rd Reg.pwrAtCmpcfg i) = true →
    ∃ u, exec (.comparatorEnable o true) s = s.thenUnit .die u ∧ u.rd Reg.pwrAtCmpen i = s.die.u.rd Reg.pwrAtCmpen i
      ∧ u.rd Reg.glbAccerr = satInc (s.die.u.rd Reg.glbAccerr))
  ∧ (∀ (s : State) (o : Origin) (i : Nat), s.die.takes o Reg.pwrAtCmpen = true → s.die.u.selOf Reg.pwrSel o = i →
    ∃ u, exec (.comparatorEnable o false) s = s.thenUnit .die u ∧ u.rd Reg.pwrAtCmpen i = 0
      ∧ u.bit Reg.pwrAtCmpstat 0 i = false
      ∧ (s.die.u.bit Reg.pwrAtCmpstat 0 i = true → bitAt (s.die.u.rd Reg.pwrAtCmpcfg i) 19 = true →
          Out.pin (.cmpOut i) 0 ∈ u.out))

/-- 14 R478, R479; 15 R510; 18 R586, R588; 19 R602: resets and supplies of the die unit. -/
def Obligations.DieResets : Prop :=
(∀ s : State, s.die.powered = false →
    ∃ d : Die, exec .diePowerUp s = .next { s with die := d } ∧ d.powered = true ∧ d.u.regs = [] ∧ d.u.tb = timebase0
      ∧ d.u.recs = records0 ∧ d.u.nodeOk = false ∧ d.paired = false ∧ d.u.pat.fw.fuse = s.die.u.pat.fw.fuse)
  ∧ (∀ s : State, s.die.powered = true → exec .diePowerUp s = .next s)
  ∧ (∀ s : State, s.die.powered = true →
    ∃ d : Die, exec .diePowerLoss s = .next { s with die := d } ∧ d.powered = false
      ∧ d.u.pat.fw.fuse = s.die.u.pat.fw.fuse)
  ∧ (∀ s : State, s.die.powered = false → exec .diePowerLoss s = .next s)
  ∧ (∀ s : State, s.die.powered = true →
    ∃ d : Die, exec .dieUnitReset s = s.thenDie d ∧ (∀ k, k < 5 → d.u.bit Reg.rasStat k = true)
      ∧ d.u.rdN Reg.glbRstcause = 2 ∧ d.trc.halted = true ∧ d.u.mbx.resetK = true)
  ∧ (∀ s : State, s.die.powered = true → (∀ k, k < 5 → s.die.u.inReset k = true) → s.die.u.ep.fired = [] →
    ∃ d : Die, exec .dieUnitResetRelease s = s.thenDie d ∧ (∀ k, k < 5 → d.u.bit Reg.rasStat k = false)
      ∧ d.u.mbx.resetK = false ∧ d.u.mbx.epochK = (s.die.u.mbx.epochK + 1) % 256)
  ∧ (∀ s : State, s.die.powered = true → (∀ k, k < 5 → s.die.u.inReset k = false) →
    exec .dieUnitResetRelease s = s.thenDie s.die)
  ∧ (∀ (s : State) (ch : Nat), s.die.powered = true → ch < mbxChans s.die.u.kind →
    ∃ u, exec .hostReset s = s.thenUnit .die u ∧ u.mbx.resetH = true ∧ (u.mside ch false).queue = []
      ∧ (u.mside ch false).db = [] ∧ bitAt (u.mside ch true).flags 1 = true
      ∧ (u.mside ch true).dropcnt = satAdd (s.die.u.mside ch true).dropcnt (s.die.u.mside ch false).queue.length
      ∧ (u.mside ch true).queue = (s.die.u.mside ch true).queue)
  ∧ (∀ s : State, s.die.powered = true →
    exec .hostResetRelease s = s.thenUnit .die { s.die.u with
      mbx := { s.die.u.mbx with resetH := false, epochH := (s.die.u.mbx.epochH + 1) % 256 } })

/-- 14 R478, R479; 18 R587, R589; 19 R607, R608, R614: resets and supplies of the aggregator. -/
def Obligations.AggregatorResets : Prop :=
(∀ (s : State) (ch : Nat), s.agg.runs = true → ch < mbxChans s.agg.u.kind →
    ∃ u, exec .managementReset s = s.thenUnit .agg u ∧ u.mbx.resetH = false
      ∧ u.mbx.epochH = (s.agg.u.mbx.epochH + 1) % 256 ∧ (u.mside ch false).queue = [] ∧ (u.mside ch false).db = []
      ∧ bitAt (u.mside ch true).flags 1 = true)
  ∧ (∀ (s : State) (g t : BitVec 6) (b : Bool) (n : Nat),
    n = (match s.agg.ovr with | some n => n | none => g.toNat * 64 + t.toNat) →
    ∃ a : Agg, exec (.powerOnReset g t b) s = .next { s with agg := a } ∧ a.powered = true
      ∧ a.u.node = sideAddr n (if b then .b else .a) ∧ a.u.nodeOk = false ∧ a.ovr = s.agg.ovr ∧ a.cak = s.agg.cak
      ∧ a.jrn.flash = s.agg.jrn.flash ∧ a.u.pat.owner = s.agg.u.pat.owner ∧ a.u.pat.fw.fuse = s.agg.u.pat.fw.fuse
      ∧ a.vote.gens = s.agg.vote.gens ∧ a.jrn.afterLoss = true
      ∧ a.u.bit Reg.glbStraps 12 = b ∧ a.u.bit Reg.glbStraps 13 = s.agg.ovr.isSome)
  ∧ (∀ (s : State), s.agg.powered = true → s.agg.jrn.warn.isSome = true → s.agg.jrn.flushed = false →
    exec .systemReset s = s.thenAgg { s.agg with resetDue := true })
  ∧ (∀ (s : State), s.agg.powered = true → s.agg.jrn.warn = none ∨ s.agg.jrn.flushed = true →
    ∃ a : Agg, exec .systemReset s = s.thenAgg a ∧ a.u.inReset 6 = true ∧ a.u.nodeOk = false ∧ a.heard = []
      ∧ a.joined = false ∧ a.partner = false ∧ a.jrn.ready = false ∧ a.jrn.warn = none ∧ a.vote.props = []
      ∧ a.vote.decisions = [] ∧ a.rdx.ents = [])
  ∧ (∀ s : State, s.agg.powered = true → s.agg.u.inReset 6 = true →
    ∃ a : Agg, exec .systemResetRelease s = s.thenAgg a ∧ a.pair.since = s.agg.u.clk
      ∧ (∀ k, k ∈ coreParts → a.u.bit Reg.rasStat k = false) ∧ a.vote = s.agg.vote ∧ a.jrn = s.agg.jrn)
  ∧ (∀ s : State, s.agg.powered = true → s.agg.u.inReset 6 = false → exec .systemResetRelease s = s.thenAgg s.agg)
  ∧ (∀ s : State, s.agg.runs = true →
    exec .pcieReset s = s.thenUnit .agg (s.agg.u.wrN Reg.glbRstcause 8))
  ∧ (∀ s : State, s.agg.powered = true →
    ∃ a : Agg, exec .aggregatorPowerLoss s = .next { s with agg := a } ∧ a.powered = false ∧ a.jrn.afterLoss = true
      ∧ a.jrn.flash = s.agg.jrn.flash ∧ a.u.aud.flash = s.agg.u.aud.flash ∧ a.u.evr.history = s.agg.u.evr.history)
  ∧ (∀ s : State, s.agg.powered = false → exec .aggregatorPowerLoss s = .next s)
  ∧ (∀ (s : State) (c : BitVec 8), s.agg.runs = true → 105 < c.toNat →
    ∃ u, exec (.overtemp c) s = s.thenUnit .agg u ∧ u.fld Reg.hltAggstat 31 24 = c.toNat ∧ u.bit Reg.hltAggerr 3 = true
      ∧ Out.alarm .overTemp ∈ u.out)
  ∧ (∀ (s : State) (c : BitVec 8), s.agg.runs = true → c.toNat ≤ 105 →
    exec (.overtemp c) s = s.thenUnit .agg (s.agg.u.wrFld Reg.hltAggstat 31 24 c.toNat))

/-- 01 R44: a write to a read-only bulk window is ignored and counted in GLB_ACCERR (with its interrupt source, 18
R597). -/
def Obligations.BulkWindowWrites : Prop :=
∀ (s : State) (p : Part) (o : Origin) (ofs : BitVec 25) (size : Nat) (v : Word), s.on p = true → o.suits p = true →
    0x20000 ≤ ofs.toNat → ofs.toNat < (match p with | .die => 0x100000 | .agg => 0xE0000) →
    ∃ u, exec (.registerWrite p o ofs size v) s = s.thenUnit p u ∧ u = { (s.part p) with regs := u.regs }
      ∧ u.rd Reg.glbAccerr = satInc ((s.part p).rd Reg.glbAccerr)
      ∧ ∀ r i, r < 2 ^ 25 → r ≠ Reg.glbAccerr → r ≠ Reg.glbIrqstat → u.rd r i = (s.part p).rd r i

/-- 01 R45: select registers. The instance that a windowed register's access reaches is the one selected in its block;
a write below the count selects, any other is ignored and counted; the register reads as its IDX. -/
def Obligations.SelectRegisters : Prop :=
(∀ (s : State) (p : Part) (o : Origin) (ofs : BitVec 25) (r : RegRow) (n : Nat) (v : Word), s.takes p o ofs.toNat = true →
    regRow? ofs.toNat = some r → selCount p ofs.toNat = some n → ofs.toNat % 4 = 0 →
    ofs.toNat < (match p with | .die => 0x20000 | .agg => 0x1000000) → fieldOf v 15 0 < n →
    exec (.selectWrite p o ofs v) s = s.thenUnit p { (s.part p) with
      sel := Tab.put (ofs.toNat + o.bank * 2 ^ 25) (fieldOf v 15 0) (s.part p).sel })
  ∧ (∀ (s : State) (p : Part) (o : Origin) (ofs : BitVec 25) (r : RegRow) (n : Nat) (v : Word), s.takes p o ofs.toNat = true →
    regRow? ofs.toNat = some r → selCount p ofs.toNat = some n → ofs.toNat % 4 = 0 →
    ofs.toNat < (match p with | .die => 0x20000 | .agg => 0x1000000) → n ≤ fieldOf v 15 0 →
    ∃ u, exec (.selectWrite p o ofs v) s = s.thenUnit p u ∧ u = { (s.part p) with regs := u.regs }
      ∧ u.rd Reg.glbAccerr = satInc ((s.part p).rd Reg.glbAccerr))
  ∧ (∀ (u : Machine.Unit) (o : Origin) (r : RegRow) (ofs : Nat), r.win = true →
    u.instOf o r ofs = Tab.getD u.sel (blockBase ofs + o.bank * 2 ^ 25) 0)
  ∧ (∀ (d : Die) (o : Origin) (r : RegRow) (ofs inst n : Nat), selCount .die ofs = some n →
    d.regVal o r ofs inst = BitVec.ofNat 32 (d.u.selOf ofs o))
  ∧ (∀ (a : Agg) (o : Origin) (r : RegRow) (ofs inst n : Nat), selCount .agg ofs = some n → r.agg = true →
    a.regVal o r ofs inst = BitVec.ofNat 32 (a.u.selOf ofs o))

/-- 00_scope R19-R22; 01 R43; 02 R54; 11 R412; 17 R568: reads. RC registers clear, low halves latch. `now` is the
value that the other register would read as by itself. -/
def Obligations.ReadEffects : Prop :=
(∀ (s : State) (o : Origin) (ofs : BitVec 25) (r : RegRow) (i : Nat), s.die.powered = true → o.suits .die = true →
    o.refused = false → s.die.lit ofs.toNat = true → ofs.toNat < 0x20000 → ofs.toNat % 4 = 0 →
    regRow? ofs.toNat = some r → r.acc = .rc → r.die = true → s.die.u.instOf o r ofs.toNat = i →
    blockBase ofs.toNat ≠ Reg.mbxSel → selCount .die ofs.toNat = none → isHigh ofs.toNat = false →
    Unit.evrDenied o ofs.toNat = false → s.die.view o ofs.toNat i = none →
    ∃ u, exec (.readClear .die o ofs 4) s = s.thenUnit .die u
      ∧ u.resp = BitVec.ofNat 64 (s.die.u.rdN ofs.toNat i) ∧ u.rd ofs.toNat i = 0)
  ∧ (∀ (s : State) (o : Origin) (ofs : BitVec 25) (r : RegRow) (i : Nat), s.agg.runs = true → o.suits .agg = true →
    ofs.toNat < 0x20000 → ofs.toNat % 4 = 0 → regRow? ofs.toNat = some r → r.acc = .rc → r.agg = true →
    s.agg.u.instOf o r ofs.toNat = i → blockBase ofs.toNat ≠ Reg.mbxSel → selCount .agg ofs.toNat = none →
    isHigh ofs.toNat = false → s.agg.view o ofs.toNat i = none →
    ∃ a : Agg, exec (.readClear .agg o ofs 4) s = s.thenAgg a
      ∧ a.u.resp = BitVec.ofNat 64 (s.agg.u.rdN ofs.toNat i) ∧ a.u.rd ofs.toNat i = 0)
  ∧ (∀ (s : State) (o : Origin) (ofs : BitVec 25) (size : Nat), s.die.powered = true → o.suits .die = true →
    o.refused = false → s.die.lit ofs.toNat = true → ofs.toNat < 0x20000 → size ≠ 4 ∨ ofs.toNat % 4 ≠ 0 →
    ∃ n, exec (.readClear .die o ofs size) s = s.thenUnit .die (s.die.u.accErr.answer n)
      ∧ (4 < size → n = 0))
  ∧ (∀ (s : State) (o : Origin) (now : Nat → Word), s.die.powered = true → o.suits .die = true → o.refused = false →
    (∀ k, now k = ({ s.die with u := { s.die.u with latch := [] } }).look o k) →
    ∃ u, exec (.lowHalfRead .die o 0x1050#25 4) s = s.thenUnit .die u ∧ u.resp = BitVec.ofNat 64 (now 0x1050).toNat
      ∧ u.latched? 0x1054 0 = some (now 0x1054))
  ∧ (∀ (s : State) (o : Origin), s.die.powered = true → o.suits .die = true → o.refused = false →
    ∃ u, exec (.lowHalfRead .die o 0x1010#25 4) s = s.thenUnit .die u
      ∧ u.resp = BitVec.ofNat 64 (s.die.u.tb.now % 2 ^ 32)
      ∧ Tab.find (regKey Reg.timNows0 0) u.latch = some (BitVec.ofNat 32 (s.die.u.tb.now / 2 ^ 32))
      ∧ Tab.find (regKey Reg.timNows1 0) u.latch = some (BitVec.ofNat 32 (s.die.u.tb.now / 2 ^ 64)))
  ∧ (∀ (s : State) (o : Origin) (m : Mirror), s.agg.runs = true → o.suits .agg = true → s.agg.cru = m →
    ∃ u, exec (.lowHalfRead .agg o 0x150004#25 4) s = s.thenUnit .agg u ∧ u.resp = BitVec.ofNat 64 (m.emj % 2 ^ 32)
      ∧ u.latched? 0x150008 0 = some (BitVec.ofNat 32 (m.emj / 2 ^ 32))
      ∧ u.latched? 0x15000C 0 = some (BitVec.ofNat 32 m.efrac) ∧ u.latched? 0x150010 0 = some (BitVec.ofNat 32 m.time)
      ∧ u.latched? 0x150014 0 = some (BitVec.ofNat 32 (m.time / 2 ^ 32))
      ∧ u.latched? 0x150018 0 = some (BitVec.ofNat 32 (m.time / 2 ^ 64 % 2 ^ 16)))
  ∧ (∀ (d : Die) (o : Origin) (r : RegRow) (ofs inst : Nat) (v : Word), selCount .die ofs = none →
    d.u.latched? ofs inst = some v → d.regVal o r ofs inst = v)
  ∧ (∀ (u : Machine.Unit) (ofs inst : Nat) (now : Nat → Word) (v : Word), u.latched? ofs inst = some v →
    ofs ≠ Reg.cruTimes0 → ofs ≠ Reg.cruTimes1 → ofs ≠ Reg.timAtAts0 → ofs ≠ Reg.timAtAts1 →
    u.latchRead ofs inst now = { u with latch := Tab.del (regKey ofs inst) u.latch })

/-- 00_scope R19-R21; 01 R43; 15 R514: writes. What is refused, ignored or locked, and what a plain register holds
after one; but for the books of its audit entry nothing else changes. 15 R501; 16 R526, R533, R542: frames. But for
the books of the audit entry these change nothing but what they name. -/
def Obligations.RegisterWrites : Prop :=
  (∀ (s : State) (o : Origin) (ofs : BitVec 25) (size : Nat) (v : Word), s.die.powered = true → o.suits .die = true →
    ofs.toNat < 0x20000 →
    o.refused = true ∨ s.die.lit ofs.toNat = false ∨ size ≠ 4 ∨ ofs.toNat % 4 ≠ 0 ∨ regRow? ofs.toNat = none →
    exec (.registerWrite .die o ofs size v) s = s.thenUnit .die s.die.u.accErr)
  ∧ (∀ (s : State) (o : Origin) (ofs : BitVec 25) (size : Nat) (v : Word), s.agg.runs = true → o.suits .agg = true →
    ofs.toNat < 0x1000000 → size ≠ 4 ∨ ofs.toNat % 4 ≠ 0 ∨ regRow? ofs.toNat = none →
    exec (.registerWrite .agg o ofs size v) s = s.thenUnit .agg s.agg.u.accErr)
  ∧ (∀ (s : State) (p : Part) (o : Origin) (ofs : BitVec 25) (r : RegRow) (v : Word), s.takes p o ofs.toNat = true →
    ofs.toNat < 0x20000 → ofs.toNat % 4 = 0 → regRow? ofs.toNat = some r → r.acc = .ro ∨ r.acc = .rc →
    selCount p ofs.toNat = none →
    exec (.registerWrite p o ofs 4 v) s = s.thenUnit p (s.part p))
  ∧ (∀ (s : State) (o : Origin) (ofs : BitVec 25) (r : RegRow) (i : Nat) (v : Word), s.die.powered = true →
    o.suits .die = true → o.refused = false → s.die.lit ofs.toNat = true → ofs.toNat < 0x20000 → ofs.toNat % 4 = 0 →
    regRow? ofs.toNat = some r → r.die = true → r.acc = .rwl → selCount .die ofs.toNat = none →
    s.die.u.instOf o r ofs.toNat = i → s.die.u.locked ofs.toNat i = true →
    exec (.registerWrite .die o ofs 4 v) s = s.thenUnit .die s.die.u.lockErr)
  ∧ (∀ (s : State) (p : Part) (o : Origin) (m : Nat) (v : Word), s.takes p o Reg.rasAtScrubper = true →
    (s.part p).selOf Reg.rasSel o = m →
    ∃ u, exec (.registerWrite p o (BitVec.ofNat 25 Reg.rasAtScrubper) 4 v) s = s.thenUnit p u
      ∧ ((s.part p).wr Reg.rasAtScrubper
          (((s.part p).rd Reg.rasAtScrubper m &&& ~~~0xFFFFFF) ||| (v &&& 0xFFFFFF)) m).Noted u)
  ∧ (∀ (s : State) (p : Part) (o : Origin) (v : Word), s.takes p o Reg.rasErr = true →
    ∃ u, exec (.registerWrite p o (BitVec.ofNat 25 Reg.rasErr) 4 v) s = s.thenUnit p u
      ∧ ((s.part p).wr Reg.rasErr ((s.part p).rd Reg.rasErr &&& ~~~(v &&& 0xFF))).Noted u)
  ∧ (∀ (s : State) (p : Part) (o : Origin), s.takes p o Reg.patLoadctl = true →
    ∃ u, exec (.loadAbort p o) s = s.thenUnit p u
      ∧ ({ (s.part p) with pat := { (s.part p).pat with loading := none, verifying := none } }).Noted u)
  ∧ (∀ (s : State) (p : Part) (o : Origin) (l : Loading), s.takes p o Reg.patLoadctl = true →
    (s.part p).bit Reg.patCtrl 0 = true → (s.part p).loadBusy = false →
    l = ⟨(s.part p).rdN Reg.patLoadlen, none, [], false, o.stamp, o.onode⟩ →
    ∃ u, exec (.loadBegin p o) s = s.thenUnit p u
      ∧ ({ (s.part p) with pat := { (s.part p).pat with loading := some l } }).Noted u)
  ∧ (∀ (s : State) (p : Part) (o : Origin) (m : Nat), s.takes p o Reg.rasAtCeclr = true → (s.part p).selOf Reg.rasSel o = m →
    ∃ u, exec (.ceClear p o) s = s.thenUnit p u ∧ ((s.part p).ceClear m).Noted u
      ∧ ∀ k, k ≠ m → u.memSt k = (s.part p).memSt k)
  ∧ (∀ (s : State) (p : Part) (o : Origin) (m : BitVec 5) (x : Machine.Unit), s.takes p o Reg.rasFlipctl = true →
    memWords (s.part p).kind m.toNat ≠ 0 →
    x = (s.part p).wr Reg.rasFlipctl (((s.part p).rd Reg.rasFlipctl &&& ~~~0x1F00) ||| BitVec.ofNat 32 (256 * m.toNat)) →
    ∃ u, exec (.flipArm p o m) s = s.thenUnit p u ∧ ({ x with ras := { x.ras with flip := u.ras.flip } }).Noted u)

/-- A step on a queue with a command at its front is that command on the state with the queue's rest. The model's
choice (log entry 4): a step on an empty queue is one edge of 4 ns in each part that has power. -/
def Obligations.StepRunsFront : Prop :=
  (∀ (c : Instr) (q : List Instr) (s : State), s.pending = c :: q → step s = exec c { s with pending := q })
  ∧ (∀ s : State, s.pending = [] → step s = .next s.tick)
  ∧ (∀ s : State, s.die.powered = true → s.tick.die.u.clk = s.die.u.clk + 1)
  ∧ (∀ s : State, s.die.powered = true → s.die.u.rd Reg.timFreq = 0 → s.die.u.tb.sub = 0 →
    s.die.u.tb.now + 17 < 2 ^ 80 → s.tick.die.u.tb.now = s.die.u.tb.now + 17)
  ∧ (∀ s : State, s.agg.powered = true → s.tick.agg.u.clk = s.agg.u.clk + 1)
  ∧ (∀ s : State, s.cru.powered = true → s.tick.cru.clk = s.cru.clk + 1)
  ∧ (∀ s : State, s.die.powered = false → s.agg.powered = false → s.cru.powered = false → s.tick = s)

/-- Every command of the block completes, in every state and with every operand, and leaves the queue alone. 17 R552;
18 R569, R586, R587; log entry 15: a command acts on one part, but for the two of log entry 8 that act on both a die
unit and an aggregator; none acts on the Crucible and another part; a part without power keeps its state until power
returns. -/
def Obligations.EveryCommandCompletes : Prop :=
  (∀ (c : Instr) (s : State), ∃ t, exec c s = .next t ∧ t.pending = s.pending)
  ∧ (∀ (c : Instr) (s t : State), exec c s = .next t →
    (t.die = s.die ∨ t.agg = s.agg ∨ c = .verdictDownhold ∨ c = .alarmHeldCommit)
    ∧ (t.cru = s.cru ∨ (t.die = s.die ∧ t.agg = s.agg))
    ∧ (s.die.powered = false → c ≠ .diePowerUp → t.die = s.die)
    ∧ (s.agg.powered = false → (∀ g n b, c ≠ .powerOnReset g n b) → t.agg = s.agg))

/-- 00_scope R19; 01 R47; 02 R53, R58; 18 R588, R589: the state right after reset, as far as the spec states it. That
invariant at reset; the parameters' reset values are the model's (log entry 5). -/
def Obligations.ResetState : Prop :=
  State.reset.pending = [] ∧ State.reset.die.powered = true ∧ State.reset.agg.powered = true
  ∧ State.reset.die.u.tb.tq = 5 ∧ State.reset.agg.u.tb.tq = 5 ∧ State.reset.die.startStep = 0
  ∧ (∀ ofs inst, State.reset.die.u.rd ofs inst = regReset .die ofs inst)
  ∧ (∀ ofs inst, ofs ≠ Reg.glbStraps → State.reset.agg.u.rd ofs inst = regReset .agg ofs inst)
  ∧ State.reset.die.u.nodeOk = false ∧ State.reset.die.u.pat.meas = none ∧ State.reset.die.u.epu = 100
  ∧ State.reset.cru.Inv ∧ State.reset.cru.log = [] ∧ State.reset.cru.acc = 0
end

