-- ==== Sys2Proof/Laws/Table.lean ====
section
/-! SUPPORT. Laws of sparse tables: a read after a write of the same key gives what was written, a write of one key leaves
every other, and rising keys stay rising. -/

namespace Sys2Proof.Machine

variable {α : Type}

/-- The key written holds what was written. -/
@[simp] theorem Tab.find_put_same (k : Nat) (v : α) (t : Tab α) : Tab.find k (Tab.put k v t) = some v := by
  induction t with
  | nil => simp [Tab.put, Tab.find]
  | cons a t ih =>
    obtain ⟨j, w⟩ := a
    simp only [Tab.put]
    split
    · simp [Tab.find]
    · split
      · simp [Tab.find]
      · rename_i h1 h2
        simp [Tab.find, h1, h2, ih]

/-- Every other key holds what it held. -/
theorem Tab.find_put_other {j k : Nat} (v : α) (t : Tab α) (h : j ≠ k) : Tab.find j (Tab.put k v t) = Tab.find j t := by
  induction t with
  | nil =>
    simp only [Tab.put, Tab.find]
    rw [if_neg (Ne.symm h)]
    simp
  | cons a t ih =>
    obtain ⟨i, w⟩ := a
    simp only [Tab.put]
    split
    · subst i
      simp only [Tab.find, if_neg (Ne.symm h)]
    · split
      · simp only [Tab.find, if_neg (Ne.symm h)]
        split <;> rename_i h1 h2 <;> (repeat' split) <;> first | rfl | omega
      · simp only [Tab.find, ih]

/-- The same of the value with a default. -/
@[simp] theorem Tab.getD_put_same (k : Nat) (v d : α) (t : Tab α) : Tab.getD (Tab.put k v t) k d = v := by
  simp [Tab.getD]

theorem Tab.getD_put_other {j k : Nat} (v d : α) (t : Tab α) (h : j ≠ k) :
    Tab.getD (Tab.put k v t) j d = Tab.getD t j d := by simp [Tab.getD, Tab.find_put_other v t h]

/-- A key is in what a write leaves only where it was written or was there. -/
theorem Tab.mem_put {k : Nat} {v : α} {t : Tab α} {p : Nat × α} (h : p ∈ Tab.put k v t) : p = (k, v) ∨ p ∈ t := by
  induction t with
  | nil => exact .inl (by simpa [Tab.put] using h)
  | cons a t ih =>
    obtain ⟨j, w⟩ := a
    simp only [Tab.put] at h
    split at h
    · rcases List.mem_cons.mp h with h | h
      · exact .inl h
      · exact .inr (List.mem_cons_of_mem _ h)
    · split at h
      · rcases List.mem_cons.mp h with h | h
        · exact .inl h
        · exact .inr h
      · rcases List.mem_cons.mp h with h | h
        · exact .inr (h ▸ List.mem_cons_self)
        · rcases ih h with h | h
          · exact .inl h
          · exact .inr (List.mem_cons_of_mem _ h)

/-- Keys that rise strictly still do after a write. -/
theorem Tab.wf_put (k : Nat) (v : α) (t : Tab α) (h : Tab.wf t = true) : Tab.wf (Tab.put k v t) = true := by
  induction t with
  | nil => simp [Tab.put, Tab.wf]
  | cons a t ih =>
    obtain ⟨j, w⟩ := a
    simp only [Tab.wf, Bool.and_eq_true, List.all_eq_true, decide_eq_true_eq] at h
    simp only [Tab.put]
    split
    · subst j
      simp only [Tab.wf, Bool.and_eq_true, List.all_eq_true, decide_eq_true_eq]
      exact h
    · split
      · rename_i h1 h2
        simp only [Tab.wf, Bool.and_eq_true, List.all_eq_true, decide_eq_true_eq, List.mem_cons]
        refine ⟨?_, h⟩
        rintro p (rfl | hp)
        · exact h2
        · exact Nat.lt_trans h2 (h.1 p hp)
      · rename_i h1 h2
        simp only [Tab.wf, Bool.and_eq_true, List.all_eq_true, decide_eq_true_eq]
        refine ⟨fun p hp => ?_, ih h.2⟩
        rcases Tab.mem_put hp with rfl | hp
        · show j < k
          omega
        · exact h.1 p hp

/-- What a removal leaves was there. -/
theorem Tab.mem_del {k : Nat} {t : Tab α} {p : Nat × α} (h : p ∈ Tab.del k t) : p ∈ t := by
  induction t with
  | nil => simp [Tab.del] at h
  | cons a t ih =>
    obtain ⟨j, w⟩ := a
    simp only [Tab.del] at h
    split at h
    · exact List.mem_cons_of_mem _ h
    · split at h
      · exact h
      · rcases List.mem_cons.mp h with h | h
        · exact h ▸ List.mem_cons_self
        · exact List.mem_cons_of_mem _ (ih h)

/-- Keys that rise strictly still do after a removal. -/
theorem Tab.wf_del (k : Nat) (t : Tab α) (h : Tab.wf t = true) : Tab.wf (Tab.del k t) = true := by
  induction t with
  | nil => simp [Tab.del, Tab.wf]
  | cons a t ih =>
    obtain ⟨j, w⟩ := a
    have h' := h
    simp only [Tab.wf, Bool.and_eq_true, List.all_eq_true, decide_eq_true_eq] at h
    simp only [Tab.del]
    split
    · exact h.2
    · split
      · exact h'
      · simp only [Tab.wf, Bool.and_eq_true, List.all_eq_true, decide_eq_true_eq]
        exact ⟨fun p hp => h.1 p (Tab.mem_del hp), ih h.2⟩

end Sys2Proof.Machine
end

