-- ==== Sys2Proof/Laws/State.lean ====
section
/-! SUPPORT. What each small update of a part leaves in each field, and what a register reads as after a write of it. -/

namespace Sys2Proof.Machine

/-! ### Registers -/

/-- Keys of registers are told apart: the offset lies below 2^25. -/
theorem regKey_inj {o i o' i' : Nat} (h : o < 2 ^ 25) (h' : o' < 2 ^ 25) (e : regKey o i = regKey o' i') :
    o = o' ∧ i = i' := by
  simp only [regKey] at e
  have h1 : (o + i * 2 ^ 25) % 2 ^ 25 = (o' + i' * 2 ^ 25) % 2 ^ 25 := by rw [e]
  have h2 : (o + i * 2 ^ 25) / 2 ^ 25 = (o' + i' * 2 ^ 25) / 2 ^ 25 := by rw [e]
  omega

@[simp] theorem Unit.rd_wr_same (u : Unit) (o i : Nat) (v : Word) : (u.wr o v i).rd o i = v := by
  simp [Unit.rd, Unit.wr]

theorem Unit.rd_wr_other (u : Unit) {o i o' i' : Nat} (v : Word) (h : o < 2 ^ 25) (h' : o' < 2 ^ 25)
    (n : o' ≠ o ∨ i' ≠ i) : (u.wr o v i).rd o' i' = u.rd o' i' := by
  have k : regKey o' i' ≠ regKey o i := fun e => by
    have := regKey_inj h' h e
    omega
  simp [Unit.rd, Unit.wr, Tab.find_put_other v u.regs k]

/-! ### A write of a register changes nothing else -/

section
variable (u : Unit) (o : Nat) (v : Word) (i : Nat)

@[simp] theorem Unit.wr_kind : (u.wr o v i).kind = u.kind := rfl
@[simp] theorem Unit.wr_node : (u.wr o v i).node = u.node := rfl
@[simp] theorem Unit.wr_nodeOk : (u.wr o v i).nodeOk = u.nodeOk := rfl
@[simp] theorem Unit.wr_clk : (u.wr o v i).clk = u.clk := rfl
@[simp] theorem Unit.wr_fresh : (u.wr o v i).fresh = u.fresh := rfl
@[simp] theorem Unit.wr_out : (u.wr o v i).out = u.out := rfl
@[simp] theorem Unit.wr_sel : (u.wr o v i).sel = u.sel := rfl
@[simp] theorem Unit.wr_latch : (u.wr o v i).latch = u.latch := rfl
@[simp] theorem Unit.wr_resp : (u.wr o v i).resp = u.resp := rfl
@[simp] theorem Unit.wr_tb : (u.wr o v i).tb = u.tb := rfl
@[simp] theorem Unit.wr_ep : (u.wr o v i).ep = u.ep := rfl
@[simp] theorem Unit.wr_trg : (u.wr o v i).trg = u.trg := rfl
@[simp] theorem Unit.wr_recs : (u.wr o v i).recs = u.recs := rfl
@[simp] theorem Unit.wr_evr : (u.wr o v i).evr = u.evr := rfl
@[simp] theorem Unit.wr_aud : (u.wr o v i).aud = u.aud := rfl
@[simp] theorem Unit.wr_flm : (u.wr o v i).flm = u.flm := rfl
@[simp] theorem Unit.wr_pat : (u.wr o v i).pat = u.pat := rfl
@[simp] theorem Unit.wr_sco : (u.wr o v i).sco = u.sco := rfl
@[simp] theorem Unit.wr_drf : (u.wr o v i).drf = u.drf := rfl
@[simp] theorem Unit.wr_ras : (u.wr o v i).ras = u.ras := rfl
@[simp] theorem Unit.wr_mbx : (u.wr o v i).mbx = u.mbx := rfl
@[simp] theorem Unit.wr_race : (u.wr o v i).race = u.race := rfl
@[simp] theorem Unit.wr_secu : (u.wr o v i).secu = u.secu := rfl

end

/-! ### An output changes nothing else -/

section
variable (u : Unit) (x : Out)

@[simp] theorem Unit.emit_out : (u.emit x).out = u.out ++ [x] := rfl
@[simp] theorem Unit.emit_regs : (u.emit x).regs = u.regs := rfl
@[simp] theorem Unit.emit_kind : (u.emit x).kind = u.kind := rfl
@[simp] theorem Unit.emit_clk : (u.emit x).clk = u.clk := rfl
@[simp] theorem Unit.emit_tb : (u.emit x).tb = u.tb := rfl
@[simp] theorem Unit.emit_ep : (u.emit x).ep = u.ep := rfl
@[simp] theorem Unit.emit_recs : (u.emit x).recs = u.recs := rfl
@[simp] theorem Unit.emit_pat : (u.emit x).pat = u.pat := rfl
@[simp] theorem Unit.emit_mbx : (u.emit x).mbx = u.mbx := rfl
@[simp] theorem Unit.emit_race : (u.emit x).race = u.race := rfl
@[simp] theorem Unit.rd_emit (o i : Nat) : (u.emit x).rd o i = u.rd o i := rfl

end

/-! ### The parts of the block -/

section
variable (s : State) (q : List Instr)

@[simp] theorem State.pending_die : { s with pending := q }.die = s.die := rfl
@[simp] theorem State.pending_agg : { s with pending := q }.agg = s.agg := rfl
@[simp] theorem State.pending_cru : { s with pending := q }.cru = s.cru := rfl
@[simp] theorem State.pending_same : { s with pending := q }.pending = q := rfl
@[simp] theorem State.part_die : s.part .die = s.die.u := rfl
@[simp] theorem State.part_agg : s.part .agg = s.agg.u := rfl
@[simp] theorem State.on_die : s.on .die = s.die.powered := rfl
@[simp] theorem State.on_agg : s.on .agg = s.agg.runs := rfl
@[simp] theorem State.lit_die : s.lit .die = s.die.powered := rfl
@[simp] theorem State.lit_agg : s.lit .agg = s.agg.powered := rfl

end

/-! ### A command on a part that is there -/

/-- A command acts on a die unit that is powered. -/
theorem State.onDie_on {s : State} (f : Die → Die) (h : s.die.powered = true) : s.onDie f = s.thenDie (f s.die) := by
  simp [State.onDie, State.thenDie, h]

/-- A command acts on an aggregator that runs. -/
theorem State.onAgg_on {s : State} (f : Agg → Agg) (h : s.agg.runs = true) : s.onAgg f = s.thenAgg (f s.agg) := by
  simp [State.onAgg, State.thenAgg, h]

/-- A command of AON acts on an aggregator that is powered. -/
theorem State.onAggAon_lit {s : State} (f : Agg → Agg) (h : s.agg.powered = true) :
    s.onAggAon f = s.thenAgg (f s.agg) := by simp [State.onAggAon, State.thenAgg, h]

/-- A command acts on what both parts have, on the part that is there. -/
theorem State.onUnit_on {s : State} {p : Part} (f : Unit → Unit) (h : s.on p = true) :
    s.onUnit p f = s.thenUnit p (f (s.part p)) := by
  cases p
  · simp only [State.onUnit, State.thenUnit, State.part, State.onDie_on _ h, Die.onU]
  · simp only [State.onUnit, State.thenUnit, State.part, State.onAgg_on _ h, Agg.onU]

/-- The same for AON. -/
theorem State.onAon_lit {s : State} {p : Part} (f : Unit → Unit) (h : s.lit p = true) :
    s.onAon p f = s.thenUnit p (f (s.part p)) := by
  cases p
  · simp only [State.onAon, State.thenUnit, State.part, State.onDie_on _ h, Die.onU]
  · simp only [State.onAon, State.thenUnit, State.part, State.onAggAon_lit _ h, Agg.onU]

/-- The same for a command that may fire trigger channels. -/
theorem State.onTime_lit {s : State} {p : Part} (f : Unit → Unit × List TrigAct) (h : s.lit p = true) :
    s.onTime p f = s.thenTimed p (f (s.part p)) := by
  cases p
  · simp only [State.onTime, State.thenTimed, State.part, State.onDie_on _ h]
  · simp only [State.onTime, State.thenTimed, State.part, State.onAggAon_lit _ h]

/-- Where no channel fired and no step was counted, the unit is all that changed. -/
theorem State.thenTimed_plain {s : State} {p : Part} (u : Unit)
    (h : u.rd Reg.timStepcnt = (s.part p).rd Reg.timStepcnt) : s.thenTimed p (u, []) = s.thenUnit p u := by
  cases p
  · simp [State.thenTimed, State.thenUnit, Die.acts]
  · simp only [State.part] at h
    simp [State.thenTimed, State.thenUnit, Agg.timed, h]

/-- A part that is not there stays as it is. -/
theorem State.onDie_off {s : State} (f : Die → Die) (h : s.die.powered = false) : s.onDie f = .next s := by
  simp [State.onDie, h]

/-- The same of the aggregator. -/
theorem State.onAgg_off {s : State} (f : Agg → Agg) (h : s.agg.runs = false) : s.onAgg f = .next s := by
  simp [State.onAgg, h]

end Sys2Proof.Machine
end

