-- ==== Sys2Proof/Laws/Frame.lean ====
section
/-! SUPPORT. Records, events and audit entries leave every other thing of a part as it is (09 R339; 14 R483; 16 R543). -/

namespace Sys2Proof.Machine

namespace Unit

theorem Noted.refl (u : Unit) : u.Noted u := ⟨rfl, fun _ _ _ _ => rfl⟩

theorem Noted.trans {x y z : Unit} (h : x.Noted y) (k : y.Noted z) : x.Noted z :=
  ⟨k.1.trans h.1, fun o i ho hn => (k.2 o i ho hn).trans (h.2 o i ho hn)⟩

/-- A write of a register of the books. -/
theorem Noted.wr {x y : Unit} (h : x.Noted y) {o : Nat} (v : Word) (i : Nat) (ho : o ∈ noteRegs) : x.Noted (y.wr o v i) := by
  refine ⟨h.1, fun o' i' h1 h2 => ?_⟩
  have lt : o < 2 ^ 25 := by
    revert ho
    revert o
    decide
  rw [rd_wr_other _ v lt h1 (.inl fun e => h2 (e ▸ ho))]
  exact h.2 o' i' h1 h2

/-- A change of the books alone. -/
theorem Noted.books {x y : Unit} (h : x.Noted y) (a : List Out) (b : Nat) (c : Records) (d : Recorder) (e : Audit) (f : Flume) :
    x.Noted { y with out := a, fresh := b, recs := c, evr := d, aud := e, flm := f } := ⟨h.1, h.2⟩

theorem Noted.count {x y : Unit} (h : x.Noted y) {o : Nat} (i : Nat) (ho : o ∈ noteRegs) : x.Noted (y.count o i) := h.wr _ _ ho

theorem Noted.irq {x y : Unit} (h : x.Noted y) (k : Nat) : x.Noted (y.irq k) := h.wr _ _ (by decide)

theorem Noted.err {x y : Unit} (h : x.Noted y) {o : Nat} (k : Nat) (ho : o ∈ noteRegs) : x.Noted (y.err o k) := by
  have h1 : x.Noted (y.wrBit o k true) := h.wr _ _ ho
  simp only [Unit.err]
  split
  · exact h1.irq 2
  · split
    · exact h1.irq 10
    · exact h1

theorem Noted.setStream {x y : Unit} (h : x.Noted y) (c : Nat) (s : Stream) : x.Noted (y.setStream c s) := h.books _ _ _ _ _ _

theorem Noted.noteRef {x y : Unit} (h : x.Noted y) (d : Draft) (n : Nat) (k : Bool) : x.Noted (y.noteRef d n k) := by
  simp only [Unit.noteRef]
  split
  · exact h.books _ _ _ _ _ _
  · exact h

theorem Noted.markAud {x y : Unit} (h : x.Noted y) (a : Option Nat) (m : Nat) : x.Noted (y.markAud a m) := by
  cases a
  · exact h
  · exact h.books _ _ _ _ _ _

theorem Noted.accept {x y : Unit} (h : x.Noted y) (d : Draft) (b : List Byte) (c k s : Bool) : x.Noted (y.accept d b c k s) := by
  simp only [Unit.accept]
  split
  · exact (((h.setStream _ _).noteRef _ _ _).markAud _ _).books _ _ _ _ _ _
  · exact ((h.setStream _ _).noteRef _ _ _).markAud _ _

theorem Noted.hold {x y : Unit} (h : x.Noted y) (d : Draft) : x.Noted (y.hold d) := h.books _ _ _ _ _ _

theorem Noted.commitAlarm {x y : Unit} (h : x.Noted y) (d : Draft) : x.Noted (y.commitAlarm d) := by
  simp only [Unit.commitAlarm]
  repeat' split
  · exact h
  · exact h.accept _ _ _ _ _
  · exact h.hold d

theorem Noted.refuse {x y : Unit} (h : x.Noted y) (d : Draft) : x.Noted (y.refuse d) := by
  have h1 : x.Noted ((((y.markAud d.aseq 0).err Reg.recErr 0).count Reg.recRefcnt).irq 4) :=
    (((h.markAud _ _).err 0 (by decide)).count 0 (by decide)).irq 4
  simp only [Unit.refuse]
  generalize ((((y.markAud d.aseq 0).err Reg.recErr 0).count Reg.recRefcnt).irq 4) = z at *
  split
  · split
    · exact h1.books _ _ _ _ _ _
    · exact ((h1.books _ _ _ _ _ _).commitAlarm _).books _ _ _ _ _ _
  · split
    · exact h1.books _ _ _ _ _ _
    · exact ((h1.books _ _ _ _ _ _).commitAlarm _).books _ _ _ _ _ _

theorem Noted.wait {x y : Unit} (h : x.Noted y) (d : Draft) : x.Noted (y.wait d) := by
  simp only [Unit.wait]
  split
  · exact h.markAud _ _
  · exact h.books _ _ _ _ _ _

theorem Noted.commitAs {x y : Unit} (h : x.Noted y) (d : Draft) (b : List Byte) (c k : Bool) : x.Noted (y.commitAs d b c k) := by
  simp only [Unit.commitAs]
  split
  · exact h.wait d
  · split
    · exact h.commitAlarm d
    · split
      · exact h.markAud _ _
      · split
        · exact h.refuse d
        · split
          · exact (h.accept _ _ _ _ _).books _ _ _ _ _ _
          · exact h.refuse d

theorem Noted.submit {x y : Unit} (h : x.Noted y) (d : Draft) : x.Noted (y.submit d) := by
  simp only [Unit.submit]
  split
  · exact (h.markAud _ _).books _ _ _ _ _ _
  · exact h.commitAs _ _ _ _

/-- A record leaves everything but the books. -/
theorem Noted.record {x y : Unit} (h : x.Noted y) (typ : Nat) (c : RecClass) (b : List Byte) : x.Noted (y.record typ c b) :=
  h.submit _

theorem Noted.eventRecord {x y : Unit} (h : x.Noted y) (e : EvEntry) : x.Noted (y.eventRecord e) := by
  simp only [Unit.eventRecord]
  split
  · split
    · exact ((h.count (o := Reg.evrAtSupp) _ (by decide)).err (o := Reg.evrErr) _ (by decide)).books _ _ _ _ _ _
    · exact h.submit _
  · exact h

theorem Noted.eventAt {x y : Unit} (h : x.Noted y) (code : Nat) (args : List Word) (sw : Bool) (t dl : Nat) (st : Word) (se : Nat) :
    x.Noted (y.eventAt code args sw t dl st se) := by
  have h1 : x.Noted (y.count Reg.evrAtCnt code) := h.count _ (by decide)
  simp only [Unit.eventAt]
  split
  · exact h
  · split
    · exact h1
    · split
      · exact ((h1.count _ (by decide)).count _ (by decide)).err _ (by decide)
      · exact ((h1.wr _ _ (by decide)).books _ _ _ _ _ _).eventRecord _

/-- An event leaves everything but the books. -/
theorem Noted.event {x y : Unit} (h : x.Noted y) (code : Nat) (args : List Word) : x.Noted (y.event code args) :=
  h.eventAt _ _ _ _ _ _ _

theorem Noted.offerAud {x y : Unit} (h : x.Noted y) (e : AudEntry) : x.Noted (y.offerAud e) := by
  simp only [Unit.offerAud]
  exact (h.books _ _ _ _ _ _).submit _

theorem Noted.offers {x y : Unit} (h : x.Noted y) (l : List AudEntry) : x.Noted (l.foldl Unit.offerAud y) := by
  induction l generalizing y with
  | nil => exact h
  | cons e l ih => exact ih (h.offerAud e)

/-- An audit entry leaves everything but the books. -/
theorem Noted.auditAt {x y : Unit} (h : x.Noted y) (t act : Nat) (st : Word) (on : Node) (ofs ix : Nat) (a b : Digest) :
    x.Noted (y.auditAt t act st on ofs ix a b) := by
  simp only [Unit.auditAt, Unit.offerAll]
  refine Noted.offers (Noted.books ?_ _ _ _ _ _ _) _
  have h1 := (h.count (o := Reg.audLostcnt) 0 (by decide)).err (o := Reg.audErr) 0 (by decide)
  repeat' split
  all_goals first | exact h1 | exact h

/-- The same of an entry made now. -/
theorem Noted.audit {x y : Unit} (h : x.Noted y) (act : Nat) (st : Word) (on : Node) (ofs ix : Nat) (a b : Digest) :
    x.Noted (y.audit act st on ofs ix a b) := h.auditAt _ _ _ _ _ _ _ _

/-- The audit entry of a register write leaves everything but the books. -/
theorem Noted.auditWrite {x y : Unit} (h : x.Noted y) (o : Origin) (ofs ix : Nat) (a b : Word) (c : Bool) :
    x.Noted (y.auditWrite o ofs ix a b c) := by
  simp only [Unit.auditWrite]
  split
  · exact h
  · exact h.audit _ _ _ _ _ _ _

theorem Noted.emit {x y : Unit} (h : x.Noted y) (o : Out) : x.Noted (y.emit o) := h.books _ _ _ _ _ _

theorem Noted.alarm {x y : Unit} (h : x.Noted y) (w : AlarmWhy) : x.Noted (y.alarm w) := h.emit _

/-- A register stored again with its own value. -/
theorem Noted.wr_rd {x y : Unit} (h : x.Noted y) (o i : Nat) (ho : o < 2 ^ 25) (v : Word) (hv : v = y.rd o i) :
    x.Noted (y.wr o v i) := by
  refine ⟨h.1, fun o' i' h1 h2 => ?_⟩
  by_cases e : o' = o ∧ i' = i
  · obtain ⟨rfl, rfl⟩ := e
    rw [rd_wr_same, hv]
    exact h.2 _ _ h1 h2
  · rw [rd_wr_other _ v ho h1 (by omega)]
    exact h.2 o' i' h1 h2

/-! ### What a unit with new books keeps -/

section
variable {x y : Unit} (h : x.Noted y)
include h

theorem Noted.kind : y.kind = x.kind := by have := congrArg Unit.kind h.1; exact this
theorem Noted.node : y.node = x.node := by have := congrArg Unit.node h.1; exact this
theorem Noted.nodeOk : y.nodeOk = x.nodeOk := by have := congrArg Unit.nodeOk h.1; exact this
theorem Noted.clk : y.clk = x.clk := by have := congrArg Unit.clk h.1; exact this
theorem Noted.sel : y.sel = x.sel := by have := congrArg Unit.sel h.1; exact this
theorem Noted.tb : y.tb = x.tb := by have := congrArg Unit.tb h.1; exact this
theorem Noted.ep : y.ep = x.ep := by have := congrArg Unit.ep h.1; exact this
theorem Noted.trg : y.trg = x.trg := by have := congrArg Unit.trg h.1; exact this
theorem Noted.pat : y.pat = x.pat := by have := congrArg Unit.pat h.1; exact this
theorem Noted.sco : y.sco = x.sco := by have := congrArg Unit.sco h.1; exact this
theorem Noted.drf : y.drf = x.drf := by have := congrArg Unit.drf h.1; exact this
theorem Noted.ras : y.ras = x.ras := by have := congrArg Unit.ras h.1; exact this
theorem Noted.mbx : y.mbx = x.mbx := by have := congrArg Unit.mbx h.1; exact this
theorem Noted.race : y.race = x.race := by have := congrArg Unit.race h.1; exact this
theorem Noted.secu : y.secu = x.secu := by have := congrArg Unit.secu h.1; exact this

end

end Unit

end Sys2Proof.Machine
end

