-- ==== Sys2Proof/Laws/Access.lean ====
section
/-! SUPPORT. A write that a register takes (00_scope R19; 01 R43-R45), said once for each part. -/

namespace Sys2Proof.Machine

/-- A write that the die unit takes goes to the register. -/
theorem Die.write_takes (d : Die) (o : Origin) (ofs : Nat) (v : Word) (r : RegRow) (h : d.takes o ofs = true)
    (hr : regRow? ofs = some r) (hs : selCount .die ofs = none) (ha : r.acc ≠ .ro ∧ r.acc ≠ .rc)
    (ht : ¬(ofs = Reg.timAtArm ∧ d.u.instOf o r ofs < 2)) (hb : badValue .die ofs v = false)
    (ho : ofs < 0x20000) (h4 : ofs % 4 = 0) :
    d.write o ofs 4 v = d.take o r ofs (d.u.instOf o r ofs) v := by
  have h20 : ofs % 2 ^ 20 = ofs := Nat.mod_eq_of_lt (by omega)
  simp only [Die.takes, hr, Bool.and_eq_true, Bool.not_eq_true'] at h
  obtain ⟨⟨⟨⟨-, hsu⟩, href⟩, hlit⟩, hdie, hlock⟩ := h
  have hn : ¬ (0x20000 ≤ ofs) := Nat.not_le.mpr ho
  have hacc : ¬ (r.acc = .ro ∨ r.acc = .rc) := fun hc => hc.elim ha.1 ha.2
  rw [Die.write]
  simp only [h20, hsu, href, hlit, h4, hn, Bool.not_true, decide_false, ne_eq, not_true_eq_false, Bool.or_self, hr, hdie,
    Bool.false_eq_true, if_true, if_false]
  rw [Die.store]
  simp only [hs, if_neg hacc, if_neg ht, hlock, hb, Bool.false_eq_true, if_false]

/-- A write that the aggregator takes goes to the register. -/
theorem Agg.write_takes (a : Agg) (o : Origin) (ofs : Nat) (v : Word) (r : RegRow) (h : a.takes o ofs = true)
    (hr : regRow? ofs = some r) (hs : selCount .agg ofs = none) (ha : r.acc ≠ .ro ∧ r.acc ≠ .rc)
    (ht : ¬(ofs = Reg.timAtArm ∧ a.u.instOf o r ofs < 2)) (hb : badValue .agg ofs v = false)
    (ho : ofs < 0x1000000) (h4 : ofs % 4 = 0) :
    a.write o ofs 4 v = a.takeWrite o r ofs (a.u.instOf o r ofs) v := by
  simp only [Agg.takes, hr, Bool.and_eq_true, Bool.not_eq_true'] at h
  obtain ⟨⟨-, hsu⟩, hagg, hlock⟩ := h
  have hn : ¬ (0x1000000 ≤ ofs) := Nat.not_le.mpr ho
  have hacc : ¬ (r.acc = .ro ∨ r.acc = .rc) := fun hc => hc.elim ha.1 ha.2
  rw [Agg.write]
  simp only [hsu, h4, hn, Bool.not_true, ne_eq, not_true_eq_false, or_self, hr, hagg, Bool.false_eq_true, if_true, if_false]
  rw [Agg.store]
  simp only [hs, if_neg hacc, if_neg ht, hlock, hb, Bool.false_eq_true, if_false]

/-- A taken write is what the register holds afterwards, the books of its audit entry, and its command. -/
theorem Die.take_noted (d : Die) (o : Origin) (r : RegRow) (ofs inst : Nat) (v : Word) :
    ∃ u, (d.put o r ofs inst v).u.Noted u
      ∧ d.take o r ofs inst v = ({ d.put o r ofs inst v with u := u }).command o ofs inst v (d.u.rd Reg.trcCtrl) := by
  simp only [Die.take]
  split
  · exact ⟨_, (Unit.Noted.refl _).auditWrite _ _ _ _ _ _, rfl⟩
  · exact ⟨_, Unit.Noted.refl _, rfl⟩

/-- The same at the aggregator. -/
theorem Agg.take_noted (a : Agg) (o : Origin) (r : RegRow) (ofs inst : Nat) (v : Word) :
    ∃ u, (a.put o r ofs inst v).u.Noted u
      ∧ a.takeWrite o r ofs inst v = ({ a.put o r ofs inst v with u := u }).command o ofs inst v := by
  simp only [Agg.takeWrite]
  split
  · exact ⟨_, (Unit.Noted.refl _).auditWrite _ _ _ _ _ _, rfl⟩
  · exact ⟨_, Unit.Noted.refl _, rfl⟩

/-- Counting a frame does not change which addresses the aggregator accepts. -/
theorem Agg.accepts_count (a : Agg) (p : Nat) (n : Node) :
    (a.onU fun u => u.count Reg.fltAtRxfrm p).accepts n = a.accepts n := by
  have h : ∀ k, (a.u.count Reg.fltAtRxfrm p).rd Reg.glbStraps k = a.u.rd Reg.glbStraps k := fun k =>
    Unit.rd_wr_other a.u _ (by decide) (by decide) (.inl (by decide))
  simp only [Agg.accepts, Agg.identity, Agg.onU, Unit.fld, Unit.bit, h]
  rfl

/-- A frame that reaches the aggregator is counted, and then it acts. -/
theorem Agg.arrive_hears (s : State) (i : FleetIn) (k : Agg → Agg) (h : s.hears i = true) :
    s.agg.arrive i k = k (s.agg.received i) := by
  simp only [State.hears, Bool.and_eq_true, Bool.not_eq_true'] at h
  obtain ⟨⟨⟨-, hp⟩, hd⟩, ho⟩ := h
  have hd' : (s.agg.onU fun u => u.count Reg.fltAtRxfrm i.port.val).accepts i.dest = true := by rw [Agg.accepts_count, hd]
  have ho' : (!i.col && (s.agg.onU fun u => u.count Reg.fltAtRxfrm i.port.val).u.nodeOk
      && decide (addrEff i.orig = (s.agg.onU fun u => u.count Reg.fltAtRxfrm i.port.val).u.node)) = false := ho
  simp only [Agg.received, Agg.arrive, hp, hd', ho', Bool.not_true, Bool.false_eq_true, if_false, id]

/-- A register of which a write stores nothing keeps its value. -/
theorem Unit.stored_none (u : Unit) (r : RegRow) (ofs inst : Nat) (v : Word) (h : r.mask = 0) :
    u.stored r ofs inst v = u.rd ofs inst := by
  have m : wrMask u.kind r ofs = 0 := by simp [wrMask, h]
  have z : BitVec.ofNat 32 (if ofs = Reg.trcCtrl ∧ u.bit Reg.trcCtrl 0 = true then 0 &&& 1 else 0) = 0#32 := by
    split <;> rfl
  have a : ∀ w : Word, w &&& 4294967295#32 = w := fun w => BitVec.and_allOnes (x := w)
  simp only [Unit.stored, m, z]
  split <;> simp [a]

end Sys2Proof.Machine
end

