-- ==== Sys2Proof/Tests/Slice0.lean ====
section
/-! SUPPORT. Tests: terms that `Instr.wf` refuses, one for each of its checks; worked examples of the spec, with the numbers
that the spec works out; and for every statement of Obligations.lean with hypotheses a theorem `witness_<Name>`, which
shows for each clause of it, in order, a state and operands that meet the clause's hypotheses together. -/

namespace Sys2Proof.Tests

set_option Elab.async false

open Sys2Proof Sys2Proof.Machine

/-! ### States and operands of the tests -/

abbrev U := Machine.Unit
def od : Origin := .host 1 3 0
def oa : Origin := .i3c
/-- The reset state, with the power state and the partition status written out so that they are found at once. -/
def base : State :=
  let f := fun (u : U) => { u with regs := [(regKey Reg.rasStat 0, 0), (regKey Reg.pwrStat 0, 0)] }
  { State.reset with
    die := { State.reset.die with u := f State.reset.die.u }, agg := { State.reset.agg with u := f State.reset.agg.u } }
def wD (f : Die → Die) : State := { base with die := f base.die }
def wA (f : Agg → Agg) : State := { base with agg := f base.agg }
def wC (f : Cru → Cru) : State := { base with cru := f base.cru }
def wU (f : U → U) : State :=
  { base with die := { base.die with u := f base.die.u }, agg := { base.agg with u := f base.agg.u } }
def setTb (g : Timebase → Timebase) (u : U) : U := { u with tb := g u.tb }
def setEp (g : Epochs → Epochs) (u : U) : U := { u with ep := g u.ep }
def setSco (g : Score → Score) (u : U) : U := { u with sco := g u.sco }
def reg (ofs v : Nat) (inst : Nat := 0) (u : U) : U := u.wrN ofs v inst
def setSec (k : Nat) (b : List Byte) (u : U) : U := { u with pat := { u.pat with secs := Tab.put k ⟨1, b⟩ u.pat.secs } }
def named (n : Nat) (u : U) : U := { u with node := BitVec.ofNat 24 n, nodeOk := true }
def timed (now : Nat) (u : U) : U := { u with tb := { u.tb with now := now, tq := 0 }, ep := { u.ep with started := true } }
def aged (c : Nat) (u : U) : U := { u with clk := c }
def ptpA (a : Agg) : Agg :=
  { a with u := reg Reg.timPtpcfg 0x100 0 a.u, ports := [(0, { a.port 0 with state := 2 })] }
def ptpB (a : Agg) : Agg :=
  { a with u := { a.u with tb := { a.u.tb with ptp := { a.u.tb.ptp with master := some (0, 0), t3 := some 77 } } } }
def head0 : ImgHead := ⟨5, 0, 0, 100, 9, 0, 0, 0, 0, 0, 0, 0, 0, 0, 0, 0⟩
def img0 (fast : Bool) : Image := ⟨fast, head0, [], [], [], [], [], 1⟩
def slotW (fast : Bool) (st : Nat) (built : Bool) : Slot := ⟨st, img0 fast, built, 0, false, 0⟩
def caps (g : Cap → Cap) (d : Die) : Die := { d with cap := g d.cap }
def fired0 (m f : Option Nat) : Fired := ⟨m, f, 9, false, 0, 0, 100, 100, false⟩
/-- An instant has fired, CAP is armed for it, and it waits for its latch. -/
def armD (f : Fired) (d : Die) : Die :=
  caps (fun c => { c with armMain := some (100, 9) }) { d with u := setEp (fun e => { e with fired := [f] }) d.u }
/-- A PLAN section of one plan: number 3, version 1, scope and owner as given, every epoch, one lane of 1 per die. -/
def planSec (scope owner : Nat) : List Byte :=
  leBytes 8 1 ++ [3, 1, 1, BitVec.ofNat 8 (2 * scope + 8 * owner), 1, 0, 0, 0, 100, 0, 100, 0, 100, 0, 100, 0] ++ zeros 8
    ++ leBytes 8 0x500
def latW (n : Nat) : Latched := ⟨n, 9, [], [], [], [], [], [], [], planSec 0 0, false⟩
def planW (scope owner : Nat) : Plan :=
  ⟨3, 1, 0, scope, owner, false, 1, 0, [100, 100, 100, 100], 0, 0, 0, [parseLaneD 0x500], ((planSec scope owner).drop 8).take 24⟩
def fin0 : FleetIn := ⟨1, 0x400001, true, 0, 0xF00000⟩
def portUpA (p : Nat) (a : Agg) : Agg := { a with ports := Tab.put p { a.port p with state := 2 } a.ports }
def runs0 (scope owner : Nat) (a : Agg) : Agg :=
  portUpA 1 { a with u := setSec 9 (planSec scope owner) a.u, joined := true, partner := true }
def chainOn (st : ChainStatus) (a : Agg) : Agg :=
  { a with u := { a.u with clk := 2500 }, chains := [(0, { a.chain 0 with status := st, last := 31 })] }
def lit0 (a : Agg) : Agg := { a with u := timed (2 ^ 40) a.u }
def entW (k : RdxKey) (nexp : Nat) (exp : List Nat) : RdxEnt :=
  ⟨k, 9, 0, 0, exp, [], [], true, nexp, 0, 0, 0, false, none, none, planSec 0 0⟩
def run0 (ty : Byte) (ok : Bool) : Runner :=
  { rtype := ty, plan := 3, split := false, repeated := false, fast := false, epn := 7, orig := 0x400005, hops := 0, contrib := 1
    sref := 0, turnat := 31, pver := 1, gen := 0, lanes := [(parseLaneD 0x500).identity], crcOk := ok }
def raceUpU (p : Nat) (u : U) : U :=
  { u with race := { u.race with ports := Tab.put p { u.rport p with state := 2, cred := [8, 8, 160, 136, 136] } u.race.ports } }
def vecH : VecHead := ⟨100, 0, 9, 0, false, false, false, false, false, 0⟩
def vec0 (ready : Bool) : Vec := ⟨1, 0, true, false, vecH, [], [], ready⟩
def job0 : Job := ⟨1, 2, 0, 0⟩
def bankSec (l : Tab (List Byte)) (u : U) : U := setSco (fun x => { x with bank0 := ⟨l.map fun p => (p.1, ⟨1, p.2⟩), []⟩ }) u
/-- A TREE section of one ensemble without trees for slot 2. -/
def treeSec : List Byte := leBytes 8 1 ++ [2, 0, 0, 0] ++ zeros 48
/-- A DENSE section of one model for slot 2: no inputs, one output joined with tree slot 0. -/
def denseSec : List Byte := leBytes 8 1 ++ [2, 0, 0, 0] ++ zeros 8 ++ [1] ++ zeros 19 ++ (zeros 9 ++ [1, 0, 0] ++ zeros 36)
def treeJob (u : U) : U :=
  setSco (fun x => { x with runTree := [job0], vecs := [vec0 true] }) (bankSec [(5, treeSec)] u)
def denseJobW (u : U) : U :=
  setSco (fun x => { x with runDense := some job0, vecs := [vec0 true] }) (bankSec [(7, denseSec)] u)
def wait0 : DenseWait := ⟨job0, [(5, false)], false, false, false, 0, false⟩
/-- A DRIFT section of one metric; its flags as given. -/
def driftSec (flags : Byte) : List Byte := leBytes 8 1 ++ [1] ++ zeros 31 ++ ([0, 0, 0, flags] ++ zeros 28)
def batch0 (flags : Byte) (band : Option Nat) : Batch :=
  ⟨100, 9, 0, false, band, none, driftSec flags, [], [(0, .num 5)], []⟩
def driftOn (flags : Byte) (band : Option Nat) (u : U) : U :=
  let u := setSec 8 (driftSec flags) u
  { u with drf := { u.drf with batches := [batch0 flags band] } }
def wits (g : Wit → Wit) (d : Die) : Die := { d with wit := g d.wit }
def pend0 : WitPend := ⟨7, 1, 4, false, 9, 0, none, none, none⟩
def sig0 (e s : Nat) : WitSig := ⟨e, s, 0, 0⟩
def cond0 (st : Nat) : WitCond := ⟨9, st, [0], 1, 0, 0, 0⟩
def ens0 : Ens := ⟨2, 0, 0, 0, 0, 0, 0, 0, [0, 0, 0], [0, 0, 0], [0, 0, 0], [], [], []⟩
def model0 : Model := ⟨2, 0, 0, 0, 0, 0, 0, 1, [], [], [⟨⟨0, 0, 0⟩, 1, 0, false, [0, 0, 0], [0, 0, 0], [0, 0, 0]⟩], [], [[]]⟩
def fence0 (kind : Byte) (gen fseq : Word) (subj : Node) : Fence :=
  ⟨kind, 0, 3, gen, fseq, subj, 1, 77, 9, 0, 0, 0, 0, []⟩
def votes (g : Vote → Vote) (a : Agg) : Agg := { a with vote := g a.vote }
def inGroup (v : Vote) : Vote := { v with group := { v.group with held := true, term := 4 } }
def inSystem (v : Vote) : Vote := { v with system := { v.system with held := true, term := 4 } }
def decider (a : Agg) : Agg :=
  votes (fun v => inSystem (inGroup v)) (portUpA 1 { a with joined := true, u := reg Reg.votCtrl 1 0 (reg Reg.wfaCtrl 1 0 a.u) })
/-- A decider that hears the majority. -/
def ruling (a : Agg) : Agg :=
  let a := decider a
  votes (fun v => { v with beats := [(0, a.u.clk)], gbeats := [(0, a.u.clk)] }) { a with u := reg Reg.votGcfg 0 0 a.u }
def aggedA (c : Nat) (a : Agg) : Agg := { a with u := aged c a.u }
def hlts (g : Hlt → Hlt) (d : Die) : Die := { d with hlt := g d.hlt }
def cmd0 (n : Word) (dest : Node) : ChainCmd := ⟨n, 0, dest, 0, 0, .powerFail⟩
def flight0 (own other : Option Nat) (re : Bool) : InFlight := ⟨2, cmd0 9 0xFFFFFF, own, other, 0, re⟩
def dv0 : DieVote := { dieVote0 with comp := 2, score := 800, cause := 1 }
def prop0 : Proposal := ⟨0, 2, 1, 0, 800, 0, 0, 0⟩
def vh0 : VoteHead := ⟨0, 0x400400, 1, 4, 0⟩
def dec0 (esc : Bool) : Decision := ⟨fence0 2 1 1 0, [], false, esc, false, 0, 0⟩
def pub0 : Published := ⟨fence0 2 1 1 0, false, [(0x400400, fence0 2 1 1 0)], 0, 0⟩
def big : Nat := 2 ^ 34
def wfgOn (d : Die) : Die := { d with u := reg Reg.wfgCtrl 1 0 (timed (2 ^ 40) d.u) }
def asm0 : Assembly := ⟨0, 0, false, [0x400400], [], [], [], []⟩
def hangs (g : Hang → Hang) (a : Agg) : Agg := { a with hang := g a.hang }
def recsU (g : Records → Records) (u : U) : U := { u with recs := g u.recs }
def draft0 (c : RecClass) : Draft := ⟨4, 0, c, 9, 0, [1, 2, 3], none⟩
def ev0 : EvEntry := ⟨5, 0, [1], 9, 0, 0, 0, 0, 0, 3, 0⟩
def rec0 (chk : Option Word) (seq : Seq) : Rec :=
  let r : Rec := ⟨3, 0, 4, 3, seq, 9, 0, 0, [1, 2, 3, 4]⟩
  { r with chk := chk.getD r.goodChk }
/-- The one segment of a record. -/
def seg0 (c : RecClass) (r : Rec) : RecSeg := ⟨4, c, 0, true, true, r.bytes⟩
def streamU (cls : Nat) (x : Stream) (u : U) : U := recsU (fun r => { r with streams := Tab.put cls x r.streams }) u
def headD (g : Head → Head) (d : Die) : Die := { d with headA := g d.headA }
def hs0 : HeadStream := ⟨none, 0, 0, false, 0⟩
def jrnA (a : Agg) : Agg := { a with u := reg Reg.jrnCtrl 1 0 (raceUpU 2 a.u), jrn := { a.jrn with ready := true } }
def jst0 (i : Nat) (g : JStream → JStream) (a : Agg) : Agg :=
  { a with jrn := { a.jrn with streams := Tab.put i (g (a.jst i)) a.jrn.streams } }
def frame0 : RaceFrame := ⟨0x14, 1, 8, 5, true, true, false, 0⟩
def chainA (p : Nat) (st : ChainStatus) (a : Agg) : Agg := { a with chains := Tab.put p { a.chain p with status := st } a.chains }
def namedA (n : Nat) (a : Agg) : Agg := { a with u := named n a.u }
def enum0 (s : Side) (h : Byte) : EnumMsg := ⟨0, 0, 1, 32, s, h, 7⟩
def pxrd0 : ProxyAcc := ⟨.pcie, 2, 0x10, 4, none⟩
def pxA (a : Agg) : Agg := { a with u := reg (Reg.glbPxslot + 8) 0x80000043 0 a.u }
def fpU (g : FPort → FPort) (a : Agg) : Agg := { a with ports := Tab.put 1 (g (a.port 1)) a.ports }
def gcl0 : Gcl := ⟨[(0x1F, 100000)], 5, 2 ^ 41⟩
def sluA (g : SluPort → SluPort) (a : Agg) : Agg := a.setSlu 1 (g (a.sluice 1))
def tsD (g : TStream → TStream) (d : Die) : Die := { d with trc := { d.trc with streams := Tab.put 3 (g (d.ts 3)) d.trc.streams } }
def sess0 : TSession := ⟨false, 0, false⟩
def sessD (x : TSession) (d : Die) : Die := { d with trc := { d.trc with session := some x } }
def slotEv : TraceSlot := ⟨.indirect 1 0x1000, 0, 0, 0, false⟩
def blk0 : TBlock := ⟨0, false, [1, 2], none⟩
def watchU (u : U) : U :=
  reg Reg.wchCtrl 1 0 (reg Reg.wchAtEn 1 2 (reg Reg.wchAtCfg 0x40000000 2 (reg Reg.wchAtLol 16 2 (reg Reg.wchAtHil 31 2 u))))
def wreq0 : WatchReq := ⟨31, 1, false, 0, 0⟩
def recA (seq : Seq) : Rec :=
  let r : Rec := ⟨4, 0, 4, 0, seq, 9, 0, 0, [1, 2, 3, 4]⟩
  { r with chk := r.goodChk }
def tok0 : List Byte := zeros 5 ++ [1] ++ zeros 24 ++ List.replicate 10 0xFF
def flmU (g : Flume → Flume) (u : U) : U := { u with flm := g u.flm }
def comp0 : Compressing := ⟨draft0 .record, 3, false, false, 0⟩
def sideU (ch : Nat) (k : Bool) (g : MbxSide → MbxSide) (u : U) : U := u.setSide ch k (g (u.mside ch k))
def mbxOpen (u : U) : U := sideU 0 true (fun x => { x with cfg := 1 }) (sideU 0 false (fun x => { x with cfg := 1 }) u)
def svc0 : MbxWord := ⟨0x01000007, 0, 0⟩
def rasU (g : Ras → Ras) (u : U) : U := { u with ras := g u.ras }
def scrubOn (m : Nat) (u : U) : U := reg Reg.rasCtrl 1 0 (reg Reg.rasAtScrubper 1 m u)
def patU (g : Pat → Pat) (u : U) : U := { u with pat := g u.pat }
def load0 (race : Option Nat) : Loading := ⟨8, race, [(0, [1, 2, 3, 4])], false, 0, 0⟩
def content0 (eff : Nat) : Content := ⟨true, 1, eff, 0, [], 0, 0, none⟩
def img1 : FwImage := ⟨1, 0, 0⟩
def fwU (g : Firmware → Firmware) (u : U) : U := patU (fun p => { p with fw := g p.fw }) u
def secuU (g : Sec → Sec) (u : U) : U := { u with secu := g u.secu }
def cruOn (c : Cru) : Cru := { c with powered := true }
def pwr (g : Power → Power) (d : Die) : Die := { d with pw := g d.pw }
def op0 : OpCmd := ⟨.port .pcie, 0xFFFFFF, 256, 7, zeros 96⟩
/-- An owned aggregator whose time is at hand, so that a command of the owner passes where its signature does. -/
def ownedA (a : Agg) : Agg :=
  { decider a with u := timed 256 (patU (fun p => { p with owner := some 5, cert := zeros 240 }) (decider a).u) }
def wg0 : WatchGroup := ⟨9, [(0, [1, 0, 0, 0, 0, 0, 0, 0])], 2 ^ 40⟩
def wgroup0 : WGroup := ⟨9, 3, [(0, [1])], 1, 0, none, true⟩
/-- A container of a D pattern without sections, for an aggregator to distribute. -/
def cont0 : List Byte := [0x4B, 0x5A, 0x50, 0x54, 1, 0, 0x44, 0] ++ zeros 8 ++ [176, 0, 0, 0] ++ zeros 156
def cmpOn (v : Nat) (u : U) : U := reg Reg.pwrAtCmpen 1 2 (reg Reg.pwrAtCmpthr 100 2 (reg Reg.pwrAtCmpcfg v 2 u))
def row0 : RegRow := ⟨0, 0, .ro, 0, 0, false, false, false, false, false⟩
def cert0 : List Byte := [0x4B, 0x5A, 0x43, 0x54, 1, 5, 0, 0] ++ leBytes 8 5 ++ zeros 224
theorem below3 {α : Type} {f : Nat → Option α} {P : Nat → α → Prop} (h0 : f 0 = none) (h1 : f 1 = none)
    (h2 : f 2 = none) : ∀ q x, q < 3 → f q = some x → P q x := by
  intro q x hq h
  rcases (by omega : q = 0 ∨ q = 1 ∨ q = 2) with rfl | rfl | rfl
  · rw [h0] at h; cases h
  · rw [h1] at h; cases h
  · rw [h2] at h; cases h
theorem opZero {u : U} {b : List Byte} {names : Node → Bool} {port : Bool} (hs : ∀ k d x, Config.sigValid k d x = true)
    (h : opFormat b = true ∧ (u.opKey b).isSome = true ∧ u.opLate (leAt b 0x0C 10) = false
      ∧ (u.opSeen.any fun p => decide (p.1 = leAt b 0x0C 10) && decide (p.2.1 = leAt b 0x18 8)) = false
      ∧ names (BitVec.ofNat 24 (leAt b 8 3)) = true ∧ opArgsOk (opcOf b) (opArgs b) = true
      ∧ u.opStateOk (opcOf b) (opArgs b) port = true) : u.opCode b names port = 0 := by
  obtain ⟨h1, h2, h3, h4, h5, h6, h7⟩ := h
  obtain ⟨k, h2⟩ := Option.isSome_iff_exists.mp h2
  simp [Unit.opCode, h1, h2, h3, h4, h5, h6, h7, hs]
theorem opZeroId {u : U} {b : List Byte} {names : Node → Bool} {port : Bool} (hs : ∀ k d x, Config.sigValid k d x = true)
    (hd : devid .agg = 5)
    (h : opFormat b = true ∧ (u.opKey b).isSome = true ∧ u.opLate (leAt b 0x0C 10) = false
      ∧ (u.opSeen.any fun p => decide (p.1 = leAt b 0x0C 10) && decide (p.2.1 = leAt b 0x18 8)) = false
      ∧ names (BitVec.ofNat 24 (leAt b 8 3)) = true ∧ leAt (opArgs b) 0 16 = 5 ∧ (opcOf b = 0x21 ∨ opcOf b = 0x32)
      ∧ (opArgs b).length = (if opcOf b = 0x21 then 20 else 16) ∧ leAt (opArgs b) 16 1 < 64 ∧ leAt (opArgs b) 17 1 < 64
      ∧ leAt (opArgs b) 18 2 = 0 ∧ u.opStateOk (opcOf b) (opArgs b) port = true) : u.opCode b names port = 0 := by
  obtain ⟨h1, h2, h3, h4, h5, h6, ho, hl, h8, h9, h10, h7⟩ := h
  refine opZero hs ⟨h1, h2, h3, h4, h5, ?_, h7⟩
  rcases ho with ho | ho <;> simp [opArgsOk, ho, hd, h6, h8, h9, h10, hl]
theorem opZeroCert {u : U} {b : List Byte} {names : Node → Bool} {port : Bool} (hs : ∀ k d x, Config.sigValid k d x = true)
    (h : opFormat b = true ∧ (u.opKey b).isSome = true ∧ u.opLate (leAt b 0x0C 10) = false
      ∧ (u.opSeen.any fun p => decide (p.1 = leAt b 0x0C 10) && decide (p.2.1 = leAt b 0x18 8)) = false
      ∧ names (BitVec.ofNat 24 (leAt b 8 3)) = true ∧ opArgs b = cert0 ∧ (opcOf b = 0x30 ∨ opcOf b = 0x31)
      ∧ u.opStateOk (opcOf b) (opArgs b) port = true) : u.opCode b names port = 0 := by
  obtain ⟨h1, h2, h3, h4, h5, h6, ho, h7⟩ := h
  refine opZero hs ⟨h1, h2, h3, h4, h5, ?_, h7⟩
  have hc : operatorCert cert0 = true := by
    have : (decide (cert0.length = 240) && decide (leAt cert0 0 4 = 0x54435A4B) && decide (leAt cert0 4 1 = 1)
      && decide (leAt cert0 5 1 = 5) && allZero (slice cert0 6 2) && allZero (slice cert0 0x10 8)
      && allZero (slice cert0 0x22 2) && allZero (slice cert0 0x84 12)) = true := by decide +kernel
    rw [operatorCert, hs, this]; rfl
  rcases ho with ho | ho <;> simp [opArgsOk, ho, h6, hc]
theorem verifyZero {u : U} {l : Loading} (hs : ∀ k d x, Config.sigValid k d x = true)
    (h : l.bad = false ∧ (parseCont l.gather).formatOk = true ∧ u.distributes (parseCont l.gather) = true
      ∧ (parseCont l.gather).cert = false ∧ u.pat.cert.isEmpty = false ∧ (parseCont l.gather).isFw = false
      ∧ u.ownerOk (parseCont l.gather) = true ∧ u.pat.arbMinD ≤ (parseCont l.gather).arb ∧ (parseCont l.gather).kind ≠ 1
      ∧ (parseCont l.gather).tableOk true = true) : u.verifyCode l l.gather = 0 := by
  obtain ⟨h1, h2, h3, h4, h5, h6, h7, h8, h9, h10⟩ := h
  simp [Unit.verifyCode, Unit.contKey, h1, h2, h3, h4, h5, h6, h7, h9, h10, hs, Nat.not_lt.mpr h8]

/-! ### Ill-formed commands -/

/-- A fence with an extension of so many bytes. -/
def fenceExt (n : Nat) : Fence := { fence0 0 0 0 0 with ext := zeros n }

theorem test_wf_wrong_part : (Instr.registerWrite .agg od 0 4 0).wf = false := by decide +kernel
theorem test_wf_right_part : (Instr.registerWrite .die od 0 4 0).wf = true := by decide +kernel
theorem test_wf_size : (Instr.registerWrite .die od 0 3 0).wf = false := by decide +kernel
theorem test_wf_die_port : (Instr.creditStall .die 2).wf = false := by decide +kernel
theorem test_wf_fence_ext : (Instr.fenceReceive (fenceExt 3)).wf = false := by decide +kernel
theorem test_wf_fence_long : (Instr.fenceReceive (fenceExt 1024)).wf = false := by decide +kernel
theorem test_wf_relay_drafts : (Instr.relayReceive fin0 vh0 [fenceExt 3]).wf = false := by decide +kernel
theorem test_wf_pairup : (Instr.pairup .a ⟨false, 0, 0, [], 0⟩).wf = false := by decide +kernel
theorem test_wf_chunk_empty : (Instr.patchunk .a 0 0 []).wf = false := by decide +kernel
theorem test_wf_chunk_long : (Instr.cmdReceive .a { cmd0 0 0 with op := .patChunk 0 0 (zeros 217) }).wf = false := by
  decide +kernel
theorem test_wf_lanes_none : (Instr.runnerFold .a { run0 3 true with lanes := [] }).wf = false := by decide +kernel
theorem test_wf_lanes_many :
    (Instr.runnerFold .a { run0 3 true with lanes := List.replicate 33 (parseLaneD 0x500).identity }).wf = false := by
  decide +kernel
theorem test_wf_signature : (Instr.evclear { op0 with sig := [] } true true).wf = false := by decide +kernel
theorem test_wf_command_port : (Instr.evclear { op0 with via := .port od } true true).wf = false := by decide +kernel
theorem test_wf_evread_none : (Instr.evread op0 0 0).wf = false := by decide +kernel
theorem test_wf_evread_many : (Instr.evread op0 0 129).wf = false := by decide +kernel
theorem test_wf_payload : (Instr.recordReceive 0 { seg0 .alarm (recA 0) with data := zeros 49 }).wf = false := by decide +kernel
theorem test_wf_trace_slots : (Instr.traceEvent 0 [slotEv, slotEv, slotEv]).wf = false := by decide +kernel
theorem test_wf_watch_lanes : (Instr.watchMatch [wreq0, wreq0, wreq0, wreq0, wreq0]).wf = false := by decide +kernel
theorem test_wf_channel : (Instr.ping .die 8).wf = false := by decide +kernel
theorem test_wf_partition : (Instr.partitionReset .die 6 none).wf = false := by decide +kernel
theorem test_wf_open_tray : (Instr.openGroup op0 { wg0 with trays := [(0, [1])] }).wf = false := by decide +kernel
theorem test_wf_wrapped : (Instr.mkakey op0 0 0 []).wf = false := by decide +kernel
theorem test_wf_enroll : (Instr.enroll op0 oa []).wf = false := by decide +kernel
theorem test_wf_keyrotate : (Instr.keyrotate op0 []).wf = false := by decide +kernel
theorem test_wf_proxy_size : (Instr.proxyAccess { pxrd0 with size := 5 }).wf = false := by decide +kernel
theorem test_wf_pm_origin : (Instr.pmRequest (some oa) 0).wf = false := by decide +kernel

/-! ### Worked examples of the spec -/

/-- 09 R335: the check value of CRC-32C. -/
theorem test_crc32c : crc32c [0x31, 0x32, 0x33, 0x34, 0x35, 0x36, 0x37, 0x38, 0x39] = 0xE3069283 := by decide +kernel

/-- 02, the example after R66: epoch 1,735,689,600,123 at EPU = 100 has these ten bytes. -/
theorem test_instant :
    leBytes 10 (instantOf (1735689600123 * 100)) = [0x92, 0xED, 0x7C, 0x1F, 0x80, 0x85, 0x74, 0x67, 0x00, 0x00] := by
  decide +kernel

/-- 01, the example after R27: die unit 12 of package 2 on tray 17 of group 3, seen from aggregator B of the tray. -/
theorem test_die_address : (({ base.agg with u := named 0x834400 base.agg.u } : Agg)).dieAddr 76 = 0x034530 := by
  decide +kernel

/-- 11, the gate schedule: the largest RUNNER frame of a port at 100 Gb/s with MACsec and OVH 20 counts 8,790 bytes, a tray
result of 32 scalar lanes 630, a TRAY_BEAT 116. -/
theorem test_counted_lengths :
    let a : Agg := { base.agg with u := reg Reg.fltAtMsecctl 1 0 base.agg.u }
    (a.frameBytes 0 8704 + 20, a.frameBytes 0 544 + 20, a.frameBytes 0 28 + 20) = (8790, 630, 116) := by decide +kernel

/-- 13, the worked record: 32 bytes of 0 at level 0. -/
theorem test_flume_frame :
    flmFrame (zeros 32) 0 none = [0x46, 0x4C, 1, 0, 0, 0, 0x1F, 0] ++ zeros 12 ++ [0, 0, 0x9B, 0, 0, 0xAA, 0x36, 0x91, 0x8A] := by
  decide +kernel

/-- 13 R464: the frame decodes to its payload. -/
theorem test_flume_back :
    flmDecode ([0x46, 0x4C, 1, 0, 0, 0, 0x1F, 0] ++ zeros 12 ++ [0, 0, 0x9B, 0, 0, 0xAA, 0x36, 0x91, 0x8A]) none
      = (0, zeros 32, 32) := by decide +kernel

/-- 14, the worked post: the entry of code 0xC10. -/
theorem test_event_entry :
    (evBytes ⟨0xC10, 1, [7, 0x300], 0x67748580 * 2 ^ 32 + 0x20000000, 0, 0x01232005, 3, 0x034514, 0, 0x51, 0⟩).take 40
      = [0x10, 0x0C, 0x01, 0x02, 0, 0, 0, 0x20, 0x80, 0x85, 0x74, 0x67, 0, 0, 0, 0, 0x05, 0x20, 0x23, 0x01, 0x03, 0x14, 0x45,
        0x03, 0, 0, 0, 0, 0x51, 0, 0, 0, 7, 0, 0, 0, 0, 3, 0, 0] := by decide +kernel

/-- 15, the example after R512: data 1 has check 0x07; bit 2 flipped gives syndrome 0x0D, which names bit 2. -/
theorem test_ecc_correctable :
    (eccCheck 1, eccCheck 5, eccSyndrome 4, eccBit 0x0D) = (0x07, 0x0A, 0x0D, some 2) := by decide +kernel

/-- The same example: bits 1 and 2 flipped give syndrome 0x06, which names none. -/
theorem test_ecc_uncorrectable : (eccSyndrome 6, eccBit 6) = (0x06, none) := by decide +kernel

/-- 17, the example: the Crucible of the example. -/
def cruEx : Cru := { base.cru with powered := true, pars := [0, 167772160, 120, 419430400, 300000, 1000, 0, 0] }

/-- 17, the example: the codes read as 54 V and 150 A. -/
theorem test_crucible_units : (cruEx.uOf 5400000, cruEx.cOf 6000120) = (54000000, 150000000) := by decide +kernel

/-- 17, the example: one sample makes the register 1,012.5 mJ. -/
theorem test_crucible_energy :
    ((cruEx.sample 5400000 6000120 false).emj, (cruEx.sample 5400000 6000120 false).efrac) = (1012, 0x80000000) := by
  decide +kernel

/-- A command runs from the front of the queue (the block's step). -/
theorem test_step_front :
    (match step { State.reset with pending := [.cruciblePowerdown, .diePowerLoss] } with
      | .next s => s.pending
      | _ => []) = [.diePowerLoss] := by decide +kernel

/-- 18 R587: a die unit without power holds nothing. -/
theorem test_die_power_loss :
    (match exec .diePowerLoss State.reset with | .next s => s.die.powered | _ => true) = false := by decide +kernel

/-! ### Witnesses of the statements' hypotheses -/

theorem witness_MarksAndEpochs :
    (∃ (p : Part) (s : State) (t n : Nat), s.lit p = true ∧ (s.part p).tb.tq = 5 ∧ (s.part p).tb.next = some (t, n) ∧ 1 < n)
    ∧ (∃ (p : Part) (s : State) (t n : Nat), s.lit p = true ∧ (s.part p).tb.tq = 5 ∧ (s.part p).tb.next = some (t, n) ∧ n ≤ 1)
    ∧ (∃ (p : Part) (s : State), s.lit p = true ∧ (s.part p).tb.tq ≠ 5 ∧ withinNs (phaseErr (s.part p).tb.now) 200 = true)
    ∧ (∃ (p : Part) (s : State), s.lit p = true ∧ (s.part p).tb.tq ≠ 5 ∧ withinNs (phaseErr (s.part p).tb.now) 200 = false ∧
      ((s.part p).tb.tq = 3 ∨ (s.part p).tb.bad < 3))
    ∧ (∃ (p : Part) (s : State) (f : BitVec 128), s.lit p = true ∧ (crc32c (leBytes 10 (bitsOf f.toNat 87 8))).toNat ≠ bitsOf
      f.toNat 119 88)
    ∧ (∃ (p : Part) (s : State) (f : BitVec 128), s.lit p = true ∧ (s.part p).tb.tq = 5 ∧ (s.part p).tb.next = none ∧ (crc32c
      (leBytes 10 (bitsOf f.toNat 87 8))).toNat = bitsOf f.toNat 119 88 ∧ bitsOf f.toNat 7 0 = 0x7E)
    ∧ (∃ (p : Part) (s : State) (x : Machine.Unit), s.lit p = true ∧ (s.part p).epSwitch = x ∧ x.epochsFire = true ∧
      x.ep.catchTo = none ∧ instantOf x.nextMain ≤ x.tb.now)
    ∧ (∃ (p : Part) (s : State) (x : Machine.Unit), s.lit p = true ∧ (s.part p).epSwitch = x ∧ x.epochsFire = true ∧
      x.ep.catchTo = none ∧ x.bit Reg.timCtrl 1 = true ∧ instantOf x.nextFast ≤ x.tb.now)
    ∧ (∃ (p : Part) (s : State) (lim t : Nat), s.lit p = true ∧ (s.part p).ep.catchTo = some lim ∧ (s.part p).ep.catchClk ≤
      (s.part p).clk ∧ (s.part p).dueAt lim = some t)
    ∧ (∃ (p : Part) (s : State) (lim : Nat), s.lit p = true ∧ (s.part p).ep.catchTo = some lim ∧ (s.part p).ep.catchClk ≤
      (s.part p).clk ∧ (s.part p).dueAt lim = none)
    ∧ (∃ (p : Part) (s : State) (v nu nf : Nat), s.lit p = true ∧ (s.part p).ep.pend = some (v, nu, nf) ∧ instantOf v ≤
      (s.part p).tb.now ∧ ((s.part p).epochsFire = false ∨ v ≤ (s.part p).ep.um)) :=
  ⟨⟨.die, wU (setTb fun b => { b with next := some (9, 2) }), 9, 2, by decide +kernel⟩,
    ⟨.die, wU (setTb fun b => { b with next := some (9, 1) }), 9, 1, by decide +kernel⟩,
    ⟨.die, wU (timed (10 * markPer)), by decide +kernel⟩,
    ⟨.die, wU (timed (10 * markPer + markPer / 2)), by decide +kernel⟩,
    ⟨.die, base, 0, by decide +kernel⟩,
    ⟨.die, base, BitVec.ofNat 128 ((crc32c (leBytes 10 7)).toNat * 2 ^ 88 + 7 * 2 ^ 8 + 0x7E), by decide +kernel⟩,
    ⟨.die, wU (timed (2 ^ 50)), ((wU (timed (2 ^ 50))).part (.die : Part)).epSwitch, by decide +kernel⟩,
    ⟨.die, wU (fun u => reg Reg.timCtrl 3 0 (timed (2 ^ 50) u)), ((wU (fun u => reg Reg.timCtrl 3 0 (timed (2 ^ 50)
      u))).part (.die : Part)).epSwitch, by decide +kernel⟩,
    ⟨.die, wU (fun u => setEp (fun e => { e with catchTo := some (2 ^ 50) }) (timed (2 ^ 50) u)), 2 ^ 50, (((wU (fun u =>
      setEp (fun e => { e with catchTo := some (2 ^ 50) }) (timed (2 ^ 50) u))).part (.die : Part)).dueAt (2 ^ 50 :
      Nat)).getD 0, by decide +kernel⟩,
    ⟨.die, wU (fun u => setEp (fun e => { e with catchTo := some 5 }) (timed (2 ^ 50) u)), 5, by decide +kernel⟩,
    ⟨.die, wU (fun u => setEp (fun e => { e with pend := some (0, 100, 50) }) (timed 0 u)), 0, 100, 50, by decide +kernel⟩⟩

theorem witness_HoldoverAndPtp :
    (∃ (p : Part) (s : State) (c : Nat), s.lit p = true ∧ (s.part p).tb.tq = 0 ∧ (s.part p).tb.lastMark = some c ∧ 954 ≤
      (s.part p).clk - c)
    ∧ (∃ (p : Part) (s : State), s.lit p = true ∧ (s.part p).tb.tq = 1 ∧ 2500000 < (s.part p).clk - (s.part p).tb.holdSince)
    ∧ (∃ (s : State) (c : Nat), s.agg.powered = true ∧ s.agg.u.tb.tq = 3 ∧ s.agg.u.tb.ptp.portSince = some c ∧ 250000000 ≤
      s.agg.u.clk - c ∧ s.agg.u.tb.mism = none ∧ withinNs s.agg.u.tb.lastPe 200 = true)
    ∧ (∃ (s : State) (c : Nat) (d : Int), s.agg.powered = true ∧ s.agg.u.tb.tq = 3 ∧ s.agg.u.tb.ptp.portSince = some c ∧
      250000000 ≤ s.agg.u.clk - c ∧ (s.agg.u.tb.mism = some d ∨ (s.agg.u.tb.mism = none ∧ withinNs s.agg.u.tb.lastPe 200 =
      false ∧ d = -s.agg.u.tb.lastPe)))
    ∧ (∃ (s : State) (port : Fin 8) (dom : Byte) (_rank : Nat), s.agg.runs = true ∧ s.agg.u.inReset 5 = false ∧ s.agg.portUp
      port = true ∧ s.agg.u.bit Reg.timPtpcfg (8 + port) = true ∧ s.agg.u.fld Reg.timPtpcfg 7 0 = dom.toNat ∧
      s.agg.u.tb.ptp.master = none)
    ∧ (∃ (s : State) (port : Fin 8) (dom : Byte) (_sec : BitVec 48) (_ns : Word) (r t2 : Nat) (_two : Bool), s.agg.runs = true
      ∧ s.agg.u.inReset 5 = false ∧ t2 = ((s.agg.u.tb.now : Int) - tslat (s.agg.u.fld Reg.fltAtTslat 31 16 port)).toNat ∧
      s.agg.portUp port = true ∧ s.agg.u.bit Reg.timPtpcfg (8 + port) = true ∧ s.agg.u.fld Reg.timPtpcfg 7 0 = dom.toNat ∧
      s.agg.u.tb.ptp.master = some (port.val, r))
    ∧ (∃ (s : State) (port : Fin 8) (dom : Byte) (_sec : BitVec 48) (_ns : Word) (t3 r : Nat), s.agg.runs = true ∧
      s.agg.u.inReset 5 = false ∧ s.agg.portUp port = true ∧ s.agg.u.bit Reg.timPtpcfg (8 + port) = true ∧ s.agg.u.fld
      Reg.timPtpcfg 7 0 = dom.toNat ∧ s.agg.u.tb.ptp.master = some (port.val, r) ∧ s.agg.u.tb.ptp.t3 = some t3) :=
  ⟨⟨.die, wU (fun u => setTb (fun b => { b with lastMark := some 0 }) (aged 954 (timed 0 u))), 0, by decide +kernel⟩,
    ⟨.die, wU (fun u => setTb (fun b => { b with tq := 1 }) (aged 2500001 u)), by decide +kernel⟩,
    ⟨wU (fun u => setTb (fun b => { b with tq := 3, ptp := { b.ptp with portSince := some 0 } }) (aged 250000000 u)), 0,
      by decide +kernel⟩,
    ⟨wU (fun u => setTb (fun b =>
      { b with tq := 3, lastPe := 50, mism := some 9, ptp := { b.ptp with portSince := some 0 } }) (aged 250000000 u)), 0,
      9, by decide +kernel⟩,
    ⟨wA ptpA, 0, 0, 0, by decide +kernel⟩,
    ⟨wA (fun a => ptpB (ptpA a)), 0, 0, 0, 0, 0, (((wA (fun a => ptpB (ptpA a))).agg.u.tb.now : Int) - tslat ((wA (fun a =>
      ptpB (ptpA a))).agg.u.fld Reg.fltAtTslat 31 16 (0 : Fin 8))).toNat, false, by decide +kernel⟩,
    ⟨wA (fun a => ptpB (ptpA a)), 0, 0, 3, 5, 77, 0, by decide +kernel⟩⟩

theorem witness_TimeWritesAndTriggers :
    (∃ (p : Part) (o : Origin) (s : State) (d : Int), s.takes p o Reg.timCtrl = true ∧ (s.part p).tb.refused = some d)
    ∧ (∃ (p : Part) (o : Origin) (s : State) (_on : Bool), s.takes p o Reg.timCtrl = true)
    ∧ (∃ (p : Part) (o : Origin) (s : State) (_on : Bool), s.takes p o Reg.timCtrl = true)
    ∧ (∃ (p : Part) (o : Origin) (s : State) (nu nf : Nat), s.takes p o Reg.timEpswctl = true ∧ (s.part p).fld Reg.timEpnext
      16 0 = nu ∧ (s.part p).fld Reg.timEpfnext 16 0 = nf ∧ 1 ≤ nf ∧ 1 ≤ nu ∧ nu ≤ 100000 ∧ nf ≤ 100000 ∧ nu % nf = 0)
    ∧ (∃ (p : Part) (o : Origin) (s : State), s.takes p o Reg.timEpswctl = true ∧ (s.part p).fld Reg.timEpnext 16 0 = 0)
    ∧ (∃ (p : Part) (o : Origin) (s : State) (ch : Nat), s.takes p o Reg.timAtArm = true ∧ (s.part p).selOf Reg.timSel o = ch
      ∧ 2 ≤ ch ∧ (s.part p).chMode ch < 5 ∧ 2 ≤ (s.part p).fld Reg.timAtCfg 7 4 ch ∧ (s.part p).fld Reg.timAtCfg 7 4 ch < 5
      ∧ ((s.part p).chMode ch = 3 → (s.part p).fld Reg.timAtOfs 29 0 ch < (s.part p).fld Reg.timAtPeru 16 0 ch * 10000) ∧
      ((s.part p).chMode ch = 4 → (s.part p).tb.now + nsUp 1000 ≤ (s.part p).chAt ch))
    ∧ (∃ (p : Part) (o : Origin) (s : State) (ch : Nat), s.takes p o Reg.timAtArm = true ∧ (s.part p).selOf Reg.timSel o = ch
      ∧ 2 ≤ ch ∧ (∀ t, (s.part p).chNext ch = some t → (s.part p).tb.now < t ∨ (s.part p).ep.catchTo ≠ none))
    ∧ (∃ (p : Part) (o : Origin) (s : State) (ch t : Nat), s.takes p o Reg.timAtArm = true ∧ (s.part p).selOf Reg.timSel o =
      ch ∧ 2 ≤ ch ∧ ch < 16 ∧ (s.part p).chNext ch = some t ∧ t ≤ (s.part p).tb.now ∧ (s.part p).ep.catchTo = none ∧
      ((s.part p).chFire ch t false).2 = [])
    ∧ (∃ (p : Part) (s : State) (ch : Fin 16) (t : Nat), s.lit p = true ∧ (s.part p).chNext ch = some t ∧ t ≤ (s.part
      p).tb.now ∧ (s.part p).ep.catchTo = none ∧ (s.part p).epochDue t = false ∧ (∀ k x, k < ch.val → (s.part p).chNext k =
      some x → t < x))
    ∧ (∃ (p : Part) (s : State) (_ch : Fin 16), s.lit p = true) :=
  ⟨⟨.die, od, wU (setTb fun b => { b with refused := some 5 }), 5, by decide +kernel⟩,
    ⟨.die, od, base, true, by decide +kernel⟩,
    ⟨.die, od, base, true, by decide +kernel⟩,
    ⟨.die, od, wU (fun u => reg Reg.timEpnext 200 0 (reg Reg.timEpfnext 100 0 (timed 0 u))), 200, 100, by decide +kernel⟩,
    ⟨.die, od, wU (reg Reg.timEpnext 0), by decide +kernel⟩,
    ⟨.die, od, wU (fun u => reg Reg.timAtCfg 0x20 2 { u with sel := [(Reg.timSel, 2)] }), 2, by decide +kernel⟩,
    ⟨.die, od, wU (fun u => { u with sel := [(Reg.timSel, 2)] }), 2, ⟨by decide +kernel, by decide +kernel,
      by decide +kernel, (fun _ h => nomatch h)⟩⟩,
    ⟨.die, od, wU (fun u => reg Reg.timAtArm 1 2 (reg Reg.timAtCfg 0x34 2
      { timed (2 ^ 50) u with sel := [(Reg.timSel, 2)] })), 2, (((wU (fun u => reg Reg.timAtArm 1 2 (reg Reg.timAtCfg 0x34
      2 { timed (2 ^ 50) u with sel := [(Reg.timSel, 2)] }))).part (.die : Part)).chNext (2 : Nat)).getD 0,
      by decide +kernel⟩,
    ⟨.die, wU (fun u => reg Reg.timAtArm 1 2 (reg Reg.timAtCfg 0x24 2 (timed (2 ^ 50) u))), 2, (((wU (fun u => reg
      Reg.timAtArm 1 2 (reg Reg.timAtCfg 0x24 2 (timed (2 ^ 50) u)))).part (.die : Part)).chNext (2 : Fin 16)).getD 0,
      ⟨by decide +kernel, by decide +kernel, by decide +kernel, by decide +kernel, by decide +kernel, fun k x hk h =>
      absurd h (by simp [Unit.chNext, show k < 2 from hk])⟩⟩,
    ⟨.die, wU (fun u => { u with trg := { u.trg with pulse := [(25, 0)] } }), 3, by decide +kernel⟩⟩

theorem witness_SnapshotLatch :
    (∃ (s : State) (fast : Bool) (n t : Nat), s.die.powered = true ∧ s.die.u.capRuns = true ∧ s.die.armNext fast = (n, t) ∧
      t ≤ s.die.u.tb.now + 2 ^ 32 / 500000)
    ∧ (∃ (s : State) (fast : Bool) (n t : Nat), s.die.powered = true ∧ s.die.armNext fast = (n, t) ∧ s.die.u.tb.now + 2 ^ 32 /
      500000 < t)
    ∧ (∃ (s : State), s.die.powered = true ∧ s.die.u.capRuns = true)
    ∧ (∃ (s : State), s.die.powered = true ∧ s.die.u.capRuns = true)
    ∧ (∃ (s : State) (_ofs : Int) (f : Fired) (l : List Fired) (n : Nat), s.die.powered = true ∧ s.die.u.capRuns = true ∧
      s.die.u.ep.fired = f :: l ∧ f.main = some n ∧ (f.step = true ∨ s.die.cap.armedFor f.time = true) ∧ s.die.cap.aon ≠
      some true)
    ∧ (∃ (s : State) (_ofs : Int) (f : Fired) (l : List Fired) (n : Nat), s.die.powered = true ∧ s.die.u.capRuns = true ∧
      s.die.u.ep.fired = f :: l ∧ f.main = some n ∧ (f.step = true ∨ s.die.cap.armedFor f.time = true) ∧ s.die.cap.aon =
      some true)
    ∧ (∃ (s : State) (_ofs : Int) (f : Fired) (l : List Fired) (n : Nat), s.die.powered = true ∧ s.die.u.capRuns = true ∧
      s.die.u.ep.fired = f :: l ∧ f.main = none ∧ f.fast = some n ∧ (f.step = true ∨ s.die.cap.armedFor f.time = true) ∧
      s.die.cap.aon ≠ some true)
    ∧ (∃ (s : State) (f : Fired) (l : List Fired) (n : Nat), s.die.powered = true ∧ s.die.u.capRuns = true ∧ s.die.u.ep.fired
      = f :: l ∧ f.main = some n ∧ (f.step = true ∨ s.die.cap.armedFor f.time = true) ∧ s.die.cap.aon ≠ some true ∧
      s.die.clockStopped f = true)
    ∧ (∃ (c : Counter), c.wrap = 0 ∧ c.raw < 2 ^ 48 ∧ c.prev < 2 ^ 48) :=
  ⟨⟨wU (timed (2 ^ 50)), false, ((wU (timed (2 ^ 50))).die.armNext false).1, ((wU (timed (2 ^ 50))).die.armNext false).2,
      by decide +kernel⟩,
    ⟨wU (timed 0), false, ((wU (timed 0)).die.armNext false).1, ((wU (timed 0)).die.armNext false).2, by decide +kernel⟩,
    ⟨base, by decide +kernel⟩,
    ⟨base, by decide +kernel⟩,
    ⟨wD (armD (fired0 (some 100) none)), 0, fired0 (some 100) none, [], 100, by decide +kernel⟩,
    ⟨wD (fun d => caps (fun c => { c with aon := some true }) (armD (fired0 (some 100) none) d)), 0, fired0 (some 100)
      none, [], 100, by decide +kernel⟩,
    ⟨wD (armD (fired0 none (some 100))), 0, fired0 none (some 100), [], 100, by decide +kernel⟩,
    ⟨wD (fun d => { armD (fired0 (some 100) none) d with u := timed 1000 (armD (fired0 (some 100) none) d).u }), fired0
      (some 100) none, [], 100, by decide +kernel⟩,
    ⟨⟨5, 2 ^ 48 - 1, 7, 0⟩, by decide +kernel⟩⟩

theorem witness_TapsAndSensors :
    (∃ (s : State) (_t : Taps), s.die.powered = true ∧ s.die.u.capRuns = true ∧ s.die.cap.aon ≠ some true)
    ∧ (∃ (s : State) (_t : Taps), s.die.powered = true ∧ s.die.u.capRuns = true ∧ s.die.cap.aon = some true)
    ∧ (∃ (s : State) (t : Taps) (j : Fin 64) (x : BitVec 16), s.die.powered = true ∧ s.die.u.capRuns = true ∧ s.die.cap.aon ≠
      some true ∧ t.prod = [(j, x)] ∧ j.val < 28)
    ∧ (∃ (s : State) (ch : Fin 224) (_v : Word), s.die.powered = true ∧ s.die.u.capRuns = true ∧ (s.die.sensor ch).conv.isSome
      = true)
    ∧ (∃ (s : State) (ch : BitVec 8) (fmt : Nat) (v : Word), s.die.powered = true ∧ s.die.u.capRuns = true ∧ 224 ≤ ch.toNat ∧
      fmt ≤ 1 ∧ (fmt = 0 → fieldOf v 31 16 = 0))
    ∧ (∃ (s : State) (ch : BitVec 8) (_fmt : Nat) (_v : Word), s.die.powered = true ∧ s.die.u.capRuns = true ∧ ch.toNat < 224)
    ∧ (∃ (s : State) (o : Origin), s.die.powered = true ∧ o.suits .die = true ∧ o.refused = false ∧ s.die.lit Reg.capAtLivel =
      true)
    ∧ (∃ (s : State) (c : BitVec 11) (n : Int), s.die.powered = true ∧ s.die.u.capRuns = true ∧ Tab.find c.toNat s.die.cap.psi
      = some n ∧ n ≤ 0 ∧ s.die.u.rdN Reg.capAtPsiper c.toNat ≠ 0 ∧ s.die.cap.coreQ (s.die.u.fld Reg.capAtPsicfg 5 1
      c.toNat) = [] ∧ (∀ q ∈ s.die.cap.psiQ, ∀ r ∈ q.2, r.ctr ≠ c.toNat))
    ∧ (∃ (s : State) (core : Fin 32) (skid : BitVec 16) (_addr : BitVec 64) (r : SampReq), s.die.powered = true ∧
      s.die.u.capRuns = true ∧ s.die.cap.coreQ core = [r] ∧ skid.toNat ≤ 32)
    ∧ (∃ (s : State) (o : Origin) (v : Word) (i : Nat), s.die.takes o Reg.capAtPsicfg = true ∧ s.die.u.selOf Reg.capSel o = i
      ∧ i < 2048 ∧ bitAt v 0 = true ∧ Tab.find i s.die.cap.psi = none ∧ s.die.cap.sampling < 64)
    ∧ (∃ (s : State) (o : Origin) (v : Word) (i : Nat), s.die.takes o Reg.capAtPsicfg = true ∧ s.die.u.selOf Reg.capSel o = i
      ∧ i < 2048 ∧ bitAt v 0 = true ∧ Tab.find i s.die.cap.psi = none ∧ 64 ≤ s.die.cap.sampling) :=
  ⟨⟨base, ⟨4000, [3], [], []⟩, by decide +kernel⟩,
    ⟨wD (caps fun c => { c with aon := some true }), ⟨4000, [3], [], []⟩, by decide +kernel⟩,
    ⟨base, ⟨4000, [], [], [(2, 9)]⟩, 2, 9, by decide +kernel⟩,
    ⟨wD fun d => { d with cap := { d.cap with sens := [(1, ⟨0, 0, none, some 0⟩)] } }, 1, 5, by decide +kernel⟩,
    ⟨base, 224, 0, 0xFFFF, by decide +kernel⟩,
    ⟨base, 223, 0, 0, by decide +kernel⟩,
    ⟨base, od, by decide +kernel⟩,
    ⟨wD fun d => { d with u := reg Reg.capAtPsiper 1000 5 d.u, cap := { d.cap with psi := [(5, -3)] } }, 5, -3,
      by decide +kernel⟩,
    ⟨wD fun d => { d with cap := { d.cap with psiQ := [(4, [⟨5, 9, 0⟩])] } }, 4, 32, 0, ⟨5, 9, 0⟩, by decide +kernel⟩,
    ⟨wU fun u => { u with sel := [(Reg.capSel, 5)] }, od, 1, 5, by decide +kernel⟩,
    ⟨wD fun d =>
      { d with u := (List.range 64).foldl (fun u i => reg Reg.capAtPsicfg 1 i u) { d.u with sel := [(Reg.capSel, 64)] }, cap := { d.cap with psi := (List.range 64).map fun i => (i, 5) } },
      od, 1, 64, by decide +kernel⟩⟩

theorem witness_SnapshotImages :
    (∃ (s : State) (fast : Bool) (k : Nat) (x : Slot), s.die.powered = true ∧ s.die.u.capRuns = true ∧ (s.die.cap.pick fast
      fun y => y.state == 1) = some (k, x) ∧ (fast = true ∨ s.die.cap.fastFirst x = false))
    ∧ (∃ (s : State) (fast : Bool) (k : Nat) (x : Slot), s.die.powered = true ∧ s.die.u.capRuns = true ∧ (s.die.cap.pick fast
      fun y => y.state == 2 && !y.built) = some (k, x) ∧ s.die.u.bit Reg.rasDmastat 0 = false)
    ∧ (∃ (s : State) (slot sub : Fin 16) (x : Slot), s.die.powered = true ∧ s.die.u.capRuns = true ∧ Tab.find (16 * slot.val +
      sub.val) s.die.cap.slots = some x ∧ x.built = true ∧ x.state = 2 ∧ s.die.reading x = false ∧ s.die.u.bit Reg.snpHold
      slot = false)
    ∧ (∃ (s : State) (o : Origin) (m : BitVec 16), s.die.takes o Reg.snpHold = true ∧ popCount m.toNat 16 ≤ 4)
    ∧ (∃ (s : State) (o : Origin) (m : BitVec 16), s.die.takes o Reg.snpHold = true ∧ 4 < popCount m.toNat 16)
    ∧ (∃ (s : State) (slot : Fin 16) (c : Nat), s.die.powered = true ∧ Tab.find slot.val s.die.cap.holds = some c ∧
      s.die.u.bit Reg.snpHold slot = true ∧ msT (s.die.u.fld Reg.snpHoldto 15 0) ≤ s.die.u.clk - c) :=
  ⟨⟨wD (caps fun c => { c with slots := [(3, slotW false 1 false)] }), false, 3, slotW false 1 false, by decide +kernel⟩,
    ⟨wD (caps fun c => { c with slots := [(3, slotW true 2 false)] }), true, 3, slotW true 2 false, by decide +kernel⟩,
    ⟨wD (caps fun c => { c with slots := [(16, slotW false 2 true)] }), 1, 0, slotW false 2 true, by decide +kernel⟩,
    ⟨base, od, 0xF, by decide +kernel⟩,
    ⟨base, od, 0x1F, by decide +kernel⟩,
    ⟨wD fun d => caps (fun c => { c with holds := [(2, 0)] })
      { d with u := reg Reg.snpHoldto 1 0 (reg Reg.snpHold 4 0 (aged 250000 d.u)) }, 2, 0, by decide +kernel⟩⟩

theorem witness_RunnerLaunchAndResults :
    (∃ (s : State) (plan : Fin 64) (port : Fin 8) (p : Plan) (e : AggEpoch) (ta : Nat) (split : Bool), s.agg.runs = true ∧
      (s.agg.route port).1 ≠ .empty ∧ s.agg.launchDue plan port = some (e, p) ∧ p.id = plan ∧ (∀ q x, q < plan.val →
      s.agg.launchDue q port = some x → x.1.num ≠ e.num ∨ x.1.fast ≠ e.fast) ∧ s.agg.owns p = false ∧ s.agg.launches p port
      = some (ta, split) ∧ Tab.find (p.id * 8 + port.val) s.agg.rdx.flight = none)
    ∧ (∃ (s : State) (plan : Fin 64) (port : Fin 8) (p : Plan) (e : AggEpoch), s.agg.runs = true ∧ (s.agg.route port).1 ≠
      .empty ∧ s.agg.launchDue plan port = some (e, p) ∧ p.id = plan ∧ (∀ q x, q < plan.val → s.agg.launchDue q port = some
      x → x.1.num ≠ e.num ∨ x.1.fast ≠ e.fast) ∧ s.agg.owns p = true ∧ s.agg.launches p port = none ∧ s.agg.awaits plan
      (s.agg.u.pkgAddr port) = false ∧ s.agg.rdx.ents.length < 16384 ∧ s.agg.ent? ⟨plan, 0, s.agg.u.pkgAddr port,
      BitVec.ofNat 64 e.num⟩ = none ∧ s.agg.markOf ⟨plan, 0, s.agg.u.pkgAddr port, BitVec.ofNat 64 e.num⟩ = none)
    ∧ (∃ (p : Part) (s : State) (port : Fin 8) (_n : BitVec 64), s.on p = true ∧ ((s.part p).rport port).state = 2)
    ∧ (∃ (p : Part) (s : State) (port : Fin 8), s.on p = true ∧ ((s.part p).rport port).window.isSome = true)
    ∧ (∃ (s : State) (i : FleetIn) (_orig : Node) (r : RdxResult) (p : Plan) (e : RdxEnt) (up : RdxKey), s.hears i = true ∧
      r.key.scope ≠ 0 ∧ r.key.scope.val < 3 ∧ up =
      { r.key with scope := r.key.scope + 1, addr := scopeAddr r.key.addr (r.key.scope.val + 1) } ∧ s.agg.ent? up = some e
      ∧ planIn e.plans r.key.plan = some p ∧ r.key.scope.val < p.scope ∧ p.pver = r.pver.toNat ∧ s.agg.rootHere r.key.scope
      = true ∧ s.agg.owns p = true ∧ e.done = none ∧ e.got.contains (contribId r.key.addr r.key.scope) = false ∧
      e.lostBy.contains (contribId r.key.addr r.key.scope) = false ∧ (r.status.val < 2 → RdxEnt.full
      { e with got := e.got ++ [contribId r.key.addr r.key.scope] } = false))
    ∧ (∃ (s : State) (i : FleetIn) (_plan : Fin 64) (_port : Fin 8) (_epn : BitVec 64) (_sref : Node), s.hears i = true)
    ∧ (∃ (s : State) (_b : Fin 16) (_n : Node), s.die.powered = true)
    ∧ (∃ (s : State) (_b : Fin 16) (_n : Node), s.die.powered = true) :=
  ⟨⟨wA fun a => { lit0 (chainOn .split (runs0 0 1 a)) with rdx := { a.rdx with recent := [⟨false, 7, 9, planSec 0 1⟩] } },
      3, 0, planW 0 1, ⟨false, 7, 9, planSec 0 1⟩, 31, true, ⟨by decide +kernel, by decide +kernel, by decide +kernel,
      by decide +kernel, below3 (by decide +kernel) (by decide +kernel) (by decide +kernel), by decide +kernel,
      by decide +kernel, by decide +kernel⟩⟩,
    ⟨wA fun a =>
      { lit0 (chainOn .complete (runs0 0 0 a)) with rdx := { a.rdx with recent := [⟨false, 7, 9, planSec 0 0⟩] } }, 3, 0,
      planW 0 0, ⟨false, 7, 9, planSec 0 0⟩, ⟨by decide +kernel, by decide +kernel, by decide +kernel, by decide +kernel,
      below3 (by decide +kernel) (by decide +kernel) (by decide +kernel), by decide +kernel, by decide +kernel,
      by decide +kernel, by decide +kernel, by decide +kernel, by decide +kernel⟩⟩,
    ⟨.die, wU (raceUpU 3), 3, 9, by decide +kernel⟩,
    ⟨.die, wU fun u => u.setRport 3 { u.rport 3 with window := some 5 }, 3, by decide +kernel⟩,
    ⟨wA fun a =>
      { runs0 3 0 a with rdx := { a.rdx with ents := [({ entW (⟨3, 2, 0, 7⟩ : RdxKey) 64 [0, 1] with plans := planSec 3 0 } : RdxEnt)] }, vote := { a.vote with group := { a.vote.group with held := true } } },
      fin0, 0, ⟨⟨3, 1, 0, 7⟩, 1, 0, 32, 32, 0, 0, []⟩, planW 3 0,
      { entW (⟨3, 2, 0, 7⟩ : RdxKey) 64 [0, 1] with plans := planSec 3 0 }, ⟨3, 2, 0, 7⟩, ⟨by decide +kernel,
      by decide +kernel, by decide +kernel, rfl, by decide +kernel, by decide +kernel, by decide +kernel,
      by decide +kernel, by decide +kernel, by decide +kernel, by decide +kernel, by decide +kernel, by decide +kernel,
      by decide +kernel⟩⟩,
    ⟨wA (portUpA 1), fin0, 0, 0, 0, 0, by decide +kernel⟩,
    ⟨base, 0, 0, by decide +kernel⟩,
    ⟨base, 0, 0, by decide +kernel⟩⟩

theorem witness_RunnersFoldAndArrive :
    (∃ (s : State) (f : Side) (r : Runner), s.die.powered = true ∧ s.die.u.raceUp f.ix = true ∧ s.die.u.lnkRuns = true ∧
      r.rtype = 2 ∧ r.crcOk = true)
    ∧ (∃ (s : State) (f : Side) (r : Runner) (p : Plan) (l : Latched), s.die.powered = true ∧ s.die.u.raceUp f.ix = true ∧
      s.die.u.lnkRuns = true ∧ s.die.u.power < 2 ∧ s.die.u.nodeOk = true ∧ r.rtype = 1 ∧ r.crcOk = true ∧ s.die.latchOf
      r.fast r.epn.toNat = some l ∧ planOf l.plans r = some p)
    ∧ (∃ (s : State) (_port : Fin 8) (r : Runner), s.agg.runs = true ∧ r.crcOk = false)
    ∧ (∃ (s : State) (port : Fin 8) (r : Runner) (p : Plan) (x : Agg) (h : r.plan.toNat < 64), s.agg.runs = true ∧
      s.agg.runnerIn port r = x ∧ r.crcOk = true ∧ (r.rtype = 1 ∨ r.rtype = 2) ∧ x.planFor ⟨⟨r.plan.toNat, h⟩, 0,
      x.u.pkgAddr port, r.epn⟩ = some p ∧ r.orig ≠ x.u.node ∧ x.owns p = false)
    ∧ (∃ (s : State) (port : Fin 8) (r : Runner) (p : Plan) (x : Agg) (e : RdxEnt) (h : r.plan.toNat < 64), s.agg.runs = true
      ∧ s.agg.runnerIn port r = x ∧ r.crcOk = true ∧ (r.rtype = 1 ∨ r.rtype = 2) ∧ r.orig ≠ x.u.node ∧ x.ent?
      ⟨⟨r.plan.toNat, h⟩, 0, x.u.pkgAddr port, r.epn⟩ = some e ∧ planIn e.plans r.plan.toNat = some p ∧ p.id = r.plan.toNat
      ∧ x.owns p = true ∧ e.done = none ∧ e.got.contains r.orig.toNat = false ∧ RdxEnt.full
      { e with contrib := e.contrib ||| r.contrib.toNat, got := e.got ++ [r.orig.toNat] } = false)
    ∧ (∃ (s : State) (k : RdxKey) (e : RdxEnt) (p : Plan), s.agg.runs = true ∧ s.agg.ent? k = some e ∧ planIn e.plans k.plan =
      some p ∧ e.done = none ∧ e.deadline ≤ s.agg.u.tb.now ∧ k.scope = 0 ∧ p.scope = 0)
    ∧ (∃ (s : State) (k : RdxKey) (e : RdxEnt), s.agg.runs = true ∧ s.agg.ent? k = some e ∧ e.done.isSome = true) :=
  ⟨⟨wU (raceUpU 0), .a, run0 2 true, by decide +kernel⟩,
    ⟨wD fun d => caps (fun c => { c with latMain := some (latW 7) })
      { d with u := raceUpU 0 (raceUpU 1 (named 0x14 (setSec 9 (planSec 0 0) d.u))) }, .a, run0 1 true, planW 0 0, latW 7,
      by decide +kernel⟩,
    ⟨base, 0, run0 1 false, by decide +kernel⟩,
    ⟨wA (runs0 0 1), 0, run0 1 true, planW 0 1, (wA (runs0 0 1)).agg.runnerIn (0 : Fin 8) (run0 1 true), (by decide),
      by decide +kernel⟩,
    ⟨wA fun a => { runs0 0 0 a with rdx := { a.rdx with ents := [(entW ⟨3, 0, 0, 7⟩ 32 [])] } }, 0, run0 2 true, planW 0 0,
      (wA fun a => { runs0 0 0 a with rdx := { a.rdx with ents := [(entW ⟨3, 0, 0, 7⟩ 32 [])] } }).agg.runnerIn (0 : Fin 8)
      (run0 2 true), entW ⟨3, 0, 0, 7⟩ 32 [], (by decide), by decide +kernel⟩,
    ⟨wA fun a => { runs0 0 0 a with rdx := { a.rdx with ents := [(entW (⟨3, 0, 0, 7⟩ : RdxKey) 32 [])] } }, ⟨3, 0, 0, 7⟩,
      entW (⟨3, 0, 0, 7⟩ : RdxKey) 32 [], planW 0 0, by decide +kernel⟩,
    ⟨wA fun a =>
      { a with rdx := { a.rdx with ents := [({ entW (⟨3, 0, 0, 7⟩ : RdxKey) 32 [] with done := some 0 } : RdxEnt)] } }, ⟨3,
      0, 0, 7⟩, { entW (⟨3, 0, 0, 7⟩ : RdxKey) 32 [] with done := some 0 }, by decide +kernel⟩⟩

theorem witness_TreeCommands :
    (∃ (p : Part) (s : State) (v : Vec), s.on p = true ∧ (s.part p).scoRuns = true ∧ (s.part p).nextUnready = some v)
    ∧ (∃ (p : Part) (s : State) (j : Job) (q : List Job) (v : Vec), s.on p = true ∧ (s.part p).scoRuns = true ∧ (s.part
      p).sco.treeQ = j :: q ∧ (s.part p).vec? j.vec = some v ∧ v.ready = true)
    ∧ (∃ (p : Part) (o : Origin) (s : State), s.takes p o Reg.treSwapctl = true ∧ (s.part p).ep.fired = [] ∧ (s.part
      p).sco.shadowValid = true ∧ (s.part p).sco.damaged.contains (1 - (s.part p).sco.active) = false)
    ∧ (∃ (p : Part) (o : Origin) (s : State), s.takes p o Reg.treSwapctl = true ∧ (s.part p).ep.fired = [] ∧ (s.part
      p).sco.shadowValid = false)
    ∧ (∃ (p : Part) (o : Origin) (s : State), s.takes p o Reg.treSwapctl = true ∧ (s.part p).ep.fired = [])
    ∧ (∃ (p : Part) (o : Origin) (s : State) (k : Nat), s.takes p o Reg.treAtWeirctl = true ∧ (s.part p).selOf Reg.treSel o =
      k)
    ∧ (∃ (p : Part) (s : State), s.on p = true ∧ (s.part p).scoRuns = true ∧ Tab.find (s.part p).sco.scrub (s.part
      p).sco.storeErr = none)
    ∧ (∃ (p : Part) (s : State) (x : StoreErr), s.on p = true ∧ (s.part p).scoRuns = true ∧ Tab.find (s.part p).sco.scrub
      (s.part p).sco.storeErr = some x)
    ∧ (∃ (s : State) (j : Job) (l : List Job), s.die.powered = true ∧ s.die.u.scoRuns = true ∧ s.die.u.sco.runTree = j :: l)
    ∧ (∃ (s : State) (j : Job) (l : List Job) (v : Vec) (e : Ens), s.agg.runs = true ∧ s.agg.u.scoRuns = true ∧
      s.agg.u.sco.runTree = j :: l ∧ s.agg.u.vec? j.vec = some v ∧ (s.agg.u.bank v.bank).ens? j.slot = some e ∧ v.bank =
      s.agg.u.sco.active)
    ∧ (∃ (p : Part) (s : State) (j : Job) (l : List Job) (v : Vec) (e : Ens) (r : SumSt), (s.part p).sco.runTree = j :: l ∧
      (s.part p).vec? j.vec = some v ∧ ((s.part p).bank v.bank).ens? j.slot = some e ∧ (s.part p).sco.lostModel.contains
      v.bank = false ∧ r = sumTrees e v.bank (Tab.getD ((s.part p).bank v.bank).base j.slot 0) v.feats
      ⟨{ s.part p with sco := { (s.part p).sco with runTree := l } }, e.bias, false, false, false⟩ 0 e.trees ∧ r.serr =
      false) :=
  ⟨⟨.die, wU (setSco fun x => { x with vecs := [vec0 false] }), vec0 false, by decide +kernel⟩,
    ⟨.die, wU (setSco fun x => { x with vecs := [vec0 true], treeQ := [job0] }), job0, [], vec0 true, by decide +kernel⟩,
    ⟨.die, od, wU (setSco fun x => { x with shadowValid := true }), by decide +kernel⟩,
    ⟨.die, od, base, by decide +kernel⟩,
    ⟨.die, od, base, by decide +kernel⟩,
    ⟨.die, od, wU fun u => { u with sel := [(Reg.treSel, 2)] }, 2, by decide +kernel⟩,
    ⟨.die, base, by decide +kernel⟩,
    ⟨.die, wU (setSco fun y => { y with storeErr := [(0, ⟨0, 1, true, 0⟩)] }), ⟨0, 1, true, 0⟩, by decide +kernel⟩,
    ⟨wU treeJob, job0, [], by decide +kernel⟩,
    ⟨wU treeJob, job0, [], vec0 true, ens0, by decide +kernel⟩,
    ⟨.die, wU treeJob, job0, [], vec0 true, ens0, sumTrees ens0 (vec0 true).bank (Tab.getD (((wU treeJob).part (.die :
      Part)).bank (vec0 true).bank).base job0.slot 0) (vec0 true).feats
      ⟨{ (wU treeJob).part (.die : Part) with sco := { ((wU treeJob).part (.die : Part)).sco with runTree := ([]) } },
      ens0.bias, false, false, false⟩ 0 ens0.trees, ⟨by decide +kernel, by decide +kernel, by decide +kernel,
      by decide +kernel, rfl, by decide +kernel⟩⟩⟩

theorem witness_DenseCommands :
    (∃ (p : Part) (s : State) (j : Job) (q : List Job) (v : Vec), s.on p = true ∧ (s.part p).scoRuns = true ∧ (s.part
      p).sco.runDense = none ∧ (s.part p).sco.denseQ = j :: q ∧ (s.part p).vec? j.vec = some v ∧ v.ready = true)
    ∧ (∃ (s : State) (j : Job), s.die.powered = true ∧ s.die.u.scoRuns = true ∧ s.die.u.sco.runDense = some j)
    ∧ (∃ (s : State) (j : Job), s.agg.runs = true ∧ s.agg.u.scoRuns = true ∧ s.agg.u.sco.runDense = some j)
    ∧ (∃ (p : Part) (s : State) (j : Job) (v : Vec) (m : Model) (w : DenseWait), (s.part p).sco.runDense = some j ∧ (s.part
      p).denseJob? j = some (v, m) ∧ (s.part p).sco.lostModel.contains v.bank = false ∧ w = denseResult ((s.part p).bank
      v.bank).feats m j v.feats false)
    ∧ (∃ (s : State) (w : DenseWait) (v : Vec) (m : Model), s.die.powered = true ∧ s.die.u.scoRuns = true ∧ s.die.u.sco.waits
      = [w] ∧ s.die.u.denseJob? w.job = some (v, m) ∧ s.die.u.joinable w m = true)
    ∧ (∃ (s : State) (w : DenseWait) (v : Vec) (m : Model), s.agg.runs = true ∧ s.agg.u.scoRuns = true ∧ s.agg.u.sco.waits =
      [w] ∧ s.agg.u.denseJob? w.job = some (v, m) ∧ s.agg.u.joinable w m = true)
    ∧ (∃ (p : Part) (o : Origin) (s : State) (k : Nat), s.takes p o Reg.dnsAtWeirctl = true ∧ (s.part p).selOf Reg.dnsSel o =
      k) :=
  ⟨⟨.die, wU (setSco fun x => { x with vecs := [vec0 true], denseQ := [job0] }), job0, [], vec0 true, by decide +kernel⟩,
    ⟨wU denseJobW, job0, by decide +kernel⟩,
    ⟨wU denseJobW, job0, by decide +kernel⟩,
    ⟨.die, wU denseJobW, job0, vec0 true, model0, denseResult (((wU denseJobW).part (.die : Part)).bank (vec0
      true).bank).feats model0 job0 (vec0 true).feats false, ⟨by decide +kernel, by decide +kernel, by decide +kernel,
      rfl⟩⟩,
    ⟨wU fun u => setSco (fun x => { x with runDense := none, waits := [wait0] }) (denseJobW u), wait0, vec0 true, model0,
      by decide +kernel⟩,
    ⟨wU fun u => setSco (fun x => { x with runDense := none, waits := [wait0] }) (denseJobW u), wait0, vec0 true, model0,
      by decide +kernel⟩,
    ⟨.die, od, wU fun u => { u with sel := [(Reg.dnsSel, 3)] }, 3, by decide +kernel⟩⟩

theorem witness_DriftUnit :
    (∃ (p : Part) (s : State) (i : BitVec 10) (b : Batch) (l : List Batch) (raw : Raw) (q : List (Nat × Raw)) (d : MetD) (m
      : Int) (sat : Bool) (bnd : Option Nat) (bd : Nat), s.on p = true ∧ (s.part p).scoRuns = true ∧ (s.part p).bit
      Reg.drfCtrl 0 = true ∧ (s.part p).drf.batches = b :: l ∧ b.due = (i.toNat, raw) :: q ∧ (driftMets b.sec)[i.toNat]? =
      some d ∧ (driftMets ((s.part p).sec 8))[i.toNat]? = some d ∧ metricValue d raw = some (m, sat) ∧ bnd =
      (match p, b.entry with | .agg, some k => s.agg.bandOf b.sec k | _, _ => b.band) ∧ (if d.bandfree then some 0 else
      bnd) = some bd)
    ∧ (∃ (p : Part) (s : State) (i : BitVec 10) (b : Batch) (l : List Batch) (raw : Raw) (q : List (Nat × Raw)) (d : MetD),
      s.on p = true ∧ (s.part p).scoRuns = true ∧ (s.part p).bit Reg.drfCtrl 0 = true ∧ (s.part p).drf.batches = b :: l ∧
      b.due = (i.toNat, raw) :: q ∧ (driftMets b.sec)[i.toNat]? = some d ∧ d.bandfree = false ∧ b.band = none ∧ b.entry =
      none)
    ∧ (∃ (p : Part) (s : State) (_i : BitVec 10), s.on p = true ∧ (s.part p).scoRuns = true ∧ (s.part p).bit Reg.drfCtrl 0 =
      false)
    ∧ (∃ (p : Part) (o : Origin) (s : State) (k : Nat), s.takes p o Reg.drfAtRebase = true ∧ (s.part p).selOf Reg.drfSel o = k) :=
  ⟨⟨.die, wU fun u => reg Reg.drfCtrl 1 0 (driftOn 0 (some 2) u), 0, batch0 0 (some 2), [], .num 5, [], parseMet ([0, 0,
      0, 0] ++ zeros 28), 5 * 65536, false,
      (match (.die : Part), (batch0 0 (some 2)).entry with | .agg, some k => (wU fun u => reg Reg.drfCtrl 1 0 (driftOn 0 (some 2) u)).agg.bandOf (batch0 0 (some 2)).sec k | _, _ => (batch0 0 (some 2)).band),
      2, ⟨by decide +kernel, by decide +kernel, by decide +kernel, by decide +kernel, by decide +kernel, by decide +kernel,
      by decide +kernel, by decide +kernel, rfl, by decide +kernel⟩⟩,
    ⟨.die, wU fun u => reg Reg.drfCtrl 1 0 (driftOn 0 none u), 0, batch0 0 none, [], .num 5, [], parseMet ([0, 0, 0, 0] ++
      zeros 28), by decide +kernel⟩,
    ⟨.die, wU fun u => reg Reg.drfCtrl 0 0 (driftOn 0 (some 2) u), 0, by decide +kernel⟩,
    ⟨.die, od, wU fun u => { u with sel := [(Reg.drfSel, 3)] }, 3, by decide +kernel⟩⟩

theorem witness_WitnessSamplingAndConditions :
    (∃ (s : State) (_tile : BitVec 64) (_eng : BitVec 8), s.die.powered = true ∧ s.die.u.capRuns = true ∧ s.die.wit.seed =
      none)
    ∧ (∃ (s : State) (tile : BitVec 64) (eng : BitVec 8) (seed : Nat), s.die.powered = true ∧ s.die.u.capRuns = true ∧
      s.die.wit.seed = some seed ∧ s.die.u.bit Reg.witCtrl 0 = true ∧ drawn (tileDraw seed tile.toNat) (s.die.witRate
      (s.die.witKey eng.toNat)) = false)
    ∧ (∃ (s : State) (tile : BitVec 64) (eng : BitVec 8) (seed tag : Nat), s.die.powered = true ∧ s.die.u.capRuns = true ∧
      s.die.wit.seed = some seed ∧ s.die.u.bit Reg.witCtrl 0 = true ∧ drawn (tileDraw seed tile.toNat) (s.die.witRate
      (s.die.witKey eng.toNat)) = true ∧ Tab.freeFrom s.die.wit.pend 0 4096 = some tag)
    ∧ (∃ (s : State) (o : Origin) (_high : Word), s.takes .die o Reg.witSeedh = true)
    ∧ (∃ (u r : Nat), u < 2 ^ 16 ∧ r ≤ 16)
    ∧ (∃ (s : State) (k : Nat) (c : WitCond), s.die.powered = true ∧ s.die.u.capRuns = true ∧ s.die.wit.swept < s.die.u.tb.now
      / 2 ^ 32 ∧ s.die.wit.cond = [(k, c)] ∧ c.state = 1 ∧ s.die.u.fld Reg.witWin 15 0 * 1000 < (s.die.u.witMs + 2 ^ 32 -
      c.times.getLastD s.die.u.witMs) % 2 ^ 32)
    ∧ (∃ (s : State), s.die.powered = true ∧ s.die.u.capRuns = true ∧ s.die.wit.swept < s.die.u.tb.now / 2 ^ 32 ∧ (∀ x ∈
      s.die.wit.cond, x.2.state ≠ 1))
    ∧ (∃ (s : State) (o : Origin) (k : Nat) (c : WitCond), s.takes .die o Reg.witAtClear = true ∧ s.die.u.selOf Reg.witSel o =
      k ∧ Tab.find k s.die.wit.cond = some c)
    ∧ (∃ (s : State), s.die.powered = true ∧ s.die.u.capRuns = true ∧ s.die.paired = true ∧ s.die.wit.req = none ∧
      s.die.wit.want s.die.morder ≠ (s.die.wit.sentV, s.die.wit.sentF))
    ∧ (∃ (s : State) (r : MarginReq), s.die.powered = true ∧ s.die.u.capRuns = true ∧ s.die.wit.req = some r)
    ∧ (∃ (s : State) (r : MarginReq), s.die.powered = true ∧ s.die.u.capRuns = true ∧ s.die.wit.req = some r ∧ usT
      (s.die.u.fld Reg.witMackto 15 0) ≤ s.die.u.since r.since) :=
  ⟨⟨base, 0, 0, by decide +kernel⟩,
    ⟨wD fun d => wits (fun w => { w with seed := some 0x123456789ABCDEF }) { d with u := reg Reg.witCtrl 1 0 d.u }, 3, 1,
      0x123456789ABCDEF, by decide +kernel⟩,
    ⟨wD fun d => wits (fun w => { w with seed := some 5 }) { d with u := reg Reg.witCtrl 1 0 d.u }, 3, 1, 5, 0,
      by decide +kernel⟩,
    ⟨base, od, 0x80000000, by decide +kernel⟩,
    ⟨2 ^ 12, 4, by decide +kernel⟩,
    ⟨wD fun d => wits (fun w => { w with cond := [(2, cond0 1)] })
      { d with u := reg Reg.witWin 1 0 (timed (5 * 2 ^ 32) d.u) }, 2, cond0 1, by decide +kernel⟩,
    ⟨wD fun d => wits (fun w => { w with cond := [(2, cond0 3)] })
      { d with u := reg Reg.witWin 1 0 (timed (5 * 2 ^ 32) d.u) }, by decide +kernel⟩,
    ⟨wD fun d => wits (fun w => { w with cond := [(2, cond0 1)] }) { d with u := { d.u with sel := [(Reg.witSel, 2)] } },
      od, 2, cond0 1, by decide +kernel⟩,
    ⟨wD fun d => wits (fun w => { w with cond := [(2, { cond0 3 with vstep := 2 })] }) { d with paired := true },
      by decide +kernel⟩,
    ⟨wD (wits fun w => { w with req := some (⟨1, 1, 0⟩ : MarginReq) }), ⟨1, 1, 0⟩, by decide +kernel⟩,
    ⟨wD fun d => wits (fun w => { w with req := some (⟨1, 1, 0⟩ : MarginReq) }) { d with u := aged 2500000 d.u }, ⟨1, 1,
      0⟩, by decide +kernel⟩⟩

theorem witness_WitnessExchange :
    (∃ (s : State) (tag : BitVec 12) (_tile : BitVec 64) (_eng : BitVec 8) (_sig : BitVec 64), s.die.powered = true ∧
      s.die.u.capRuns = true ∧ Tab.find tag.toNat s.die.wit.pend = none)
    ∧ (∃ (s : State) (tag : BitVec 12) (tile : BitVec 64) (eng : BitVec 8) (_sig : BitVec 64) (p : WitPend), s.die.powered =
      true ∧ s.die.u.capRuns = true ∧ Tab.find tag.toNat s.die.wit.pend = some p ∧ p.tile = tile.toNat ∧ s.die.pendDue p =
      false ∧ p.eng = eng.toNat ∧ p.first = none ∧ p.second = none)
    ∧ (∃ (s : State) (tag : BitVec 12) (tile : BitVec 64) (eng : BitVec 8) (sig : BitVec 64) (p : WitPend) (a : WitSig),
      s.die.powered = true ∧ s.die.u.capRuns = true ∧ Tab.find tag.toNat s.die.wit.pend = some p ∧ p.tile = tile.toNat ∧
      s.die.pendDue p = false ∧ p.eng ≠ eng.toNat ∧ p.first = some a ∧ p.second = none ∧ a.sig = sig.toNat)
    ∧ (∃ (s : State) (tag : BitVec 12) (tile : BitVec 64) (eng : BitVec 8) (sig : BitVec 64) (p : WitPend) (a : WitSig),
      s.die.powered = true ∧ s.die.u.capRuns = true ∧ Tab.find tag.toNat s.die.wit.pend = some p ∧ p.tile = tile.toNat ∧
      s.die.pendDue p = false ∧ p.eng ≠ eng.toNat ∧ p.first = some a ∧ p.second = none ∧ a.sig ≠ sig.toNat)
    ∧ (∃ (s : State) (tag : BitVec 12) (tile : BitVec 64) (eng : BitVec 8) (_sig : BitVec 64) (p : WitPend) (a b : WitSig) (x
      : Nat), s.die.powered = true ∧ s.die.u.capRuns = true ∧ Tab.find tag.toNat s.die.wit.pend = some p ∧ p.tile =
      tile.toNat ∧ s.die.pendDue p = false ∧ p.first = some a ∧ p.second = some b ∧ p.xreq = some x ∧ eng.toNat ≠ a.eng ∧
      eng.toNat ≠ b.eng)
    ∧ (∃ (s : State) (tag : BitVec 12) (p : WitPend), s.die.powered = true ∧ s.die.u.capRuns = true ∧ Tab.find tag.toNat
      s.die.wit.pend = some p ∧ p.xreq = none ∧ usT (s.die.u.fld Reg.witPendto 15 0) ≤ s.die.u.since p.since)
    ∧ (∃ (s : State) (tag : BitVec 12) (p : WitPend) (x : Nat), s.die.powered = true ∧ s.die.u.capRuns = true ∧ Tab.find
      tag.toNat s.die.wit.pend = some p ∧ p.xreq = some x ∧ usT (s.die.u.fld Reg.witThirdto 15 0) ≤ s.die.u.since x) :=
  ⟨⟨base, 0, 0, 0, 0, by decide +kernel⟩,
    ⟨wD (wits fun w => { w with pend := [(4, pend0)] }), 4, 7, 1, 9, pend0, by decide +kernel⟩,
    ⟨wD (wits fun w => { w with pend := [(4, ({ pend0 with first := some (sig0 1 9) } : WitPend))] }), 4, 7, 2, 9,
      { pend0 with first := some (sig0 1 9) }, sig0 1 9, by decide +kernel⟩,
    ⟨wD (wits fun w => { w with pend := [(4, ({ pend0 with first := some (sig0 1 9) } : WitPend))] }), 4, 7, 2, 10,
      { pend0 with first := some (sig0 1 9) }, sig0 1 9, by decide +kernel⟩,
    ⟨wD (wits fun w =>
      { w with pend := [(4, ({ pend0 with first := some (sig0 1 9), second := some (sig0 2 10), xreq := some 0 } : WitPend))] }),
      4, 7, 3, 10, { pend0 with first := some (sig0 1 9), second := some (sig0 2 10), xreq := some 0 }, sig0 1 9, sig0 2
      10, 0, by decide +kernel⟩,
    ⟨wD fun d => wits (fun w => { w with pend := [(4, pend0)] }) { d with u := aged (2 ^ 32) d.u }, 4, pend0,
      by decide +kernel⟩,
    ⟨wD fun d => wits (fun w => { w with pend := [(4, ({ pend0 with xreq := some 0 } : WitPend))] })
      { d with u := aged (2 ^ 32) d.u }, 4, { pend0 with xreq := some 0 }, 0, by decide +kernel⟩⟩

theorem witness_DieHealthAndFences :
    (∃ (s : State), s.die.powered = true ∧ s.die.u.bit Reg.hltCtrl 0 = true ∧ s.die.u.power < 2 ∧ (s.die.lscore,
      s.die.hlt.lv, s.die.hlt.hard) ≠ s.die.hlt.told ∧ s.die.hlt.toldEpoch ≠ some s.die.u.ep.lastMain)
    ∧ (∃ (s : State) (raw : Nat), s.die.powered = true ∧ s.agg.runs = true ∧ raw = verdictOf (s.die.u.rd Reg.hltThr)
      s.die.hlt.hard (s.die.wit.state == 4) s.die.lscore)
    ∧ (∃ (s : State) (c : Nat), s.die.powered = true ∧ s.die.hlt.nvAt = some c ∧ msT (1000 * s.die.u.fld Reg.hltNvwin 15 0) ≤
      s.die.u.since c)
    ∧ (∃ (s : State), s.die.powered = true ∧ s.die.hlt.lv ≤ 3)
    ∧ (∃ (s : State) (k : Fin 16), s.die.powered = true ∧ s.die.hlt.up.testBit k.val = true)
    ∧ (∃ (s : State) (k : Fin 16), s.die.powered = true ∧ s.die.hlt.up.testBit k.val = false)
    ∧ (∃ (s : State) (k : Fin 16) (c : Nat), s.die.powered = true ∧ s.die.hlt.lv ≤ 3 ∧ Tab.find k.val s.die.hlt.down = some c
      ∧ usT (s.die.u.fld Reg.hltLdto 15 0) ≤ s.die.u.since c ∧ s.die.hlt.dead.testBit k.val = false)
    ∧ (∃ (s : State) (k : Fin 16) (c : Nat), s.die.powered = true ∧ Tab.find k.val s.die.hlt.down = some c)
    ∧ (∃ (_thr : Word) (hard _score : Nat), hard ≠ 0)
    ∧ (∃ (s : State) (f : Fence), s.die.powered = true ∧ s.die.u.miswired = false ∧ f.gen = 0 ∧ s.die.u.nodeOk = true ∧
      f.eff.names s.die.u.node = true ∧ f.fkind = 4)
    ∧ (∃ (s : State) (f : Fence), s.die.powered = true ∧ s.die.u.miswired = false ∧ f.gen = 0 ∧ s.die.u.nodeOk = true ∧
      f.eff.names s.die.u.node = true ∧ f.fkind.toNat ≤ 3 ∧ s.die.paired = true ∧ s.die.hlt.inforce ≤ f.fkind.toNat)
    ∧ (∃ (s : State) (f : Fence), s.die.powered = true ∧ s.die.u.miswired = false ∧ f.gen = 0 ∧ f.eff.names s.die.u.node =
      false)
    ∧ (∃ (s : State) (_f : Fence), s.die.powered = true ∧ s.die.u.miswired = true)
    ∧ (∃ (s : State) (f : Fence) (i : Nat), s.die.powered = true ∧ s.die.u.miswired = false ∧ f.gen ≠ 0 ∧ s.die.knows f.eff =
      true ∧ s.die.arrived f.inst f.fseq.toNat = false ∧ Tab.freeFrom s.die.hlt.slots 0 16 = some i)
    ∧ (∃ (s : State) (o : Origin) (k : Nat) (x : FSlot), s.takes .die o Reg.hltAtDone = true ∧ s.die.u.selOf Reg.hltSel o = k
      ∧ Tab.find k s.die.hlt.slots = some x ∧ x.visible = true ∧ x.at_ ≠ s.die.u.clk ∧ s.die.hlt.queue = [])
    ∧ (∃ (s : State) (o : Origin) (k : Nat) (x : FSlot), s.takes .die o Reg.hltAtDone = true ∧ s.die.u.selOf Reg.hltSel o = k
      ∧ Tab.find k s.die.hlt.slots = some x ∧ x.at_ = s.die.u.clk)
    ∧ (∃ (s : State) (k : Fin 256) (w : BitVec 12) (g n : Word) (f : Fence), s.agg.runs = true ∧ (∀ x ∈ s.agg.vote.fences,
      x.inst = (w.toNat, g.toNat) → x.fseq = n → x = f) ∧ f ∈ s.agg.vote.fences ∧ f.inst = (w.toNat, g.toNat) ∧ f.fseq = n
      ∧ s.agg.u.raceUp (k.val / 32) = true) :=
  ⟨⟨wD fun d => hlts (fun h => { h with hard := 8 }) { d with u := reg Reg.hltCtrl 1 0 d.u }, by decide +kernel⟩,
    ⟨base, verdictOf (base.die.u.rd Reg.hltThr) base.die.hlt.hard (base.die.wit.state == 4) base.die.lscore,
      by decide +kernel⟩,
    ⟨wD fun d => hlts (fun h => { h with nvAt := some 0 }) { d with u := aged (2 ^ 50) d.u }, 0, by decide +kernel⟩,
    ⟨base, by decide +kernel⟩,
    ⟨wD (hlts fun h => { h with up := 1 }), 0, by decide +kernel⟩,
    ⟨base, 0, by decide +kernel⟩,
    ⟨wD fun d => hlts (fun h => { h with down := [(3, 0)] }) { d with u := aged big d.u }, 3, 0, by decide +kernel⟩,
    ⟨wD (hlts fun h => { h with down := [(3, 0)] }), 3, 0, by decide +kernel⟩,
    ⟨0, 1, 0, by decide +kernel⟩,
    ⟨wD fun d => { d with u := named 8 d.u }, fence0 4 0 1 8, by decide +kernel⟩,
    ⟨wD fun d => hlts (fun h => { h with inforce := 3 }) { d with u := named 8 d.u, paired := true }, fence0 3 0 1 8,
      by decide +kernel⟩,
    ⟨wD fun d => { d with u := named 4 d.u }, fence0 3 0 1 8, by decide +kernel⟩,
    ⟨wD fun d => { d with u := reg Reg.glbNodeaddr 0x4000000 0 (named 8 d.u) }, fence0 3 0 1 8, by decide +kernel⟩,
    ⟨wD fun d => { d with u := reg Reg.hltWg 0x80000003 0 (reg Reg.hltGen 6 0 (named 5 d.u)) }, fence0 3 6 2 5, 0,
      by decide +kernel⟩,
    ⟨wD (hlts fun h => { h with slots := [(0, (⟨fence0 3 6 2 5, none, false, false, true, 7⟩ : FSlot))] }), od, 0, ⟨fence0
      3 6 2 5, none, false, false, true, 7⟩, by decide +kernel⟩,
    ⟨wD (hlts fun h => { h with slots := [(0, (⟨fence0 3 6 2 5, none, false, false, true, 0⟩ : FSlot))] }), od, 0, ⟨fence0
      3 6 2 5, none, false, false, true, 0⟩, by decide +kernel⟩,
    ⟨wA fun a => votes (fun v => { v with fences := [(fence0 5 6 2 5)] }) { a with u := raceUpU 1 a.u }, 33, 3, 6, 2,
      fence0 5 6 2 5, by decide +kernel⟩⟩

theorem witness_ChainCommands :
    (∃ (s : State) (side : Side) (c : ChainCmd), s.die.powered = true ∧ s.die.u.raceUp side.ix = true ∧ s.die.u.lnkRuns =
      true ∧ s.die.u.cmdFor c = false ∧ s.die.u.nodeOk = true ∧ s.die.u.raceUp side.other.ix = true)
    ∧ (∃ (s : State) (side : Side) (c : ChainCmd), s.die.powered = true ∧ s.die.u.raceUp side.ix = true ∧ s.die.u.lnkRuns =
      true ∧ s.die.u.miswired = false ∧ c.dest = 0xFFFFFF ∧ s.die.hlt.window = [])
    ∧ (∃ (s : State) (side : Side) (c : ChainCmd), s.die.powered = true ∧ s.die.u.raceUp side.ix = true ∧ s.die.u.lnkRuns =
      true ∧ s.die.u.miswired = false ∧ c.dest = 0xFFFFFF ∧ c.cseq.toNat ∈ s.die.hlt.window)
    ∧ (∃ (s : State) (p : Fin 8) (c : ChainCmd), s.agg.runs = true ∧ s.agg.u.raceUp p.val = true ∧ c.issuer = s.agg.u.node)
    ∧ (∃ (s : State) (p : Fin 8) (n m : Word) (f : InFlight), s.agg.runs = true ∧ s.agg.vote.flights = [f] ∧ f.port = p.val ∧
      f.cmd.cseq = n ∧ f.other = none ∧ m.toNat &&& (2 ^ (s.agg.chain p.val).len - 1) = 2 ^ (s.agg.chain p.val).len - 1 ∧
      f.own = none)
    ∧ (∃ (s : State) (i : FleetIn) (p : Fin 8) (n m : Word) (f : InFlight), s.hears i = true ∧ s.agg.vote.flights = [f] ∧
      f.port = p.val ∧ f.cmd.cseq = n ∧ f.own = none ∧ m.toNat &&& (2 ^ (s.agg.chain p.val).len - 1) ≠ 2 ^ (s.agg.chain
      p.val).len - 1)
    ∧ (∃ (s : State) (p : Fin 8) (n : Word) (f : InFlight), s.agg.runs = true ∧ s.agg.vote.flights = [f] ∧ f.port = p.val ∧
      f.cmd.cseq = n ∧ f.reissued = false ∧ s.agg.missing f ≠ [] ∧ usT (s.agg.u.fld Reg.votCmdto 15 0) ≤ s.agg.u.since
      f.at_ ∧ s.agg.partner = true)
    ∧ (∃ (s : State) (p : Fin 8) (n : Word) (f : InFlight), s.agg.runs = true ∧ s.agg.vote.flights = [f] ∧ f.port = p.val ∧
      f.cmd.cseq = n ∧ f.reissued = true ∧ s.agg.missing f ≠ [] ∧ usT (2 * s.agg.u.fld Reg.votCmdto 15 0) ≤ s.agg.u.since
      f.at_)
    ∧ (∃ (s : State) (k : Fin 256) (same : Bool), s.agg.runs = true ∧ s.agg.gone k.val = true ∧ s.agg.u.bit (Reg.glbOffmap + 4
      * (k.val / 32)) (k.val % 32) = false ∧ (same || !s.agg.partner) = true)
    ∧ (∃ (s : State) (k : Fin 256) (c : Nat), s.agg.runs = true ∧ Tab.find k.val s.agg.heard = some c ∧ usT (3 * s.agg.u.fld
      Reg.raceBeatper 7 0) ≤ s.agg.u.since c)
    ∧ (∃ (s : State) (k : Fin 256) (_same : Bool), s.agg.runs = true ∧ s.agg.gone k.val = false) :=
  ⟨⟨wU fun u => raceUpU 0 (raceUpU 1 (named 4 u)), .a, cmd0 9 8, by decide +kernel⟩,
    ⟨wU (raceUpU 0), .a, cmd0 9 0xFFFFFF, by decide +kernel⟩,
    ⟨wD fun d => hlts (fun h => { h with window := [9] }) { d with u := raceUpU 0 d.u }, .a, cmd0 9 0xFFFFFF,
      by decide +kernel⟩,
    ⟨wU (raceUpU 2), 2, cmd0 9 0xFFFFFF, by decide +kernel⟩,
    ⟨wA (votes fun v => { v with flights := [(flight0 none none false)] }), 2, 9, 0xFFFFFFFF, flight0 none none false,
      by decide +kernel⟩,
    ⟨wA fun a => votes (fun v => { v with flights := [(flight0 none none false)] }) (portUpA 1 a), fin0, 2, 9, 0xFFFFFFFE,
      flight0 none none false, by decide +kernel⟩,
    ⟨wA fun a => votes (fun v => { v with flights := [(flight0 (some 1) none false)] }) (aggedA big
      { a with partner := true }), 2, 9, flight0 (some 1) none false, by decide +kernel⟩,
    ⟨wA fun a => votes (fun v => { v with flights := [(flight0 (some 1) none true)] }) (aggedA big a), 2, 9, flight0 (some
      1) none true, by decide +kernel⟩,
    ⟨wA fun a => aggedA big (chainA 0 .complete a), 0, true, by decide +kernel⟩,
    ⟨wA fun a => aggedA big { a with heard := [(4, 0)] }, 4, 0, by decide +kernel⟩,
    ⟨base, 0, true, by decide +kernel⟩⟩

theorem witness_Proposals :
    (∃ (s : State) (n : Node) (p : Proposal), s.agg.runs = true ∧ s.agg.votes = true ∧ s.agg.proposalOf n = some p ∧
      Tab.find n.toNat s.agg.vote.props = none)
    ∧ (∃ (s : State) (n : Node), s.agg.runs = true ∧ s.agg.proposalOf n = none)
    ∧ (∃ (s : State) (n : Node) (p : Proposal) (q : Proposing), s.agg.runs = true ∧ s.agg.votes = true ∧ Tab.find n.toNat
      s.agg.vote.props = some q ∧ q.p.verd ≠ 4 ∧ s.agg.proposalOf n = some p ∧ (if p.pflags.toNat.testBit 0 then msT 1000
      else usT (s.agg.u.fld Reg.votGto 15 0)) ≤ s.agg.u.since q.at_)
    ∧ (∃ (s : State) (n : Node) (q : Proposing), s.agg.runs = true ∧ Tab.find n.toNat s.agg.vote.props = some q ∧ q.p.verd ≠ 4
      ∧ s.agg.proposalOf n = none)
    ∧ (∃ (s : State) (i : FleetIn) (_h : VoteHead) (_p : Proposal), s.hears i = true ∧ s.agg.decides false = false)
    ∧ (∃ (s : State) (_n : Node), s.agg.runs = true)
    ∧ (∃ (a : Agg) (_n : Node), a.govAllows = false) :=
  ⟨⟨wA fun a => votes (fun v => { v with dies := [(0, dv0)] }) (decider a), 0, prop0, by decide +kernel⟩,
    ⟨wA fun a => decider a, 0, by decide +kernel⟩,
    ⟨wA fun a => votes (fun v => { v with dies := [(0, dv0)], props := [(0, (⟨prop0, 0, 0⟩ : Proposing))] }) (aggedA big
      (decider a)), 0, prop0, ⟨prop0, 0, 0⟩, by decide +kernel⟩,
    ⟨wA fun a => votes (fun v => { v with props := [(0, (⟨prop0, 0, 0⟩ : Proposing))] }) (aggedA big (decider a)), 0,
      ⟨prop0, 0, 0⟩, by decide +kernel⟩,
    ⟨wA (portUpA 1), fin0, vh0, prop0, by decide +kernel⟩,
    ⟨base, 0, by decide +kernel⟩,
    ⟨State.reset.agg, 0, by decide +kernel⟩⟩

theorem witness_Decisions :
    (∃ (s : State) (i : FleetIn) (h : VoteHead) (f : Fence), s.hears i = true ∧ s.agg.votes = true ∧ (s.agg.role (h.role ==
      2)).held = true ∧ (s.agg.role (h.role == 2)).term = h.term.toNat ∧ (f.fkind = 2 → s.agg.govAllows = true))
    ∧ (∃ (s : State) (i : FleetIn) (h : VoteHead) (_f : Fence), s.hears i = true ∧ (s.agg.role (h.role == 2)).term ≠
      h.term.toNat)
    ∧ (∃ (s : State) (i : FleetIn) (_h : VoteHead) (id : BitVec 64) (d : Decision), s.hears i = true ∧ Tab.find id.toNat
      s.agg.vote.decisions = some d ∧ (s.agg.role d.sys).held = true)
    ∧ (∃ (s : State) (i : FleetIn) (_h : VoteHead) (id : BitVec 64) (d : Decision), s.hears i = true ∧ Tab.find id.toNat
      s.agg.vote.decisions = some d ∧ (s.agg.role d.sys).held = true ∧ d.escalate = false ∧ d.sys = false)
    ∧ (∃ (s : State) (i : FleetIn) (_h : VoteHead) (id : BitVec 64) (d : Decision), s.hears i = true ∧ Tab.find id.toNat
      s.agg.vote.decisions = some d ∧ (s.agg.role d.sys).held = true ∧ d.escalate = true ∧ d.escalated = false ∧
      s.agg.decides true = false)
    ∧ (∃ (s : State) (id : BitVec 64) (d : Decision), s.agg.runs = true ∧ Tab.find id.toNat s.agg.vote.decisions = some d ∧
      (d.escalated = false ∨ s.agg.decides true = false) ∧ usT (if d.sys || d.escalated then s.agg.u.fld Reg.votSto 15 0
      else s.agg.u.fld Reg.votGto 15 0) ≤ s.agg.u.since d.at_)
    ∧ (∃ (s : State) (i : FleetIn) (_h : VoteHead) (f : Fence) (_ps : List Proposal), s.hears i = true ∧ s.agg.decides true =
      true ∧ (∀ d ∈ s.agg.vote.decisions, d.2.sys = true → d.2.f.subj ≠ f.eff.subj))
    ∧ (∃ (s : State) (i : FleetIn) (_h : VoteHead) (f : Fence), s.hears i = true ∧ s.agg.vote.group.held = true ∧
      s.agg.vote.decisions = [] ∧ (s.agg.fenceGroups f.eff = [] ∨ (s.agg.fenceGroups f.eff).all WGroup.span = false))
    ∧ (∃ (s : State) (t : BitVec 6) (gt : Nat), s.agg.runs = true ∧ s.agg.decides false = true ∧ gt = s.agg.tray / 64 * 64 +
      t.toNat % 64 ∧ gt ≠ s.agg.tray ∧ s.agg.beating (sideAddr gt .a) = false ∧ s.agg.beating (sideAddr gt .b) = false ∧
      (s.agg.inForce (trayAddr gt)).verd ≠ 3 ∧ (∀ d ∈ s.agg.vote.decisions, d.2.f.subj ≠ trayAddr gt))
    ∧ (∃ (s : State) (i : FleetIn) (_h : VoteHead) (_f : Fence), s.hears i = true)
    ∧ (∃ (s : State) (i : FleetIn) (_h : VoteHead) (_id : BitVec 64) (_w : BitVec 16) (_n : Word) (_gap : Bool), s.hears i =
      true)
    ∧ (∃ (s : State) (id : BitVec 64) (p : Published), s.agg.runs = true ∧ s.agg.vote.pubs = [p] ∧ p.f.decid = id ∧ usT (if
      p.sys then s.agg.u.fld Reg.votSto 15 0 else s.agg.u.fld Reg.votGto 15 0) ≤ s.agg.u.since p.at_ ∧ p.dst ≠ [] ∧ (∀ t ∈
      p.dst, s.agg.beating t.1 = true)) :=
  ⟨⟨wA decider, fin0, vh0, fence0 3 1 1 0, by decide +kernel⟩,
    ⟨wA decider, fin0, { vh0 with term := 5 }, fence0 3 1 1 0, by decide +kernel⟩,
    ⟨wA fun a => votes (fun v => { v with decisions := [(77, (dec0 false))] }) (decider a), fin0, vh0, 77, dec0 false,
      by decide +kernel⟩,
    ⟨wA fun a => votes (fun v => { v with decisions := [(77, (dec0 false))] }) (decider a), fin0, vh0, 77, dec0 false,
      by decide +kernel⟩,
    ⟨wA fun a => votes (fun v => { v with decisions := [(77, (dec0 true))] }) (decider a), fin0, vh0, 77, dec0 true,
      by decide +kernel⟩,
    ⟨wA fun a => votes (fun v => { v with decisions := [(77, (dec0 false))] }) (aggedA big (decider a)), 77, dec0 false,
      by decide +kernel⟩,
    ⟨wA ruling, fin0, vh0, fence0 2 1 1 5, [], by decide +kernel⟩,
    ⟨wA decider, fin0, vh0, fence0 2 1 1 5, by decide +kernel⟩,
    ⟨wA ruling, 5, 5, by decide +kernel⟩,
    ⟨wA decider, fin0, vh0, fence0 2 1 1 5, by decide +kernel⟩,
    ⟨wA decider, fin0, vh0, 0, 0, 0, true, by decide +kernel⟩,
    ⟨wA fun a => votes (fun v => { v with pubs := [pub0], beats := [(0x400400, big)] }) (aggedA big (decider a)), 77, pub0,
      by decide +kernel⟩⟩

theorem witness_BeatsAndRoles :
    (∃ (s : State), s.agg.runs = true ∧ s.agg.joined = true)
    ∧ (∃ (s : State) (i : FleetIn) (h : VoteHead) (_b : TrayBeat), s.hears i = true ∧ h.eff.src ≠ s.agg.partnerAddr ∧
      s.agg.vote.held = [])
    ∧ (∃ (s : State), s.agg.runs = true ∧ s.agg.joined = true ∧ s.agg.partner = true ∧ s.agg.beating s.agg.partnerAddr = false)
    ∧ (∃ (s : State), s.agg.runs = true ∧ s.agg.joined = true ∧ s.agg.vote.group.held = true)
    ∧ (∃ (s : State) (i : FleetIn) (_h : VoteHead) (_t : Word) (_n : BitVec 8), s.hears i = true)
    ∧ (∃ (s : State) (sys : Bool), s.agg.runs = true ∧ (s.agg.role sys).held = true ∧ (s.agg.role sys).isolated = false ∧
      s.agg.majority sys = false)
    ∧ (∃ (s : State) (sys : Bool), s.agg.runs = true ∧ (s.agg.role sys).held = true ∧ s.agg.roleEligible sys = true ∧ (∀ c,
      (s.agg.role sys).sent = some c → usT 100 ≤ s.agg.u.since c))
    ∧ (∃ (s : State) (sys : Bool) (c : Nat), s.agg.runs = true ∧ s.agg.roleEligible sys = true ∧ (s.agg.role sys).sent = some
      c ∧ s.agg.u.since c < usT 100)
    ∧ (∃ (s : State) (sys : Bool), s.agg.runs = true ∧ (s.agg.role sys).held = true ∧ s.agg.roleEligible sys = false)
    ∧ (∃ (s : State) (i : FleetIn) (sys : Bool) (holder : Node) (term : Word), s.hears i = true ∧ trayOf (addrEff holder) ≠
      s.agg.tray ∧ ((s.agg.role sys).held = true → s.agg.loses sys (addrEff holder) term.toNat = true))
    ∧ (∃ (s : State) (i : FleetIn) (sys : Bool) (holder : Node) (term : Word), s.hears i = true ∧ trayOf (addrEff holder) ≠
      s.agg.tray ∧ (s.agg.role sys).held = true ∧ s.agg.loses sys (addrEff holder) term.toNat = false)
    ∧ (∃ (s : State) (sys : Bool), s.agg.runs = true ∧ (s.agg.role sys).held = false ∧ s.agg.roleEligible sys = true ∧ (∃ c,
      (s.agg.role sys).heard = some c ∧ usT 300 ≤ s.agg.u.since c))
    ∧ (∃ (a : Agg) (sys : Bool), a.majority sys = false)
    ∧ (∃ (a : Agg) (sys : Bool), (a.u.bit Reg.glbRolecfg (b2n sys) = false ∨ a.vote.pcand.testBit (b2n sys) = false ∨
      a.partner = false))
    ∧ (∃ (s : State) (sys : Bool), s.agg.runs = true ∧ (s.agg.role sys).held = false ∧ (s.agg.role sys).heard = none)
    ∧ (∃ (s : State) (sys : Bool), s.agg.runs = true ∧ (s.agg.role sys).quiet = true ∧ usT (if sys then 1200 else 400) ≤
      s.agg.u.since (s.agg.role sys).won ∧ s.agg.vote.held = []) :=
  ⟨⟨wA decider, by decide +kernel⟩,
    ⟨wA decider, fin0, { vh0 with src := 0x400800 }, ⟨4, 0, 0, 0⟩, by decide +kernel⟩,
    ⟨wA fun a => { decider a with partner := true }, by decide +kernel⟩,
    ⟨wA decider, by decide +kernel⟩,
    ⟨wA decider, fin0, vh0, 0, 0, by decide +kernel⟩,
    ⟨wA fun a => { decider a with u := reg Reg.votGcfg 0x4040 0 (decider a).u }, false, by decide +kernel⟩,
    ⟨wA fun a => votes (fun v => { v with pcand := 3 })
      { decider a with partner := true, u := reg Reg.glbRolecfg 3 0 (decider a).u }, false, ⟨by decide +kernel,
      by decide +kernel, by decide +kernel, (fun _ h => nomatch h)⟩⟩,
    ⟨wA fun a => votes (fun v => { v with pcand := 3, group := { v.group with sent := some 0 } })
      { decider a with partner := true, u := reg Reg.glbRolecfg 3 0 (decider a).u }, false, 0, by decide +kernel⟩,
    ⟨wA decider, false, by decide +kernel⟩,
    ⟨wA fun a => votes (fun v => { v with group := role0 }) (decider a), fin0, false, 0x400800, 6, by decide +kernel⟩,
    ⟨wA decider, fin0, false, 0x400800, 3, by decide +kernel⟩,
    ⟨wA fun a => votes (fun v => { v with pcand := 3, group := { role0 with heard := some 0 } })
      { aggedA big (decider a) with partner := true, u := aged big (reg Reg.glbRolecfg 3 0 (decider a).u) }, false,
      by decide +kernel⟩,
    ⟨State.reset.agg, true, by decide +kernel⟩,
    ⟨State.reset.agg, true, by decide +kernel⟩,
    ⟨base, true, by decide +kernel⟩,
    ⟨wA fun a => votes (fun v => { v with group := { v.group with quiet := true } }) (aggedA big (decider a)), false,
      by decide +kernel⟩⟩

theorem witness_AdmissionRun :
    (∃ (s : State) (o : Origin) (_w : BitVec 12), s.takes .agg o Reg.votAdmctl = true ∧ s.agg.vote.adm.state = 0 ∧
      s.agg.joined = true)
    ∧ (∃ (s : State), s.agg.runs = true ∧ s.agg.vote.adm.state = 1 ∧ s.agg.allChecked = true)
    ∧ (∃ (s : State), s.agg.runs = true ∧ s.agg.vote.adm.state = 1)
    ∧ (∃ (s : State), s.agg.runs = true ∧ s.agg.vote.adm.state = 2 ∧ s.agg.vote.adm.step < 16 ∧ s.agg.sweepPeriod ≤
      s.agg.u.since s.agg.vote.adm.at_)
    ∧ (∃ (s : State), s.agg.runs = true ∧ s.agg.vote.adm.state = 2 ∧ 16 ≤ s.agg.vote.adm.step ∧ s.agg.sweepPeriod ≤
      s.agg.u.since s.agg.vote.adm.at_ ∧ s.agg.vote.drift = [] ∧ (∀ d ∈ s.agg.vote.dies, d.2.comps.getD 3 0 = 0))
    ∧ (∃ (s : State), s.agg.runs = true ∧ s.agg.vote.adm.state = 2 ∧ 16 ≤ s.agg.vote.adm.step ∧ s.agg.sweepPeriod ≤
      s.agg.u.since s.agg.vote.adm.at_ ∧ s.agg.vote.drift ≠ [])
    ∧ (∃ (s : State), s.agg.runs = true ∧ s.agg.vote.adm.step < 16)
    ∧ (∃ (s : State) (o : Origin), s.takes .agg o Reg.votAdmctl = true ∧ s.agg.vote.adm.state = 3)
    ∧ (∃ (s : State) (o : Origin), s.takes .agg o Reg.votAdmctl = true) :=
  ⟨⟨wA decider, oa, 9, by decide +kernel⟩,
    ⟨wA fun a => votes (fun v => { v with adm := { v.adm with state := 1 } }) (decider a), by decide +kernel⟩,
    ⟨wA fun a => votes (fun v => { v with adm := { v.adm with state := 1 } }) (decider a), by decide +kernel⟩,
    ⟨wA fun a => votes (fun v => { v with adm := { v.adm with state := 2, step := 15 } }) (aggedA (2 ^ 50) (decider a)),
      by decide +kernel⟩,
    ⟨wA fun a => votes (fun v =>
      { v with adm := { v.adm with state := 2, step := 16 }, dies := [(0, { dv0 with comps := [] })] }) (aggedA (2 ^ 50)
      (decider a)), by decide +kernel⟩,
    ⟨wA fun a => votes (fun v => { v with adm := { v.adm with state := 2, step := 16 }, drift := [(0, 1)] }) (aggedA (2 ^
      50) (decider a)), by decide +kernel⟩,
    ⟨base, by decide +kernel⟩,
    ⟨wA fun a => votes (fun v => { v with adm := { v.adm with state := 3 } }) (decider a), oa, by decide +kernel⟩,
    ⟨wA fun a => votes (fun v => { v with adm := { v.adm with state := 3 } }) (decider a), oa, by decide +kernel⟩⟩

theorem witness_PairHandshake :
    (∃ (s : State), s.agg.runs = true ∧ s.agg.pair.done = false ∧ (∀ c, s.agg.pair.sent = some c → msT (if s.agg.pair.failed
      then 10 else 1) ≤ s.agg.u.since c))
    ∧ (∃ (s : State) (i : FleetIn) (h : Hello), s.hears i = true ∧ s.agg.helloBad h ≠ [] ∧ s.agg.pair.done = false)
    ∧ (∃ (s : State) (i : FleetIn) (h : Hello), s.hears i = true ∧ s.agg.helloBad h = [] ∧ h.ack = false)
    ∧ (∃ (s : State) (i : FleetIn) (h : Hello), s.hears i = true ∧ s.agg.helloBad h = [] ∧ h.ack = true ∧ s.agg.pair.done =
      false)
    ∧ (∃ (s : State), s.agg.runs = true ∧ s.agg.pair.done = false ∧ s.agg.pair.alone = false ∧ s.agg.pair.hello = none ∧
      s.agg.pair.failed = false ∧ msT (s.agg.u.fld Reg.glbPairto 15 0) ≤ s.agg.u.since s.agg.pair.since)
    ∧ (∃ (s : State) (side : Side) (x : PairUp), s.die.powered = true ∧ s.die.u.raceUp side.ix = true ∧ s.die.u.miswired =
      false ∧ x.half = false ∧ s.die.pw.half1 = none)
    ∧ (∃ (s : State) (side : Side) (x y : PairUp), s.die.powered = true ∧ s.die.u.raceUp side.ix = true ∧ s.die.u.miswired =
      false ∧ x.half = true ∧ s.die.pw.half0 = some y ∧ y.issuer = x.issuer)
    ∧ (∃ (s : State), s.agg.runs = true ∧ s.agg.joined = false ∧ (s.agg.pair.done || s.agg.pair.alone) = true ∧
      s.agg.pair.failed = false ∧ s.agg.joinPort = true ∧ s.agg.ownSynced = true) :=
  ⟨⟨wA decider, ⟨by decide +kernel, by decide +kernel, (fun _ h => nomatch h)⟩⟩,
    ⟨wA (portUpA 1), fin0, { (wA (portUpA 1)).agg.hello with side := .a }, by decide +kernel⟩,
    ⟨wA (portUpA 1), fin0, { (wA (portUpA 1)).agg.hello with side := .b }, by decide +kernel⟩,
    ⟨wA (portUpA 1), fin0, { (wA (portUpA 1)).agg.hello with side := .b, ack := true }, by decide +kernel⟩,
    ⟨wA (aggedA big), by decide +kernel⟩,
    ⟨wU (raceUpU 0), .a, ⟨false, 0, 0, [], 0⟩, by decide +kernel⟩,
    ⟨wD fun d => { d with u := raceUpU 0 d.u, pw := { d.pw with half0 := some (⟨false, 0, 0, [], 0⟩ : PairUp) } }, .a,
      ⟨true, 0, 0, [], 0⟩, ⟨false, 0, 0, [], 0⟩, by decide +kernel⟩,
    ⟨wA fun a =>
      { portUpA 1 a with pair := { a.pair with done := true }, jrn := { a.jrn with streams := [768, 769, 770, 771].map fun i => (i, { a.jst i with fwd := true, sent := some 0, sync := none }) } },
      by decide +kernel⟩⟩

theorem witness_HangAnalysis :
    (∃ (s : State) (_k : Fin 128) (_w : Word), s.die.powered = true ∧ s.die.wfgRuns = true)
    ∧ (∃ (s : State), s.die.powered = true ∧ s.die.wfgRuns = true)
    ∧ (∃ (s : State), s.die.powered = true ∧ s.die.wfgRuns = true ∧ s.die.wfg.edges ≠ s.die.wfg.told)
    ∧ (∃ (s : State), s.die.powered = true ∧ s.die.wfgRuns = true ∧ s.die.wfg.edges = s.die.wfg.told ∧ s.die.u.since
      s.die.wfg.toldAt < msT (s.die.u.fld Reg.wfgRptper 15 0))
    ∧ (∃ (s : State) (n : Nat), s.agg.runs = true ∧ n = timeMs s.agg.u.tb.now / max 1 (s.agg.u.fld Reg.votHangper 15 0) ∧
      s.agg.hang.period ≠ some n ∧ s.agg.assembles = true ∧ s.agg.decides false = false ∧ s.agg.decides true = false ∧ (∀ x
      ∈ s.agg.hang.dies, s.agg.stale x.2 = false) ∧ (trayExits s.agg.trayEdges s.agg.tray).length ≤ 1024)
    ∧ (∃ (s : State) (n : Nat), s.agg.runs = true ∧ n = timeMs s.agg.u.tb.now / max 1 (s.agg.u.fld Reg.votHangper 15 0) ∧
      s.agg.hang.period = some n)
    ∧ (∃ (s : State) (n : Nat), s.agg.runs = true ∧ n = timeMs s.agg.u.tb.now / max 1 (s.agg.u.fld Reg.votHangper 15 0) ∧ n <
      2 ^ 64 ∧ s.agg.hang.period ≠ some n ∧ s.agg.decides false = true ∧ s.agg.u.bit Reg.wfaCtrl 0 = true ∧
      s.agg.hang.group = none)
    ∧ (∃ (s : State) (i : FleetIn) (_h : VoteHead) (g : HangGraph) (x : Assembly), s.hears i = true ∧ s.agg.decides false =
      true ∧ s.agg.hang.group = some x ∧ x.closed = false ∧ x.asmn = g.asmn.toNat)
    ∧ (∃ (s : State) (i : FleetIn) (_h : VoteHead) (g : HangGraph) (x : Assembly), s.hears i = true ∧ s.agg.decides true =
      true ∧ s.agg.hang.system = some x ∧ x.closed = false ∧ x.asmn = g.asmn.toNat)
    ∧ (∃ (s : State) (x : Assembly), s.agg.runs = true ∧ s.agg.hang.group = some x ∧ x.closed = false ∧ x.exits = [] ∧ x.asked
      = [] ∧ x.rsps = [] ∧ s.agg.hang.system = none ∧ usT 150 ≤ s.agg.u.since x.at_)
    ∧ (∃ (s : State) (i : FleetIn) (h : VoteHead) (_n : BitVec 64) (_ws : List Word), s.hears i = true ∧ h.role ≠ 2 ∧
      s.agg.assembles = true)
    ∧ (∃ (s : State) (i : FleetIn) (h : VoteHead) (n : BitVec 64) (r : WalkRsp) (x : Assembly), s.hears i = true ∧ h.role ≠ 1
      ∧ s.agg.decides false = true ∧ s.agg.hang.group = some x ∧ x.closed = false ∧ x.asmn = n.toNat ∧ r.stat ≠ 1 ∧ (∀ q ∈
      x.rsps, q.w ≠ r.w ∧ q.stat ≠ 1) ∧ s.agg.hang.wanted = []) :=
  ⟨⟨wD wfgOn, 0, 5, by decide +kernel⟩,
    ⟨wD wfgOn, by decide +kernel⟩,
    ⟨wD fun d => { wfgOn d with wfg := { d.wfg with told := [(1, 2)] } }, by decide +kernel⟩,
    ⟨wD fun d => wfgOn { d with u := reg Reg.wfgRptper 10 0 d.u }, by decide +kernel⟩,
    ⟨wA fun a => votes (fun v => { v with group := role0, system := role0 })
      { decider a with u := timed (2 ^ 40) (decider a).u }, timeMs (wA fun a => votes (fun v =>
      { v with group := role0, system := role0 }) { decider a with u := timed (2 ^ 40) (decider a).u }).agg.u.tb.now / max
      1 ((wA fun a => votes (fun v => { v with group := role0, system := role0 })
      { decider a with u := timed (2 ^ 40) (decider a).u }).agg.u.fld Reg.votHangper 15 0), by decide +kernel⟩,
    ⟨wA (hangs fun h => { h with period := some 0 }), 0, by decide +kernel⟩,
    ⟨wA fun a => { ruling a with u := timed (2 ^ 40) (ruling a).u }, timeMs (wA fun a =>
      { ruling a with u := timed (2 ^ 40) (ruling a).u }).agg.u.tb.now / max 1 ((wA fun a =>
      { ruling a with u := timed (2 ^ 40) (ruling a).u }).agg.u.fld Reg.votHangper 15 0), by decide +kernel⟩,
    ⟨wA fun a => hangs (fun h => { h with group := some asm0 }) (ruling a), fin0, vh0, ⟨0, 0, 1, [], []⟩, asm0,
      by decide +kernel⟩,
    ⟨wA fun a => hangs (fun h => { h with system := some asm0 }) (ruling a), fin0, vh0, ⟨0, 0, 1, [], []⟩, asm0,
      by decide +kernel⟩,
    ⟨wA fun a => hangs (fun h => { h with group := some asm0 }) (aggedA big (decider a)), asm0, by decide +kernel⟩,
    ⟨wA decider, fin0, vh0, 0, [5], by decide +kernel⟩,
    ⟨wA fun a => hangs (fun h => { h with group := some asm0 }) (ruling a), fin0, { vh0 with role := 2 }, 0, ⟨5, 2, [], 0⟩,
      asm0, by decide +kernel⟩⟩

theorem witness_DieDelivery :
    (∃ (s : State) (t : Nat) (x : Draft) (sp : Bool), s.die.powered = true ∧ s.agg.runs = true ∧ s.agg.u.recs.held = [] ∧
      s.die.u.recs.held = [(t, x, 0)] ∧ s.die.u.nodeOk = true ∧ s.die.u.hostOff = false ∧ s.die.u.room .alarm (32 +
      x.payload.length) = some sp)
    ∧ (∃ (s : State) (p : Part) (k : Nat) (e : EvEntry) (sp : Bool), s.on p = true ∧ (s.part p).hostOff = false ∧ (s.part
      p).evr.held = [(k, e)] ∧ (s.part p).room .alarm (32 + (evBytes e).length) = some sp)
    ∧ (∃ (s : State) (c : RecClass) (i : Nat) (e : LogEnt), s.die.powered = true ∧ s.die.u.bit Reg.rasDmastat 2 = false ∧
      s.die.u.spilled c.code = some (i, e) ∧ s.die.u.bufFill + e.size + (if c = .alarm then 0 else 32768) ≤ bufSize)
    ∧ (∃ (s : State) (c : RecClass) (side : Side) (r : Rec) (n : Nat), s.die.powered = true ∧ s.die.u.nodeOk = true ∧
      s.die.paired = true ∧ s.die.u.lnkRuns = true ∧ s.die.u.raceReady side.ix c.code (if c.code = 0 then 64 else 2064) =
      true ∧ (s.die.u.rport side.ix).window = none ∧ ((s.die.head side).stream c.code).restart = false ∧ ((s.die.head
      side).stream c.code).ofs = 0 ∧ r.bytes.length ≤ 48 ∧ (s.die.u.stream c.code).log[((s.die.head side).stream
      c.code).next]? = some ⟨.rcd r, n, false⟩)
    ∧ (∃ (s : State) (_c : RecClass) (_side : Side), s.die.powered = true ∧ s.die.paired = false)
    ∧ (∃ (d : Die) (_cls : Nat), d.paired = false)
    ∧ (∃ (s : State) (side : Side) (k : Ack), s.die.powered = true ∧ s.die.u.raceUp side.ix = true ∧ addrEff k.dest ≠
      s.die.u.node)
    ∧ (∃ (s : State) (side : Side) (k : Ack), s.die.powered = true ∧ s.die.u.raceUp side.ix = true ∧ addrEff k.dest =
      s.die.u.node ∧ s.die.u.nodeOk = true)
    ∧ (∃ (s : State) (side : Side) (c : RecClass), s.die.powered = true ∧ (s.die.head side).reach = true ∧ s.die.outstanding
      side c.code = true ∧ ((s.die.head side).full = false ∨ c = .alarm) ∧ usT (s.die.u.fld Reg.recAckto 15 0) ≤
      s.die.u.since ((s.die.head side).stream c.code).since)
    ∧ (∃ (s : State) (side : Side), s.die.powered = true ∧ (s.die.head side).reach = true ∧ usT (s.die.u.fld Reg.recHeadto 15
      0) ≤ s.die.u.since (s.die.head side).seen)
    ∧ (∃ (s : State), s.die.powered = true ∧ (s.die.u.raceUp 0 || s.die.u.raceUp 1) = true)
    ∧ (∃ (s : State) (p : Part), s.on p = true ∧ (s.part p).bit Reg.recCtrl 1 = true ∧ (s.part p).nodeOk = true ∧ (s.part
      p).hostOff = false)
    ∧ (∃ (s : State) (p : Part), s.on p = true ∧ (s.part p).bit Reg.recCtrl 1 = false) :=
  ⟨⟨wD fun d => { d with u := recsU (fun r => { r with held := [(0, (draft0 .alarm), 0)] }) (named 5 d.u) }, 0, draft0
      .alarm, false, by decide +kernel⟩,
    ⟨wU fun u => { u with evr := { u.evr with held := [(5, ev0)] } }, .die, 5, ev0, false, by decide +kernel⟩,
    ⟨wU (streamU 3 ⟨1, true, 0, [(⟨.void 1, 64, true⟩ : LogEnt)]⟩), .record, 0, ⟨.void 1, 64, true⟩, by decide +kernel⟩,
    ⟨wD fun d =>
      { d with paired := true, u := raceUpU 0 (named 4 (streamU 3 ⟨1, true, 0, [⟨.rcd ({ rec0 none 0 with payload := [] } : Rec), 64, false⟩]⟩ d.u)), headA := { d.headA with reach := true, streams := [(3, hs0)] } },
      .record, .a, { rec0 none 0 with payload := [] }, 64, by decide +kernel⟩,
    ⟨base, .record, .a, by decide +kernel⟩,
    ⟨State.reset.die, 0, by decide +kernel⟩,
    ⟨wD fun d => { d with u := raceUpU 0 (named 4 d.u) }, .a, ⟨0, 8, 0, 0, 0, 0⟩, by decide +kernel⟩,
    ⟨wD fun d => { d with u := raceUpU 0 (named 4 d.u) }, .a, ⟨0, 4, 0, 0, 0, 0⟩, by decide +kernel⟩,
    ⟨wD fun d =>
      { d with u := aged big (streamU 3 ⟨1, true, 0, [⟨.rcd (rec0 none 0), 64, false⟩]⟩ d.u), headA := { d.headA with reach := true, full := false, streams := [(3, { hs0 with next := 1 })] } },
      .a, .record, by decide +kernel⟩,
    ⟨wD fun d => { d with u := aged big d.u, headA := { d.headA with reach := true, seen := 0 } }, .a, by decide +kernel⟩,
    ⟨wU (raceUpU 0), by decide +kernel⟩,
    ⟨wU fun u => reg Reg.recCtrl 2 0 (named 5 u), .die, by decide +kernel⟩,
    ⟨wU (reg Reg.recCtrl 0), .die, by decide +kernel⟩⟩

theorem witness_JournalWrites :
    (∃ (s : State) (p : Fin 8) (g : RecSeg) (b : List Byte) (r : Rec) (c : RecClass) (l : Seq), s.agg.runs = true ∧
      s.agg.u.raceUp p.val = true ∧ kindOf g.orig = 0 ∧ s.agg.journals = true ∧ s.agg.joinSeg g = some b ∧ g.last = true ∧
      Rec.parse b = some r ∧ kindOf r.src = 0 ∧ r.rclass = some c ∧ r.chk = r.goodChk ∧ r.classNo = 0 ∧ s.agg.lastIn (jrnIx
      (addrEff r.src) c) = some l ∧ r.seq = l + 1)
    ∧ (∃ (s : State) (p : Fin 8) (g : RecSeg) (b : List Byte) (r : Rec) (c : RecClass), s.agg.runs = true ∧ s.agg.u.raceUp
      p.val = true ∧ kindOf g.orig = 0 ∧ s.agg.journals = true ∧ s.agg.joinSeg g = some b ∧ g.last = true ∧ Rec.parse b =
      some r ∧ kindOf r.src = 0 ∧ r.rclass = some c ∧ r.chk ≠ r.goodChk)
    ∧ (∃ (s : State) (p : Fin 8) (g : RecSeg) (b : List Byte) (r : Rec) (c : RecClass) (l : Seq), s.agg.runs = true ∧
      s.agg.u.raceUp p.val = true ∧ kindOf g.orig = 0 ∧ s.agg.journals = true ∧ s.agg.joinSeg g = some b ∧ g.last = true ∧
      Rec.parse b = some r ∧ kindOf r.src = 0 ∧ r.rclass = some c ∧ r.chk = r.goodChk ∧ s.agg.lastIn (jrnIx (addrEff r.src)
      c) = some l ∧ seqLater r.seq l = true ∧ r.seq ≠ l + 1)
    ∧ (∃ (s : State) (p : Fin 8) (g : RecSeg), s.agg.runs = true ∧ s.agg.u.raceUp p.val = true ∧ kindOf g.orig = 0 ∧
      s.agg.journals = true ∧ s.agg.joinSeg g = none)
    ∧ (∃ (s : State) (p : Fin 8) (g : RecSeg) (b : List Byte), s.agg.runs = true ∧ s.agg.u.raceUp p.val = true ∧ kindOf g.orig
      = 0 ∧ s.agg.journals = true ∧ s.agg.joinSeg g = some b ∧ g.last = false)
    ∧ (∃ (a : Agg) (g : RecSeg) (b : List Byte), Tab.find (jrnIx (addrEff g.orig) g.cls) a.jrn.parts = some b)
    ∧ (∃ (s : State) (i : Nat) (b : LogBody) (l : List (Nat × LogBody)), s.agg.runs = true ∧ s.agg.jrn.writes = (i, b) :: l ∧
      i < 768)
    ∧ (∃ (s : State) (o : Node) (_c : RecClass) (_n : Seq), s.agg.runs = true ∧ kindOf o = 0 ∧ s.agg.journals = true ∧
      s.agg.u.raceUp (dieKey o / 32) = true)
    ∧ (∃ (s : State) (o : Node) (c : RecClass) (n l : Seq), s.agg.runs = true ∧ kindOf o = 0 ∧ s.agg.journals = true ∧
      s.agg.u.raceUp (dieKey o / 32) = true ∧ s.agg.lastIn (jrnIx (addrEff o) c) = some l ∧ n = l + 1)
    ∧ (∃ (s : State) (k : Fin 256), s.agg.runs = true ∧ s.agg.reaches k.val = true ∧ s.agg.journals = true)
    ∧ (∃ (s : State), s.agg.runs = true)
    ∧ (∃ (s : State) (k : Nat), s.agg.runs = true ∧ k = s.agg.u.tb.now * 10 / 2 ^ 32 ∧ 0 < k ∧ s.agg.u.nodeOk = true ∧ (∀ b,
      s.agg.jrn.block = some b → b + 1 < k))
    ∧ (∃ (s : State), s.agg.runs = true ∧ s.agg.jrn.warn = none)
    ∧ (∃ (s : State) (c : Nat), s.agg.runs = true ∧ s.agg.jrn.warn = some c ∧ msT 4 ≤ s.agg.u.since c ∧ s.agg.jrn.flushing =
      false ∧ s.agg.jrn.flushed = false)
    ∧ (∃ (s : State) (b : Agg), s.agg.runs = true ∧ s.agg.jrn.flushing = true ∧ b =
      { s.agg with jrn := { s.agg.jrn with flushing := false, flushed := true } })
    ∧ (∃ (s : State), s.agg.runs = true ∧ s.agg.jrn.flushed = true) :=
  ⟨⟨wA fun a => jst0 (jrnIx 4 .alarm) (fun x => { x with valid := true, jseq := some 7 }) (jrnA a), 2, seg0 .alarm (recA
      8), (recA 8).bytes, recA 8, .alarm, 7, by decide +kernel⟩,
    ⟨wA jrnA, 2, seg0 .record (rec0 (some 1) 8), (rec0 (some 1) 8).bytes, rec0 (some 1) 8, .record, by decide +kernel⟩,
    ⟨wA fun a => jst0 (jrnIx 4 .record) (fun x => { x with valid := true, jseq := some 7 }) (jrnA a), 2, seg0 .record (rec0
      none 9), (rec0 none 9).bytes, rec0 none 9, .record, 7, by decide +kernel⟩,
    ⟨wA jrnA, 2, ⟨4, .record, 9, false, true, [1]⟩, by decide +kernel⟩,
    ⟨wA jrnA, 2, ⟨4, .record, 0, true, false, [1]⟩, [1], by decide +kernel⟩,
    ⟨{ State.reset.agg with jrn := { State.reset.agg.jrn with parts := [(jrnIx 4 .record, [1])] } }, ⟨4, .record, 1, false,
      false, [2]⟩, [1], by decide +kernel⟩,
    ⟨wA fun a => { a with jrn := { a.jrn with writes := [(767, .void 3)] } }, 767, .void 3, [], by decide +kernel⟩,
    ⟨wA fun a => { jrnA a with u := raceUpU 0 (jrnA a).u }, 4, .record, 0, by decide +kernel⟩,
    ⟨wA fun a => jst0 (jrnIx 4 .record) (fun x => { x with valid := true, jseq := some 7 })
      { jrnA a with u := raceUpU 0 (jrnA a).u }, 4, .record, 8, 7, by decide +kernel⟩,
    ⟨wA fun a => { jrnA a with heard := [(4, 0)] }, 4, by decide +kernel⟩,
    ⟨base, by decide +kernel⟩,
    ⟨wA fun a => { a with u := named 0x400000 (timed (2 ^ 40) a.u) }, (wA fun a =>
      { a with u := named 0x400000 (timed (2 ^ 40) a.u) }).agg.u.tb.now * 10 / 2 ^ 32, ⟨by decide +kernel,
      by decide +kernel, by decide +kernel, by decide +kernel, (fun _ h => nomatch h)⟩⟩,
    ⟨base, by decide +kernel⟩,
    ⟨wA fun a => aggedA (msT 4) { a with jrn := { a.jrn with warn := some 0 } }, 0, by decide +kernel⟩,
    ⟨wA fun a => { a with jrn := { a.jrn with flushing := true } },
      { (wA fun a => { a with jrn := { a.jrn with flushing := true } }).agg with jrn := { (wA fun a => { a with jrn := { a.jrn with flushing := true } }).agg.jrn with flushing := false, flushed := true } },
      ⟨by decide +kernel, by decide +kernel, rfl⟩⟩,
    ⟨wA fun a => { a with jrn := { a.jrn with flushed := true } }, by decide +kernel⟩⟩

theorem witness_JournalForwarding :
    (∃ (s : State) (i p : Nat) (x : JStream) (n : Seq) (m : FleetMsg) (q : Agg × Bool), s.agg.runs = true ∧ x = s.agg.jst i
      ∧ x.port = some p ∧ x.nextEnt = some (.void n) ∧ x.fwd = true ∧ x.sync = none ∧ s.agg.portUp p = true ∧ s.agg.joined
      = true ∧ m = .fvoid x.src x.cls n ∧ q = s.agg.enqueue p ⟨x.cls.code, BitVec.ofNat 24 (s.agg.sinkCol x.sink), true,
      false, m.len, m, some i, s.agg.u.tb.now⟩)
    ∧ (∃ (s : State) (i p : Nat) (x : JStream) (r : Rec) (q : Agg × Nat), s.agg.runs = true ∧ x = s.agg.jst i ∧ x.port = some
      p ∧ x.nextEnt = some (.rcd r) ∧ x.fwd = true ∧ x.sync = none ∧ s.agg.portUp p = true ∧ s.agg.joined = true ∧ q =
      s.agg.queueSegs i p x r x.sofs (r.bytes.length + 1))
    ∧ (∃ (s : State) (f : FleetIn) (e : StreamSeq), s.hears f = true ∧ kindOf e.src = 0 ∧ (s.agg.jst (jrnIx (addrEff e.src)
      e.cls)).src = addrEff e.src ∧ (∀ q, (s.agg.jst (jrnIx (addrEff e.src) e.cls)).sseq = some q → seqLater e.seq q =
      true))
    ∧ (∃ (s : State) (f : FleetIn) (e : StreamSeq), s.hears f = true ∧ (s.agg.jst (jrnIx (addrEff e.src) e.cls)).src = addrEff
      e.src ∧ (s.agg.jst (jrnIx (addrEff e.src) e.cls)).fwd = true)
    ∧ (∃ (s : State) (i c : Nat), s.agg.runs = true ∧ (s.agg.jst i).sync = some c ∧ (s.agg.jst i).fwd = true ∧ usT
      (s.agg.u.fld Reg.jrnSyncto 15 0) ≤ s.agg.u.since c)
    ∧ (∃ (s : State) (i : Nat) (n m : Seq) (e : JEnt), s.agg.runs = true ∧ (s.agg.jst i).sent = some n ∧ (s.agg.jst
      i).ents.contains e = true ∧ e.seq? = some m ∧ seqLater m n = false ∧ (s.agg.jst i).fwd = true ∧ usT (s.agg.u.fld
      Reg.jrnSinkto 15 0) ≤ s.agg.u.since (s.agg.jst i).progress)
    ∧ (∃ (s : State), s.agg.runs = true ∧ s.agg.partner = true)
    ∧ (∃ (s : State) (f : FleetIn) (_l : List JPair), s.hears f = true) :=
  ⟨⟨wA fun a => portUpA 1 (jst0 9 (fun y => { y with fwd := true, port := some 1, ents := [.void 3] })
      { a with joined := true }), 9, 1, (wA fun a => portUpA 1 (jst0 9 (fun y =>
      { y with fwd := true, port := some 1, ents := [.void 3] }) { a with joined := true })).agg.jst 9, 3, .fvoid ((wA fun
      a => portUpA 1 (jst0 9 (fun y => { y with fwd := true, port := some 1, ents := [.void 3] })
      { a with joined := true })).agg.jst 9).src ((wA fun a => portUpA 1 (jst0 9 (fun y =>
      { y with fwd := true, port := some 1, ents := [.void 3] }) { a with joined := true })).agg.jst 9).cls (3 : Seq), (wA
      fun a => portUpA 1 (jst0 9 (fun y => { y with fwd := true, port := some 1, ents := [.void 3] })
      { a with joined := true })).agg.enqueue (1 : Nat) ⟨((wA fun a => portUpA 1 (jst0 9 (fun y =>
      { y with fwd := true, port := some 1, ents := [.void 3] }) { a with joined := true })).agg.jst 9).cls.code,
      BitVec.ofNat 24 ((wA fun a => portUpA 1 (jst0 9 (fun y => { y with fwd := true, port := some 1, ents := [.void 3] })
      { a with joined := true })).agg.sinkCol ((wA fun a => portUpA 1 (jst0 9 (fun y =>
      { y with fwd := true, port := some 1, ents := [.void 3] }) { a with joined := true })).agg.jst 9).sink), true, false,
      (.fvoid ((wA fun a => portUpA 1 (jst0 9 (fun y => { y with fwd := true, port := some 1, ents := [.void 3] })
      { a with joined := true })).agg.jst 9).src ((wA fun a => portUpA 1 (jst0 9 (fun y =>
      { y with fwd := true, port := some 1, ents := [.void 3] }) { a with joined := true })).agg.jst 9).cls (3 : Seq) :
      FleetMsg).len, (.fvoid ((wA fun a => portUpA 1 (jst0 9 (fun y =>
      { y with fwd := true, port := some 1, ents := [.void 3] }) { a with joined := true })).agg.jst 9).src ((wA fun a =>
      portUpA 1 (jst0 9 (fun y => { y with fwd := true, port := some 1, ents := [.void 3] })
      { a with joined := true })).agg.jst 9).cls (3 : Seq) : FleetMsg), some (9 : Nat), (wA fun a => portUpA 1 (jst0 9 (fun
      y => { y with fwd := true, port := some 1, ents := [.void 3] }) { a with joined := true })).agg.u.tb.now⟩,
      ⟨by decide +kernel, rfl, by decide +kernel, by decide +kernel, by decide +kernel, by decide +kernel,
      by decide +kernel, by decide +kernel, rfl, rfl⟩⟩,
    ⟨wA fun a => portUpA 1 (jst0 9 (fun y => { y with fwd := true, port := some 1, ents := [.rcd (rec0 none 3)] })
      { a with joined := true }), 9, 1, (wA fun a => portUpA 1 (jst0 9 (fun y =>
      { y with fwd := true, port := some 1, ents := [.rcd (rec0 none 3)] }) { a with joined := true })).agg.jst 9, rec0
      none 3, (wA fun a => portUpA 1 (jst0 9 (fun y =>
      { y with fwd := true, port := some 1, ents := [.rcd (rec0 none 3)] }) { a with joined := true })).agg.queueSegs (9 :
      Nat) (1 : Nat) ((wA fun a => portUpA 1 (jst0 9 (fun y =>
      { y with fwd := true, port := some 1, ents := [.rcd (rec0 none 3)] }) { a with joined := true })).agg.jst 9) (rec0
      none 3) ((wA fun a => portUpA 1 (jst0 9 (fun y =>
      { y with fwd := true, port := some 1, ents := [.rcd (rec0 none 3)] }) { a with joined := true })).agg.jst 9).sofs
      ((rec0 none 3).bytes.length + 1), ⟨by decide +kernel, rfl, by decide +kernel, by decide +kernel, by decide +kernel,
      by decide +kernel, by decide +kernel, by decide +kernel, rfl⟩⟩,
    ⟨wA fun a => portUpA 1 (jst0 (jrnIx 4 .record) (fun x => { x with src := 4 }) a), fin0, ⟨4, .record, 3⟩,
      ⟨by decide +kernel, by decide +kernel, by decide +kernel, (fun _ h => nomatch h)⟩⟩,
    ⟨wA fun a => portUpA 1 (jst0 (jrnIx 4 .record) (fun x => { x with src := 4, fwd := true, sync := some 0 }) a), fin0,
      ⟨4, .record, 3⟩, by decide +kernel⟩,
    ⟨wA fun a => aggedA big (jst0 9 (fun x => { x with fwd := true, sync := some 0 }) a), 9, 0, by decide +kernel⟩,
    ⟨wA fun a => aggedA big (jst0 9 (fun x => { x with fwd := true, sent := some 8, ents := [.void 7] }) a), 9, 8, 7, .void
      7, by decide +kernel⟩,
    ⟨wA fun a => { a with partner := true }, by decide +kernel⟩,
    ⟨wA (portUpA 1), fin0, [], by decide +kernel⟩⟩

theorem witness_RaceHops :
    (∃ (s : State) (p : Part) (k : Fin 8) (_peer : Peer), s.on p = true ∧ (s.part p).lnkRuns = true ∧ ((s.part p).rport
      k.val).state ≠ 2 ∧ (s.part p).bit Reg.raceCtrl 0 = true)
    ∧ (∃ (s : State) (p : Part) (k : Fin 8), s.on p = true ∧ ((s.part p).rport k.val).state = 1 ∧ usT 50 ≤ (s.part p).since
      ((s.part p).rport k.val).since)
    ∧ (∃ (s : State) (p : Part) (k : Fin 8), s.on p = true ∧ (s.part p).lnkRuns = true ∧ ((s.part p).rport k.val).state = 0 ∧
      (s.part p).bit Reg.raceCtrl 0 = true ∧ (s.part p).bit Reg.raceCtrl 1 = true ∧ msT 1 ≤ (s.part p).since ((s.part
      p).rport k.val).since)
    ∧ (∃ (s : State) (p : Part) (k : Fin 8) (g : Nat), s.on p = true ∧ (s.part p).lnkRuns = true ∧ g = (s.part p).trainGen
      k.val ∧ ((s.part p).rport k.val).state = 1 ∧ (s.part p).hasGen g = true ∧ ((s.part p).rport k.val).gens.testBit (g -
      1) = true)
    ∧ (∃ (s : State) (k : Fin 8) (_burst : Bool), s.die.powered = true ∧ s.die.u.raceUp k.val = true)
    ∧ (∃ (s : State) (k : Fin 8) (_burst : Bool), s.agg.runs = true ∧ s.agg.u.raceUp k.val = true ∧ (s.agg.chain k.val).status
      = .complete)
    ∧ (∃ (s : State) (p : Part) (k : Fin 8), s.on p = true ∧ (s.part p).raceUp k.val = false)
    ∧ (∃ (s : State) (k : Fin 8), s.die.powered = true ∧ s.die.u.stalled k.val = true)
    ∧ (∃ (s : State) (k : Fin 8), s.agg.runs = true ∧ s.agg.u.stalled k.val = true)
    ∧ (∃ (s : State) (p : Part) (k : Fin 8) (_c : Fin 5) (_n : BitVec 8) (x : RacePort), s.on p = true ∧ x = (s.part p).rport
      k.val ∧ x.state = 2 ∧ x.wait = [])
    ∧ (∃ (s : State) (p : Part) (o : Origin) (k : Nat), s.takes p o Reg.raceAtRetrain = true ∧ (s.part p).selOf Reg.raceSel o
      = k ∧ (s.part p).bit Reg.raceCtrl 0 = true ∧ ((s.part p).rport k).state = 0 ∧ (s.part p).justFell k = false)
    ∧ (∃ (s : State) (o : Origin) (k : Nat), s.takes .die o Reg.raceAtRetrain = true ∧ s.die.u.selOf Reg.raceSel o = k ∧ k < 2
      ∧ s.die.u.bit Reg.raceCtrl 0 = false) :=
  ⟨⟨wU (reg Reg.raceCtrl 1), .die, 0, ⟨false, 5, 7⟩, by decide +kernel⟩,
    ⟨wU fun u => aged big (u.setRport 0 { u.rport 0 with state := 1 }), .die, 0, by decide +kernel⟩,
    ⟨wU fun u => aged big (reg Reg.raceCtrl 3 0 u), .die, 0, by decide +kernel⟩,
    ⟨wU fun u => reg Reg.raceGencap 7 0 (u.setRport 0 { u.rport 0 with state := 1, gens := 7 }), .die, 0, ((wU fun u => reg
      Reg.raceGencap 7 0 (u.setRport 0 { u.rport 0 with state := 1, gens := 7 })).part (.die : Part)).trainGen 0,
      by decide +kernel⟩,
    ⟨wU (raceUpU 0), 0, true, by decide +kernel⟩,
    ⟨wA fun a => chainA 0 .complete { a with u := raceUpU 0 a.u }, 0, true, by decide +kernel⟩,
    ⟨base, .die, 0, by decide +kernel⟩,
    ⟨wU fun u => aged big (u.setRport 0 { u.rport 0 with state := 2, cred := [0, 0, 0, 0, 0] }), 0, by decide +kernel⟩,
    ⟨wU fun u => aged big (u.setRport 0 { u.rport 0 with state := 2, cred := [0, 0, 0, 0, 0] }), 0, by decide +kernel⟩,
    ⟨wU fun u => u.setRport 0 { u.rport 0 with state := 2, cred := [0, 0, 0, 0, 0] }, .die, 0, 0, 3, ((wU fun u =>
      u.setRport 0 { u.rport 0 with state := 2, cred := [0, 0, 0, 0, 0] }).part (.die : Part)).rport 0, ⟨by decide +kernel,
      rfl, by decide +kernel, by decide +kernel⟩⟩,
    ⟨wU (reg Reg.raceCtrl 1), .die, od, 0, by decide +kernel⟩,
    ⟨wU (reg Reg.raceCtrl 0), od, 0, by decide +kernel⟩⟩

theorem witness_RaceFrames :
    (∃ (s : State) (g : BitVec 2) (_t : BitVec 80), s.die.powered = true ∧ s.die.u.miswired = false ∧ g ≠ 0)
    ∧ (∃ (s : State) (p : Part) (k : Fin 8) (g t : Nat), s.on p = true ∧ Tab.find ((s.part p).chainKey k.val) (s.part
      p).race.setgen = some (g, t) ∧ t ≤ (s.part p).tb.now ∧ Tab.find k.val (s.part p).race.switched ≠ some t ∧ (s.part
      p).raceUp k.val = true)
    ∧ (∃ (s : State) (k : Fin 8) (g t : Nat), s.die.powered = true ∧ Tab.find (s.die.u.chainKey k.val) s.die.u.race.setgen =
      some (g, t) ∧ t ≤ s.die.u.tb.now ∧ s.die.u.raceUp k.val = true ∧ Tab.find k.val s.die.u.race.switched ≠ some t)
    ∧ (∃ (s : State) (p : Part) (k : Fin 8) (_failed : Bool) (g t : Nat), s.on p = true ∧ Tab.find ((s.part p).chainKey k.val)
      (s.part p).race.setgen = some (g, t) ∧ ((s.part p).tb.now < t ∨ Tab.find k.val (s.part p).race.switched = some t))
    ∧ (∃ (s : State) (side : Side) (f : RaceFrame), s.die.powered = true ∧ s.die.u.raceUp side.ix = true ∧ s.die.u.lnkRuns =
      true ∧ runnerFrame f = false ∧ f.hchkOk = false)
    ∧ (∃ (s : State) (p : Nat), s.die.powered = true ∧ p < 2 ∧ 16 ≤ (s.die.u.rport p).bad ∧ s.die.u.raceUp p = true)
    ∧ (∃ (s : State) (side : Side) (f : RaceFrame), s.die.powered = true ∧ s.die.u.raceUp side.ix = true ∧ s.die.u.lnkRuns =
      true ∧ runnerFrame f = false ∧ f.hchkOk = true ∧ frameOk f = true ∧ headOf f.orig = none ∧ f.cut = false ∧ f.crcOk =
      true ∧ f.ftype ≠ 0x13)
    ∧ (∃ (s : State) (side : Side) (f : RaceFrame), s.die.powered = true ∧ s.die.u.raceUp side.ix = true ∧ s.die.u.lnkRuns =
      true ∧ f.hchkOk = true ∧ frameOk f = true ∧ headOf f.orig = none ∧ f.cut = false ∧ f.crcOk = true ∧ f.ftype = 0x13 ∧
      s.die.u.nodeOk = true ∧ addrEff f.dest = s.die.u.node)
    ∧ (∃ (s : State), s.die.powered = true ∧ s.die.u.lnkRuns = true)
    ∧ (∃ (s : State) (k : Fin 8) (_o : Node) (side : Side) (_c : BitVec 8), s.agg.runs = true ∧ s.agg.u.raceUp k.val = true ∧
      side ≠ s.agg.side ∧ (s.agg.chain k.val).status = .complete)
    ∧ (∃ (s : State) (k : Fin 8) (_o : Node), s.agg.runs = true ∧ s.agg.u.raceUp k.val = true ∧ s.agg.side = .a)
    ∧ (∃ (s : State) (k : Fin 8) (_o : Node), s.agg.runs = true ∧ s.agg.u.raceUp k.val = true ∧ s.agg.side = .b) :=
  ⟨⟨base, 2, 9, by decide +kernel⟩,
    ⟨wU fun u => timed 9 { raceUpU 0 u with race := { (raceUpU 0 u).race with setgen := [(0, (2, 9))] } }, .die, 0, 2, 9,
      by decide +kernel⟩,
    ⟨wU fun u => timed 9 { raceUpU 0 u with race := { (raceUpU 0 u).race with setgen := [(0, (2, 9))] } }, 0, 2, 9,
      by decide +kernel⟩,
    ⟨wU fun u => timed 8 { raceUpU 0 u with race := { (raceUpU 0 u).race with setgen := [(0, (2, 9))] } }, .die, 0, true,
      2, 9, by decide +kernel⟩,
    ⟨wU (raceUpU 0), .a, { frame0 with hchkOk := false }, by decide +kernel⟩,
    ⟨wU fun u => (raceUpU 0 u).setRport 0 { (raceUpU 0 u).rport 0 with bad := 16 }, 0, by decide +kernel⟩,
    ⟨wU (raceUpU 0), .a, frame0, by decide +kernel⟩,
    ⟨wU fun u => raceUpU 0 (named 4 u), .a, { frame0 with ftype := 0x13, dest := 4 }, by decide +kernel⟩,
    ⟨base, by decide +kernel⟩,
    ⟨wA fun a => chainA 2 .complete { a with u := raceUpU 2 a.u }, 2, 0, .b, 0, by decide +kernel⟩,
    ⟨wA fun a => { a with u := raceUpU 2 a.u }, 2, 0, by decide +kernel⟩,
    ⟨wA fun a => { a with u := named 0x800000 (raceUpU 2 a.u) }, 2, 0, by decide +kernel⟩⟩

theorem witness_Enumeration :
    (∃ (s : State) (k : Fin 8), s.agg.runs = true ∧ s.agg.side = .a ∧ s.agg.u.raceUp k.val = true)
    ∧ (∃ (s : State) (e : EnumMsg) (n : Node), s.die.powered = true ∧ s.die.u.raceUp Side.a.ix = true ∧ e.side = .a ∧
      s.die.u.miswired = false ∧ enumAddr e = some n)
    ∧ (∃ (s : State) (e : EnumMsg), s.die.powered = true ∧ s.die.u.raceUp Side.b.ix = true ∧ e.side = .b ∧ s.die.u.miswired =
      false ∧ s.die.u.nodeOk = true ∧ enumAddr e ≠ some s.die.u.node)
    ∧ (∃ (s : State) (e : EnumMsg), s.die.powered = true ∧ s.die.u.raceUp Side.b.ix = true ∧ e.side = .b ∧ s.die.u.miswired =
      false ∧ s.die.u.nodeOk = true ∧ enumAddr e = some s.die.u.node)
    ∧ (∃ (s : State) (k : Fin 8) (e : EnumMsg), s.agg.runs = true ∧ s.agg.side = .b ∧ e.side = .a ∧ s.agg.u.raceUp k.val =
      true)
    ∧ (∃ (s : State) (k : Fin 8) (e : EnumMsg), s.agg.runs = true ∧ s.agg.side = .a ∧ e.side = .b ∧ s.agg.u.raceUp k.val =
      true)
    ∧ (∃ (s : State) (k : Fin 8) (c : Nat), s.agg.runs = true ∧ s.agg.side = .a ∧ (s.agg.chain k.val).enumAt = some c ∧ usT
      200 ≤ s.agg.u.since c ∧ (s.agg.chain k.val).status ≠ .miswired)
    ∧ (∃ (s : State) (k : Fin 8), s.agg.runs = true ∧ s.agg.side = .b ∧ s.agg.u.raceUp k.val = true ∧ (s.agg.chain k.val).bAt
      = none ∧ (s.agg.chain k.val).status ≠ .miswired)
    ∧ (∃ (s : State) (k : Fin 8), s.agg.runs = true ∧ (s.agg.chain k.val).status = .miswired)
    ∧ (∃ (s : State) (k : Fin 8) (_g : BitVec 3), s.agg.runs = true ∧ s.agg.side = .b ∧ s.agg.u.raceUp k.val = true ∧
      (s.agg.pair.alone = true ∨ (s.agg.chain k.val).aSent = false ∧ msT 10 ≤ s.agg.u.since (s.agg.u.rport k.val).since) ∧
      (s.agg.chain k.val).status ≠ .miswired)
    ∧ (∃ (s : State) (k : Fin 8) (_g : BitVec 3), s.agg.runs = true ∧ s.agg.pair.alone = false ∧ (s.agg.chain k.val).aSent =
      true)
    ∧ (∃ (a : Agg) (n : Node) (t : Nat), (a.chain (dieKey n / 32)).bAt = some t ∧ (a.chain (dieKey n / 32)).status = .split ∧
      dieKey n % 32 < (a.chain (dieKey n / 32)).last ∧ a.u.since t < usT (3 * a.u.fld Reg.raceBeatper 7 0))
    ∧ (∃ (e : EnumMsg), e.side = .a ∧ e.h.toNat < 32) :=
  ⟨⟨wA fun a => { a with u := raceUpU 2 a.u }, 2, by decide +kernel⟩,
    ⟨wU (raceUpU 0), enum0 .a 31, BitVec.ofNat 24 (128 + 31 * 4), by decide +kernel⟩,
    ⟨wD fun d => { d with u := named 5 (raceUpU 1 d.u) }, enum0 .b 0, by decide +kernel⟩,
    ⟨wD fun d => { d with u := named (128 + 31 * 4) (raceUpU 1 d.u) }, enum0 .b 0, by decide +kernel⟩,
    ⟨wA fun a => { a with u := named 0x800000 (raceUpU 2 a.u) }, 2, enum0 .a 32, by decide +kernel⟩,
    ⟨wA fun a => { a with u := raceUpU 2 a.u }, 2, enum0 .b 32, by decide +kernel⟩,
    ⟨wA fun a => aggedA big { a with chains := [(2, { a.chain 2 with enumAt := some 0 })] }, 2, 0, by decide +kernel⟩,
    ⟨wA fun a => { a with u := named 0x800000 (raceUpU 2 a.u) }, 2, by decide +kernel⟩,
    ⟨wA (chainA 2 .miswired), 2, by decide +kernel⟩,
    ⟨wA fun a => { a with u := named 0x800000 (raceUpU 2 a.u), pair := { a.pair with alone := true } }, 2, 0,
      by decide +kernel⟩,
    ⟨wA fun a => { a with chains := [(2, { a.chain 2 with aSent := true })] }, 2, 0, by decide +kernel⟩,
    ⟨{ State.reset.agg with chains := [(0, { State.reset.agg.chain 0 with status := .split, last := 9, bAt := some 0 })] },
      4, 0, by decide +kernel⟩,
    ⟨enum0 .a 31, by decide +kernel⟩⟩

theorem witness_ProxyPath :
    (∃ (s : State) (x : ProxyAcc), s.agg.runs = true ∧ x.o.suits .agg = true ∧ s.agg.pxTarget x.slot.val = none ∧ x.data =
      none)
    ∧ (∃ (s : State) (x : ProxyAcc) (p d : Nat), s.agg.runs = true ∧ x.o.suits .agg = true ∧ s.agg.pxTarget x.slot.val = some
      (p, d) ∧ s.agg.pxNoAddr p d = true ∧ x.data = none ∧ x.size ≤ 4 ∧ Tab.getD s.agg.px x.slot.val [] = [])
    ∧ (∃ (s : State) (x : ProxyAcc) (p d : Nat), s.agg.runs = true ∧ x.o.suits .agg = true ∧ s.agg.pxTarget x.slot.val = some
      (p, d) ∧ s.agg.pxNoAddr p d = true ∧ x.data = none ∧ x.size = 8 ∧ 0x20000 ≤ x.ofs.toNat ∧ x.ofs.toNat % 8 = 0 ∧
      Tab.getD s.agg.px x.slot.val [] = [])
    ∧ (∃ (s : State) (x : ProxyAcc) (p d : Nat) (q : PxReq) (t : List PxReq), s.agg.runs = true ∧ x.o.suits .agg = true ∧
      s.agg.pxTarget x.slot.val = some (p, d) ∧ s.agg.pxNoAddr p d = true ∧ Tab.getD s.agg.px x.slot.val [] = q :: t ∧
      q.bad = false)
    ∧ (∃ (s : State) (x : ProxyAcc) (p d : Nat), s.agg.runs = true ∧ x.o.suits .agg = true ∧ s.agg.pxTarget x.slot.val = some
      (p, d) ∧ s.agg.pxNoAddr p d = false ∧ (x.data.isSome ∨ x.size ≤ 4))
    ∧ (∃ (s : State) (side : Side) (src : Node) (_slot : Fin 16) (ofs : BitVec 20) (e d : Die), s.die.powered = true ∧
      s.die.u.raceUp side.ix = true ∧ s.die.u.nodeOk = true ∧ s.die.proxyMaps ofs.toNat = true ∧ e = ((s.die.heard
      side).onU fun u => (u.raceRx side.ix 1 28).addrs [src]) ∧ d = e.read (.proxy side (addrEff src)) ofs.toNat 4)
    ∧ (∃ (s : State) (side : Side) (src : Node) (_slot : Fin 16) (ofs : BitVec 20) (v : Word) (e d : Die), s.die.powered =
      true ∧ s.die.u.raceUp side.ix = true ∧ s.die.u.nodeOk = true ∧ s.die.proxyMaps ofs.toNat = true ∧ e = ((s.die.heard
      side).onU fun u => (u.raceRx side.ix 1 32).addrs [src]) ∧ d = e.write (.proxy side (addrEff src)) ofs.toNat 4 v)
    ∧ (∃ (s : State) (side : Side) (_src : Node) (_slot : Fin 16) (_ofs : BitVec 20) (_v : Word), s.die.powered = true ∧
      s.die.u.raceUp side.ix = true ∧ s.die.u.nodeOk = false)
    ∧ (∃ (s : State) (slot : Fin 16) (_refused : Bool) (_data : BitVec 64) (q : PxReq) (t : List PxReq), s.agg.runs = true ∧
      Tab.getD s.agg.px slot.val [] = q :: t ∧ q.write = false ∧ q.wide = false ∧ q.word = 0 ∧ q.edit = none ∧ (∀ x ∈ t,
      x.bad = false))
    ∧ (∃ (s : State) (slot : Fin 16) (q : PxReq) (t : List PxReq), s.agg.runs = true ∧ Tab.getD s.agg.px slot.val [] = q :: t
      ∧ usT 50 ≤ s.agg.u.since q.at_ ∧ q.edit = none ∧ q.word = 0 ∧ (∀ x ∈ t, x.bad = false)) :=
  ⟨⟨base, pxrd0, by decide +kernel⟩,
    ⟨wA pxA, pxrd0, 2, 3, by decide +kernel⟩,
    ⟨wA pxA, { pxrd0 with size := 8, ofs := 0x20000 }, 2, 3, by decide +kernel⟩,
    ⟨wA fun a => { pxA a with px := [(2, [(⟨0, false, false, 0, false, none⟩ : PxReq)])] }, pxrd0, 2, 3, ⟨0, false, false,
      0, false, none⟩, [], by decide +kernel⟩,
    ⟨wA fun a => chainA 2 .complete (pxA a), pxrd0, 2, 3, by decide +kernel⟩,
    ⟨wU fun u => raceUpU 0 (named 4 u), .a, 0x400000, 0, 0, (((wU fun u => raceUpU 0 (named 4 u)).die.heard (.a :
      Side)).onU fun u => (u.raceRx (.a : Side).ix 1 28).addrs [(0x400000 : Node)]), ((((wU fun u => raceUpU 0 (named 4
      u)).die.heard (.a : Side)).onU fun u => (u.raceRx (.a : Side).ix 1 28).addrs [(0x400000 : Node)])).read (.proxy (.a :
      Side) (addrEff (0x400000 : Node))) (0 : BitVec 20).toNat 4, ⟨by decide +kernel, by decide +kernel, by decide +kernel,
      by decide +kernel, rfl, rfl⟩⟩,
    ⟨wU fun u => raceUpU 0 (named 4 u), .a, 0x400000, 0, 0, 0, (((wU fun u => raceUpU 0 (named 4 u)).die.heard (.a :
      Side)).onU fun u => (u.raceRx (.a : Side).ix 1 32).addrs [(0x400000 : Node)]), ((((wU fun u => raceUpU 0 (named 4
      u)).die.heard (.a : Side)).onU fun u => (u.raceRx (.a : Side).ix 1 32).addrs [(0x400000 : Node)])).write (.proxy (.a
      : Side) (addrEff (0x400000 : Node))) (0 : BitVec 20).toNat 4 (0 : Word), ⟨by decide +kernel, by decide +kernel,
      by decide +kernel, by decide +kernel, rfl, rfl⟩⟩,
    ⟨wU (raceUpU 0), .a, 0, 0, 0, 0, by decide +kernel⟩,
    ⟨wA fun a => { a with px := [(2, [(⟨0, false, false, 0, false, none⟩ : PxReq)])] }, 2, true, 9, ⟨0, false, false, 0,
      false, none⟩, [], by decide +kernel⟩,
    ⟨wA fun a => aggedA big { a with px := [(2, [(⟨0, false, false, 0, false, none⟩ : PxReq)])] }, 2, ⟨0, false, false, 0,
      false, none⟩, [], by decide +kernel⟩⟩

theorem witness_FleetPorts :
    (∃ (s : State) (k : Fin 8) (sp : BitVec 2) (fec : BitVec 3), s.agg.runs = true ∧ s.agg.u.bit Reg.fltAtCfg 31 k.val =
      true ∧ s.agg.u.bit Reg.fltCtrl 0 = true ∧ (s.agg.port k.val).state ≠ 2 ∧ s.agg.cfgBad k.val = false ∧ (s.agg.u.fld
      Reg.fltAtCfg 29 28 k.val = 0 ∨ s.agg.u.fld Reg.fltAtCfg 29 28 k.val = sp.toNat) ∧ fecOk sp.toNat fec.toNat = true ∧
      (s.agg.sluice k.val).oper = none)
    ∧ (∃ (s : State) (k : Fin 8) (_sp : BitVec 2) (_fec : BitVec 3), s.agg.runs = true ∧ s.agg.u.bit Reg.fltAtCfg 31 k.val =
      true ∧ s.agg.u.bit Reg.fltCtrl 0 = true ∧ (s.agg.port k.val).state ≠ 2 ∧ s.agg.cfgBad k.val = true)
    ∧ (∃ (s : State) (_k : Fin 8), s.agg.runs = true)
    ∧ (∃ (s : State) (_k : Fin 8) (_an : BitVec 2), s.agg.runs = true ∧ s.agg.u.inReset 5 = false)
    ∧ (∃ (s : State) (k : Fin 8) (_an : BitVec 2), s.agg.runs = true ∧ s.agg.u.inReset 5 = false ∧ s.agg.portUp k.val = true ∧
      s.agg.u.bit Reg.fltAtMsecctl 0 k.val = true)
    ∧ (∃ (s : State) (k : Fin 8) (x : FPort), s.agg.runs = true ∧ x = s.agg.port k.val ∧ x.msec.keyed = true ∧ (if x.msec.xpn
      then 0xC000000000000000 else 0xC0000000) ≤ x.msec.pn)
    ∧ (∃ (s : State) (k : Fin 8), s.agg.runs = true ∧ s.agg.pnOut k.val = true)
    ∧ (∃ (s : State) (k : Fin 8), s.agg.runs = true ∧ s.agg.pnOut k.val = false)
    ∧ (∃ (s : State) (_k : Fin 8), s.agg.runs = true) :=
  ⟨⟨wA fun a => { a with u := reg Reg.fltAtCfg 0x80000000 1 (reg Reg.fltCtrl 1 0 a.u) }, 1, 3, 2, by decide +kernel⟩,
    ⟨wA fun a => { a with u := reg Reg.fltAtCfg 0x85000000 1 (reg Reg.fltCtrl 1 0 a.u) }, 1, 0, 0, by decide +kernel⟩,
    ⟨wA (portUpA 1), 1, by decide +kernel⟩,
    ⟨base, 0, 0, by decide +kernel⟩,
    ⟨wA fun a => { portUpA 1 a with u := reg Reg.fltAtMsecctl 1 1 a.u }, 1, 0, by decide +kernel⟩,
    ⟨wA (fpU fun x => { x with msec := { x.msec with keyed := true, xpn := false, pn := 0xC0000000 } }), 1, (wA (fpU fun x
      => { x with msec := { x.msec with keyed := true, xpn := false, pn := 0xC0000000 } })).agg.port (1 : Fin 8).val,
      ⟨by decide +kernel, rfl, by decide +kernel, by decide +kernel⟩⟩,
    ⟨wA (fpU fun x => { x with state := 2, msec := { x.msec with keyed := true, xpn := false, pn := 2 ^ 32 } }), 1,
      by decide +kernel⟩,
    ⟨wA (fpU fun x => { x with state := 2, msec := { x.msec with keyed := true, xpn := false, pn := 5 } }), 1,
      by decide +kernel⟩,
    ⟨base, 1, by decide +kernel⟩⟩

theorem witness_Sluice :
    (∃ (s : State) (o : Origin) (k : Nat), s.takes .agg o Reg.sluAtArm = true ∧ s.agg.u.selOf Reg.sluSel o = k ∧ (∀ g,
      (s.agg.sluice k).pend = some g → s.agg.u.tb.now < g.start) ∧ s.agg.listOk k (s.agg.admList k) = true ∧ s.agg.u.tb.now
      + nsUp 1000 ≤ s.agg.admBase k)
    ∧ (∃ (s : State) (o : Origin) (k : Nat), s.takes .agg o Reg.sluAtArm = true ∧ s.agg.u.selOf Reg.sluSel o = k ∧ (∀ g,
      (s.agg.sluice k).pend = some g → s.agg.u.tb.now < g.start) ∧ s.agg.listOk k (s.agg.admList k) = false)
    ∧ (∃ (s : State) (o : Origin) (k : Nat) (g : Gcl), s.takes .agg o Reg.sluAtArm = true ∧ s.agg.u.selOf Reg.sluSel o = k ∧
      (s.agg.sluice k).pend = some g ∧ s.agg.u.tb.now < g.start)
    ∧ (∃ (s : State) (k : Fin 8) (g : Gcl), s.agg.runs = true ∧ (s.agg.sluice k.val).pend = some g ∧ g.start ≤ s.agg.u.tb.now)
    ∧ (∃ (s : State) (k : Fin 8) (g : Gcl), s.agg.runs = true ∧ (s.agg.sluice k.val).pend = some g ∧ s.agg.u.tb.now < g.start)
    ∧ (∃ (s : State) (k : Fin 8) (g : Gcl), s.agg.runs = true ∧ (s.agg.sluice k.val).oper = some g)
    ∧ (∃ (s : State) (k : Fin 8) (f : TxFrame), s.agg.runs = true ∧ s.agg.portUp k.val = true ∧ s.agg.u.bit Reg.fltCtrl 0 =
      true ∧ f.ptp = false ∧ (s.agg.port k.val).busy ≤ s.agg.u.tb.now ∧ s.agg.nextFrame k.val = some f)
    ∧ (∃ (s : State) (k : Fin 8) (f : TxFrame), s.agg.runs = true ∧ s.agg.portUp k.val = true ∧ s.agg.u.bit Reg.fltCtrl 0 =
      true ∧ f.ptp = true ∧ (s.agg.port k.val).busy ≤ s.agg.u.tb.now ∧ s.agg.nextFrame k.val = some f)
    ∧ (∃ (s : State) (k : Fin 8), s.agg.runs = true ∧ s.agg.u.tb.now < (s.agg.port k.val).busy)
    ∧ (∃ (s : State) (_k : Fin 8) (_c : Fin 5), s.agg.runs = true ∧ s.agg.u.ep.lastMain = s.agg.sluEpoch) :=
  ⟨⟨wA fun a =>
      { a with u := reg Reg.sluAtAdmnum 1 1 (reg Reg.sluAtAdmbases0 1 1 { a.u with sel := [(Reg.sluSel + 2 ^ 25, 1)] }) },
      oa, 1, ⟨by decide +kernel, by decide +kernel, (fun _ h => nomatch h), by decide +kernel, by decide +kernel⟩⟩,
    ⟨wA fun a => { a with u := reg Reg.sluAtAdmnum 0 0 a.u }, oa, 0, ⟨by decide +kernel, by decide +kernel, (fun _ h =>
      nomatch h), by decide +kernel⟩⟩,
    ⟨wA (fun a => sluA (fun x => { x with pend := some gcl0 })
      { a with u := { a.u with sel := [(Reg.sluSel + 2 ^ 25, 1)] } }), oa, 1, gcl0, by decide +kernel⟩,
    ⟨wA (fun a => sluA (fun x => { x with pend := some gcl0 }) { a with u := timed (2 ^ 41) a.u }), 1, gcl0,
      by decide +kernel⟩,
    ⟨wA (fun a => sluA (fun x => { x with pend := some gcl0 }) a), 1, gcl0, by decide +kernel⟩,
    ⟨wA (fun a => sluA (fun x => { x with oper := some gcl0 }) { a with u := timed (2 ^ 41) a.u }), 1, gcl0,
      by decide +kernel⟩,
    ⟨wA (fun a => fpU (fun x =>
      { x with state := 2, speed := 3, queues := [(0, [(⟨1, 0x400400, false, false, 64, .srefHand 0 0 0 0, none, 0⟩ : TxFrame)])] })
      { a with u := reg Reg.fltCtrl 1 0 a.u }), 1, ⟨1, 0x400400, false, false, 64, .srefHand 0 0 0 0, none, 0⟩,
      by decide +kernel⟩,
    ⟨wA (fun a => fpU (fun x =>
      { x with state := 2, speed := 3, queues := [(0, [(⟨0, 0, false, true, 44, .delayReq, none, 0⟩ : TxFrame)])] })
      { a with u := reg Reg.fltCtrl 1 0 a.u }), 1, ⟨0, 0, false, true, 44, .delayReq, none, 0⟩, by decide +kernel⟩,
    ⟨wA (fpU fun x => { x with busy := 5 }), 1, by decide +kernel⟩,
    ⟨base, 1, 2, by decide +kernel⟩⟩

theorem witness_TraceStreams :
    (∃ (s : State) (_c : Fin 32) (_x : TraceSlot), s.die.powered = true ∧ s.die.trcRuns = true ∧ s.die.trc.session = none)
    ∧ (∃ (s : State) (c : Fin 32) (x : TraceSlot) (k : BitVec 3) (tgt : BitVec 64), s.die.powered = true ∧ s.die.tracing c.val
      = true ∧ x.ev = .indirect k tgt ∧ (s.die.ts c.val).ctx = ⟨x.gen.toNat, x.thr.toNat, x.priv.toNat, x.privd⟩ ∧
      s.die.visible (s.die.ts c.val).ctx = true ∧ (s.die.ts c.val).hidden = false ∧ (s.die.ts c.val).lost = none ∧
      (s.die.ts c.val).run = none ∧ (s.die.ts c.val).lastTime = none ∧ (s.die.ts c.val).full = [] ∧ (s.die.ts
      c.val).cur.data = [] ∧ s.die.u.bit Reg.trcAtCfg 2 c.val = true ∧ (s.die.ts c.val).sinceSync + 9 < s.die.u.fld
      Reg.trcSyncper 15 0)
    ∧ (∃ (s : State) (c : Fin 32) (b : TBlock) (l : List TBlock), s.die.powered = true ∧ s.die.trcRuns = true ∧
      s.die.trc.halted = false ∧ (s.die.ts c.val).full = b :: l ∧ (s.die.ts c.val).lost = none ∧ (s.die.ts
      c.val).area.length < s.die.areaBlocks)
    ∧ (∃ (s : State) (c : Fin 32), s.die.powered = true ∧ s.die.trcRuns = true ∧ s.die.trc.halted = false ∧ usT 10 ≤
      s.die.u.since (s.die.ts c.val).idle ∧ (s.die.ts c.val).full = [] ∧ (s.die.ts c.val).cur.data ≠ [] ∧ (s.die.ts
      c.val).lost = none ∧ (s.die.ts c.val).area.length < s.die.areaBlocks)
    ∧ (∃ (s : State) (c : Fin 32) (b : TBlock) (l : List TBlock), s.die.powered = true ∧ s.die.trcRuns = true ∧ (s.die.ts
      c.val).area = b :: l ∧ s.die.u.fld Reg.trcCtrl 2 1 = 2 ∧ (s.die.ts c.val).offered = none)
    ∧ (∃ (s : State), s.die.powered = true)
    ∧ (∃ (s : State) (o : Origin), s.takes .die o Reg.trcCtrl = true ∧ s.die.u.bit Reg.trcCtrl 0 = false)
    ∧ (∃ (s : State) (_c : Fin 32) (_enter : Bool) (_st : BitVec 4), s.die.powered = true) :=
  ⟨⟨base, 0, slotEv, by decide +kernel⟩,
    ⟨wD fun d => tsD (fun x => { x with ctx := ⟨0, 0, 0, false⟩ }) (sessD sess0
      { d with u := reg Reg.trcAtCfg 7 3 (reg Reg.trcCtrl 1 0 d.u) }), 3, slotEv, 1, 0x1000, by decide +kernel⟩,
    ⟨wD fun d => tsD (fun x => { x with full := [blk0] }) { d with u := reg Reg.trcSize 1 0 d.u }, 3, blk0, [],
      by decide +kernel⟩,
    ⟨wD fun d => tsD (fun x => { x with cur := blk0 }) { d with u := aged big (reg Reg.trcSize 1 0 d.u) }, 3,
      by decide +kernel⟩,
    ⟨wD fun d => tsD (fun x => { x with area := [blk0] }) { d with u := reg Reg.trcCtrl 4 0 d.u }, 3, blk0, [],
      by decide +kernel⟩,
    ⟨base, by decide +kernel⟩,
    ⟨base, od, by decide +kernel⟩,
    ⟨base, 0, true, 0, by decide +kernel⟩⟩

theorem witness_SessionsAndWatchpoints :
    (∃ (s : State) (o : Origin), s.takes .die o Reg.trcTokctl = true ∧ s.die.trc.token = none ∧ s.die.trc.session = none)
    ∧ (∃ (s : State) (b : List Byte), s.die.powered = true ∧ s.die.trc.token = some ⟨b, 1⟩)
    ∧ (∃ (s : State) (o : Origin), s.takes .die o Reg.trcTokctl = true ∧ s.die.trc.session = none)
    ∧ (∃ (s : State) (x : TSession), s.die.powered = true ∧ s.die.trc.session = some x ∧ x.classU = true ∧ s.die.u.rdN
      Reg.hltGen ≠ x.gen)
    ∧ (∃ (s : State) (x : TSession), s.die.powered = true ∧ s.die.trc.session = some x ∧ x.classU = true ∧ s.die.tokenFor
      x.gen = true)
    ∧ (∃ (s : State) (o : Origin) (cu : Bool), s.takes .die o Reg.trcSession = true ∧ s.die.mayOpen cu = false)
    ∧ (∃ (s : State) (o : Origin) (cu : Bool), s.takes .die o Reg.trcSession = true ∧ s.die.mayOpen cu = true)
    ∧ (∃ (s : State) (o : Origin), s.takes .die o Reg.trcSession = true)
    ∧ (∃ (s : State) (q : WatchReq) (i : Fin 16), s.die.powered = true ∧ s.die.trcRuns = true ∧ (∀ j, j < 16 →
      s.die.u.watchHit q j = decide (j = i.val)))
    ∧ (∃ (s : State) (q : WatchReq), s.die.powered = true ∧ s.die.trcRuns = true ∧ (∀ j, j < 16 → s.die.u.watchHit q j =
      false))
    ∧ (∃ (u : Machine.Unit) (_q : WatchReq) (i : Nat), u.bit Reg.wchAtEn 0 i = false)
    ∧ (∃ (s : State) (i : Fin 16), s.die.powered = true ∧ s.die.u.bit Reg.wchAtHalt 0 i.val = true)
    ∧ (∃ (s : State) (o : Origin) (i : Nat), s.takes .die o Reg.wchAtHalt = true ∧ s.die.u.selOf Reg.wchSel o = i ∧
      s.die.u.bit Reg.wchAtHalt 0 i = true ∧ Tab.find i s.die.trc.haltAt ≠ some s.die.u.clk)
    ∧ (∃ (s : State) (o : Origin) (i : Nat), s.takes .die o Reg.wchAtHalt = true ∧ s.die.u.selOf Reg.wchSel o = i ∧ Tab.find i
      s.die.trc.haltAt = some s.die.u.clk)
    ∧ (∃ (s : State) (o : Origin) (i : Nat) (_on : Bool), s.takes .die o Reg.wchAtEn = true ∧ s.die.u.selOf Reg.wchSel o = i) :=
  ⟨⟨base, od, by decide +kernel⟩,
    ⟨wD fun d => { d with trc := { d.trc with token := some ⟨(zeros 128), 1⟩ } }, zeros 128, by decide +kernel⟩,
    ⟨base, od, by decide +kernel⟩,
    ⟨wD (sessD (⟨true, 6, false⟩ : TSession)), ⟨true, 6, false⟩, by decide +kernel⟩,
    ⟨wD fun d => sessD (⟨true, 0, false⟩ : TSession)
      { d with u := timed (2 ^ 40) d.u, trc := { d.trc with token := some ⟨tok0, 2⟩ } }, ⟨true, 0, false⟩,
      by decide +kernel⟩,
    ⟨base, od, true, by decide +kernel⟩,
    ⟨wD fun d => { d with u := reg Reg.hltWg 0x80000003 0 d.u }, od, true, by decide +kernel⟩,
    ⟨base, od, by decide +kernel⟩,
    ⟨wU watchU, wreq0, 2, by decide +kernel⟩,
    ⟨wU watchU, { wreq0 with addr := 32 }, by decide +kernel⟩,
    ⟨State.reset.die.u, wreq0, 0, by decide +kernel⟩,
    ⟨wU (reg Reg.wchAtHalt 1 2), 2, by decide +kernel⟩,
    ⟨wU fun u => reg Reg.wchAtHalt 1 2 { u with sel := [(Reg.wchSel, 2)] }, od, 2, by decide +kernel⟩,
    ⟨wD fun d => { d with trc := { d.trc with haltAt := [(0, 0)] } }, od, 0, by decide +kernel⟩,
    ⟨wU fun u => reg Reg.wchAtCfg 1 2 { u with sel := [(Reg.wchSel, 2)] }, od, 2, true, by decide +kernel⟩⟩

theorem witness_Compression :
    (∃ (s : State) (p : Part) (x : Draft) (q : List Draft), s.on p = true ∧ (s.part p).flm.cur = none ∧ (s.part p).flm.queue
      = x :: q)
    ∧ (∃ (s : State) (p : Part) (c : Compressing), s.on p = true ∧ (s.part p).flm.cur = some c)
    ∧ (∃ (s : State) (p : Part) (c : Compressing), s.on p = true ∧ (s.part p).flm.cur = some c ∧ c.level ≠ 0 ∧ usT ((s.part
      p).fld Reg.flmCbudget 15 0) ≤ (s.part p).since c.since)
    ∧ (∃ (s : State) (p : Part) (c : Compressing) (_ue : Bool), s.on p = true ∧ (s.part p).flm.cur = some c)
    ∧ (∃ (s : State) (r : Rec) (q : List Rec), s.agg.runs = true ∧ s.agg.u.flm.vqueue = r :: q ∧ isCompressed r = false)
    ∧ (∃ (s : State) (r : Rec) (q : List Rec), s.agg.runs = true ∧ s.agg.u.flm.vqueue = r :: q ∧ isCompressed r = true) :=
  ⟨⟨wU (flmU fun f => { f with queue := [draft0 .record] }), .die, draft0 .record, [], by decide +kernel⟩,
    ⟨wU (flmU fun f => { f with cur := some comp0 }), .die, comp0, by decide +kernel⟩,
    ⟨wU fun u => aged big (flmU (fun f => { f with cur := some comp0 }) u), .die, comp0, by decide +kernel⟩,
    ⟨wU (flmU fun f => { f with cur := some comp0 }), .die, comp0, true, by decide +kernel⟩,
    ⟨wU (flmU fun f => { f with vqueue := [rec0 none 3] }), rec0 none 3, [], by decide +kernel⟩,
    ⟨wU (flmU fun f => { f with vqueue := [{ rec0 none 3 with flags := 0x20 }] }), { rec0 none 3 with flags := 0x20 }, [],
      by decide +kernel⟩⟩

theorem witness_MailboxQueues :
    (∃ (s : State) (p : Part) (o : Origin) (_w : Word) (ch : Nat), s.takes p o Reg.mbxAtTxdata = true ∧ (s.part p).selOf
      Reg.mbxSel o = ch ∧ ((s.part p).mside ch !o.sideK).denies o.stamp = false ∧ ((s.part p).mside ch
      !o.sideK).queue.length < 16)
    ∧ (∃ (s : State) (p : Part) (o : Origin) (_w : Word) (ch : Nat), s.takes p o Reg.mbxAtTxdata = true ∧ (s.part p).selOf
      Reg.mbxSel o = ch ∧ ((s.part p).mside ch !o.sideK).denies o.stamp = false ∧ ((s.part p).mside ch
      !o.sideK).queue.length = 16)
    ∧ (∃ (s : State) (o : Origin) (ch : Nat) (w : MbxWord) (q : List MbxWord), s.die.powered = true ∧ o.suits .die = true ∧
      o.refused = false ∧ s.die.lit Reg.mbxAtRxdata = true ∧ s.die.u.selOf Reg.mbxSel o = ch ∧ (s.die.u.mside ch
      o.sideK).queue = w :: q)
    ∧ (∃ (s : State) (o : Origin) (ch : Nat) (w : MbxWord) (q : List MbxWord), s.agg.runs = true ∧ o.suits .agg = true ∧
      s.agg.u.selOf Reg.mbxSel o = ch ∧ (s.agg.u.mside ch o.sideK).queue = w :: q)
    ∧ (∃ (s : State) (p : Part) (o : Origin) (bits : Word) (ch : Nat), s.takes p o Reg.mbxAtDbset = true ∧ (s.part p).selOf
      Reg.mbxSel o = ch ∧ ((s.part p).mside ch !o.sideK).denies o.stamp = false ∧ bits ≠ 0)
    ∧ (∃ (s : State) (p : Part) (o : Origin) (_bits : Word) (ch : Nat), s.takes p o Reg.mbxAtDb = true ∧ (s.part p).selOf
      Reg.mbxSel o = ch)
    ∧ (∃ (s : State) (p : Part) (ch : Fin 16) (k : Bool) (x : MbxSide), s.on p = true ∧ x = (s.part p).mside ch.val k ∧
      (x.pend.any fun y => decide (usT (fieldOf x.timeout 15 0) ≤ (s.part p).since y.2)) = true ∧ x.fired = false) :=
  ⟨⟨wU mbxOpen, .die, od, 5, 0, by decide +kernel⟩,
    ⟨wU fun u => sideU 0 true (fun x => { x with queue := List.replicate 16 svc0 }) (mbxOpen u), .die, od, 5, 0,
      by decide +kernel⟩,
    ⟨wU fun u => sideU 0 false (fun x => { x with queue := [svc0] }) (mbxOpen u), od, 0, svc0, [], by decide +kernel⟩,
    ⟨wU fun u => sideU 0 false (fun x => { x with queue := [svc0] }) (mbxOpen u), oa, 0, svc0, [], by decide +kernel⟩,
    ⟨wU mbxOpen, .die, od, 0x80000001, 0, by decide +kernel⟩,
    ⟨base, .die, od, 1, 0, by decide +kernel⟩,
    ⟨wU fun u => sideU 0 false (fun x => { x with pend := [(3, 0)] }) (aged big u), .die, 0, false, ((wU fun u => sideU 0
      false (fun x => { x with pend := [(3, 0)] }) (aged big u)).part (.die : Part)).mside 0 false, ⟨by decide +kernel,
      rfl, by decide +kernel, by decide +kernel⟩⟩⟩

theorem witness_MailboxDenies :
    (∃ (s : State) (p : Part) (o : Origin) (_w : Word) (ch : Nat), s.takes p o Reg.mbxAtTxdata = true ∧ (s.part p).selOf
      Reg.mbxSel o = ch ∧ (bitAt ((s.part p).mside ch !o.sideK).cfg 0 = false ∨ fieldOf o.stamp 15 12 < fieldOf ((s.part
      p).mside ch !o.sideK).cfg 7 4))
    ∧ (∃ (s : State) (p : Part) (o : Origin) (bits : Word) (ch : Nat), s.takes p o Reg.mbxAtDbset = true ∧ (s.part p).selOf
      Reg.mbxSel o = ch ∧ bits ≠ 0 ∧ (bitAt ((s.part p).mside ch !o.sideK).cfg 0 = false ∨ fieldOf o.stamp 15 12 < fieldOf
      ((s.part p).mside ch !o.sideK).cfg 7 4)) :=
  ⟨⟨wU (sideU 0 true fun x => { x with cfg := 0 }), .die, od, 5, 0, by decide +kernel⟩,
    ⟨wU (sideU 0 true fun x => { x with cfg := 0 }), .die, od, 5, 0, by decide +kernel⟩⟩

theorem witness_ServiceAndRecorder :
    (∃ (s : State) (p : Part) (ch : Fin 16) (h : MbxWord), s.on p = true ∧ ch.val < mbxChans (s.part p).kind ∧ (Tab.find 0
      ((s.part p).mside ch.val true).db).isSome = true ∧ (s.part p).mbx.resetK = false ∧ ((s.part p).mside ch.val
      true).queue = [h] ∧ fieldOf h.word 23 20 = 0 ∧ ((s.part p).mside ch.val false).denies (s.part p).kStamp = false ∧
      ((s.part p).mside ch.val false).queue.length < 16)
    ∧ (∃ (s : State) (p : Part) (ch : Fin 16), s.on p = true ∧ Tab.find 0 ((s.part p).mside ch.val true).db = none)
    ∧ (∃ (s : State) (p : Part) (k n : Nat), s.on p = true ∧ (s.part p).evr.tokens = [(k, n)] ∧ (s.part p).evr.refillMs <
      timeMs (s.part p).tb.now)
    ∧ (∃ (s : State) (p : Part) (o : Origin) (v : Word) (k : Nat), s.takes p o Reg.evrAtCfg = true ∧ (s.part p).selOf
      Reg.evrSel o = k ∧ 1 ≤ fieldOf v 15 8)
    ∧ (∃ (s : State), s.agg.runs = true ∧ s.agg.u.kind = .agg ∧ s.agg.u.inReset 5 = false ∧ 64 ≤ s.agg.u.evr.unflushed.length
      ∧ s.agg.u.evr.history.length + s.agg.u.evr.unflushed.length ≤ histCap)
    ∧ (∃ (s : State), s.agg.runs = true ∧ s.agg.u.kind = .agg ∧ s.agg.u.inReset 5 = false ∧ 64 ≤ s.agg.u.evr.unflushed.length) :=
  ⟨⟨wU fun u => sideU 0 true (fun x => { x with queue := [svc0], db := [(0, 0)] }) (mbxOpen u), .die, 0, svc0,
      by decide +kernel⟩,
    ⟨base, .die, 0, by decide +kernel⟩,
    ⟨wU fun u => { timed (2 ^ 40) u with evr := { u.evr with tokens := [(5, 1)] } }, .die, 5, 1, by decide +kernel⟩,
    ⟨wU fun u => { u with sel := [(Reg.evrSel, 5)] }, .die, od, 0x101, 5, by decide +kernel⟩,
    ⟨wA fun a => { a with u := { a.u with evr := { a.u.evr with unflushed := List.replicate 64 ev0 } } },
      by decide +kernel⟩,
    ⟨wA fun a => { a with u := { a.u with evr := { a.u.evr with unflushed := List.replicate 64 ev0 } } },
      by decide +kernel⟩⟩

theorem witness_MemoryErrors :
    (∃ (s : State) (p : Part) (m : Fin 19), s.on p = true ∧ (s.part p).scrubs m.val = true ∧ Tab.find (errKey m.val ((s.part
      p).memSt m.val).scrub) (s.part p).ras.err = none)
    ∧ (∃ (s : State) (p : Part) (m : Fin 19) (k a : Nat), s.on p = true ∧ (s.part p).scrubs m.val = true ∧ k < 39 ∧ ((s.part
      p).memSt m.val).scrub = a ∧ Tab.find (errKey m.val a) (s.part p).ras.err = none ∧ ((s.part p).memSt m.val).ce =
      List.replicate 8 none)
    ∧ (∃ (s : State) (p : Part) (a : Nat) (e : BitVec 39), s.on p = true ∧ (s.part p).scrubs 12 = true ∧ ((s.part p).memSt
      12).scrub = a ∧ Tab.find (errKey 12 a) (s.part p).ras.err = none ∧ eccSyndrome e ≠ 0 ∧ eccBit (eccSyndrome e) = none)
    ∧ (∃ (s : State) (p : Part) (m : Fin 19) (k : Fin 3) (a : BitVec 23) (e : BitVec 39), s.on p = true ∧ a.toNat < memWords
      (s.part p).kind m.val ∧ (s.part p).memOn m.val = true ∧ (s.part p).bit Reg.rasDmastat k.val = false ∧ Tab.find
      (errKey m.val a.toNat) (s.part p).ras.err = none ∧ eccSyndrome e ≠ 0 ∧ eccBit (eccSyndrome e) = none ∧ m.val = 12)
    ∧ (∃ (s : State) (p : Part) (m : Fin 19) (_k : Fin 3) (a : BitVec 23), s.on p = true ∧ Tab.find (errKey m.val a.toNat)
      (s.part p).ras.err = none)
    ∧ (∃ (s : State) (p : Part) (m : Fin 19) (a : BitVec 23) (k : Nat), s.on p = true ∧ k < 39 ∧ (m.val, a.toNat) ∈ (s.part
      p).ras.wb ∧ (s.part p).errAt m.val a.toNat = BitVec.ofNat 39 (2 ^ k))
    ∧ (∃ (s : State) (p : Part) (m : Fin 19) (a : BitVec 23), s.on p = true ∧ (m.val, a.toNat) ∉ (s.part p).ras.wb)
    ∧ (∃ (k : Nat), k < 39)
    ∧ (∃ (i j : Nat), i < j ∧ j < 39)
    ∧ (∃ (data : Nat), data < 2 ^ 32) :=
  ⟨⟨wU (scrubOn 9), .die, 9, by decide +kernel⟩,
    ⟨wU (scrubOn 12), .die, 12, 38, 0, by decide +kernel⟩,
    ⟨wU (scrubOn 12), .die, 0, 3, by decide +kernel⟩,
    ⟨base, .die, 12, 0, 0, 3, by decide +kernel⟩,
    ⟨base, .die, 0, 0, 0, by decide +kernel⟩,
    ⟨wU (rasU fun r => { r with wb := [(12, 7)], err := [(errKey 12 7, 1)] }), .die, 12, 7, 0, by decide +kernel⟩,
    ⟨base, .die, 0, 0, by decide +kernel⟩,
    ⟨38, by decide +kernel⟩,
    ⟨0, 38, by decide +kernel⟩,
    ⟨0xFFFFFFFF, by decide +kernel⟩⟩

theorem witness_NarrowWritesAndTable :
    (∃ (s : State) (p : Part) (m : Fin 19), s.on p = true ∧ ((s.part p).memSt m.val).merge = [])
    ∧ (∃ (s : State) (p : Part) (m : Fin 19) (w : NarrowWrite), s.on p = true ∧ ((s.part p).memSt m.val).merge = [] ∧ (s.part
      p).ras.flip = none ∧ Tab.find (errKey m.val w.addr.toNat) (s.part p).ras.err = none)
    ∧ (∃ (s : State) (p : Part) (m : Fin 19) (w : NarrowWrite) (mask : BitVec 39), s.on p = true ∧ ((s.part p).memSt
      m.val).merge = [] ∧ w.mask = 0xF ∧ (s.part p).ras.flip = some (mask, m.val))
    ∧ (∃ (s : State) (p : Part) (w : NarrowWrite), s.on p = true ∧ ((s.part p).memSt 12).merge = [] ∧ w.mask ≠ 0xF ∧
      eccSyndrome ((s.part p).errAt 12 w.addr.toNat) ≠ 0 ∧ eccBit (eccSyndrome ((s.part p).errAt 12 w.addr.toNat)) = none)
    ∧ (∃ (s : State) (p : Part) (o : Origin) (m : Nat), s.takes p o Reg.rasAtCeclr = true ∧ (s.part p).selOf Reg.rasSel o = m)
    ∧ (∃ (s : State) (p : Part) (o : Origin) (m : BitVec 5), s.takes p o Reg.rasFlipctl = true ∧ memWords (s.part p).kind
      m.toNat = 0)
    ∧ (∃ (s : State) (p : Part) (o : Origin) (m : BitVec 5), s.takes p o Reg.rasFlipctl = true ∧ memWords (s.part p).kind
      m.toNat ≠ 0)
    ∧ (∃ (s : State) (c : RecClass) (e : Bool), s.die.powered = true ∧ e = true ∧ s.die.u.spilled c.code = none)
    ∧ (∃ (s : State) (_c : RecClass), s.die.powered = true)
    ∧ (∃ (s : State) (_k : BitVec 2) (_n : BitVec 7), s.die.powered = true ∧ s.die.u.capRuns = true) :=
  ⟨⟨base, .die, 0, by decide +kernel⟩,
    ⟨base, .die, 12, ⟨3, 1, 0xFF⟩, by decide +kernel⟩,
    ⟨wU (rasU fun r => { r with flip := some (3, 12) }), .die, 12, ⟨3, 0xF, 0xFF⟩, 3, by decide +kernel⟩,
    ⟨wU (rasU fun r => { r with err := [(errKey 12 3, 3)] }), .die, ⟨3, 1, 0xFF⟩, by decide +kernel⟩,
    ⟨base, .die, od, 0, by decide +kernel⟩,
    ⟨base, .die, od, 7, by decide +kernel⟩,
    ⟨base, .die, od, 12, by decide +kernel⟩,
    ⟨base, .record, true, by decide +kernel⟩,
    ⟨base, .record, by decide +kernel⟩,
    ⟨base, 0, 0, by decide +kernel⟩⟩

theorem witness_PartitionResets :
    (∃ (s : State) (p : Part) (_a : BitVec 23) (y : BitVec 7), s.on p = true ∧ badSynd y.toNat = false)
    ∧ (∃ (s : State) (a : BitVec 23) (y : BitVec 7), s.die.powered = true ∧ badSynd y.toNat = true ∧ a.toNat < 16384 ∧
      s.die.u.recentResets.length < 2)
    ∧ (∃ (s : State) (a : BitVec 23) (y : BitVec 7), s.agg.runs = true ∧ badSynd y.toNat = true ∧ a.toNat < 65536)
    ∧ (∃ (s : State) (p : Part) (k : Fin 7), s.on p = true ∧ hasPart p k.val = false)
    ∧ (∃ (s : State), s.die.powered = true)
    ∧ (∃ (s : State) (o : Origin), s.die.takes o Reg.rasPrst = true ∧ s.die.u.recentResets.length < 2)
    ∧ (∃ (s : State), s.agg.runs = true)
    ∧ (∃ (s : State) (k : Fin 7) (_n : Nat), s.die.powered = true ∧ (k = 2 ∨ k = 3) ∧ s.die.u.inReset k.val = true)
    ∧ (∃ (s : State) (p : Part) (k : Fin 7) (_n : Nat), s.lit p = true ∧ (s.part p).inReset k.val = false)
    ∧ (∃ (s : State) (_n : Nat), s.agg.powered = true ∧ s.agg.u.inReset 6 = true)
    ∧ (∃ (s : State) (p : Part) (c : Fin 4) (t : Nat), s.on p = true ∧ c.val ≠ 3 ∧ Tab.find c.val (s.part p).ras.dmaAt = some
      t ∧ usT 10 ≤ (s.part p).since t)
    ∧ (∃ (s : State) (p : Part) (c : Fin 4) (t : Nat), s.on p = true ∧ Tab.find c.val (s.part p).ras.dmaAt = some t ∧ (c.val =
      3 ∨ (s.part p).since t < usT 10)) :=
  ⟨⟨base, .die, 0, 0, by decide +kernel⟩,
    ⟨base, 0, 3, by decide +kernel⟩,
    ⟨base, 0, 3, by decide +kernel⟩,
    ⟨base, .die, 5, by decide +kernel⟩,
    ⟨base, by decide +kernel⟩,
    ⟨base, od, by decide +kernel⟩,
    ⟨base, by decide +kernel⟩,
    ⟨wU (reg Reg.rasStat 4), 2, 0, by decide +kernel⟩,
    ⟨base, .die, 0, 0, by decide +kernel⟩,
    ⟨wU (reg Reg.rasStat 0x40), 0, by decide +kernel⟩,
    ⟨wU fun u => aged big (rasU (fun r => { r with dmaAt := [(0, 0)] }) u), .die, 0, 0, by decide +kernel⟩,
    ⟨wU (rasU (fun r => { r with dmaAt := [(0, 0)] })), .die, 0, 0, by decide +kernel⟩⟩

theorem witness_PatternLoads :
    (∃ (s : State) (p : Part) (o : Origin), s.takes p o Reg.patLoadctl = true ∧ (s.part p).bit Reg.patCtrl 0 = true ∧
      (s.part p).loadBusy = false)
    ∧ (∃ (s : State) (p : Part) (o : Origin), s.takes p o Reg.patLoadctl = true ∧ (s.part p).bit Reg.patCtrl 0 = true ∧
      (s.part p).loadBusy = true)
    ∧ (∃ (s : State) (p : Part) (o : Origin), s.takes p o Reg.patLoadctl = true ∧ (s.part p).bit Reg.patCtrl 0 = false)
    ∧ (∃ (s : State) (p : Part) (o : Origin) (_w : Word) (l : Loading), s.takes p o Reg.patData = true ∧ (s.part
      p).pat.loading = some l ∧ l.race = none ∧ l.got < maxCont (s.part p).kind)
    ∧ (∃ (s : State) (p : Part) (o : Origin) (_w : Word), s.takes p o Reg.patData = true ∧ (s.part p).pat.loading = none)
    ∧ (∃ (s : State) (p : Part) (o : Origin) (l : Loading), s.takes p o Reg.patLoadctl = true ∧ (s.part p).pat.loading = some
      l ∧ l.race = none)
    ∧ (∃ (s : State) (p : Part) (o : Origin), s.takes p o Reg.patLoadctl = true ∧ (∀ l, (s.part p).pat.loading = some l →
      l.race.isSome = true))
    ∧ (∃ (s : State) (p : Part) (o : Origin), s.takes p o Reg.patLoadctl = true)
    ∧ (∃ (s : State) (p : Part) (o : Origin) (c : Content), s.takes p o Reg.patLoadctl = true ∧ (s.part p).pat.pending = some
      c ∧ ((s.part p).ep.fired.any fun f => f.main.any c.due) = false)
    ∧ (∃ (s : State) (p : Part) (o : Origin) (c : Content), s.takes p o Reg.patLoadctl = true ∧ (s.part p).pat.pending = some
      c ∧ ((s.part p).ep.fired.any fun f => f.main.any c.due) = true) :=
  ⟨⟨wU (reg Reg.patCtrl 1), .die, od, by decide +kernel⟩,
    ⟨wU fun u => reg Reg.patCtrl 1 0 (patU (fun p => { p with loading := some (load0 none) }) u), .die, od,
      by decide +kernel⟩,
    ⟨wU (reg Reg.patCtrl 0), .die, od, by decide +kernel⟩,
    ⟨wU (patU fun p => { p with loading := some (load0 none) }), .die, od, 5, load0 none, by decide +kernel⟩,
    ⟨base, .die, od, 0, by decide +kernel⟩,
    ⟨wU (patU fun p => { p with loading := some (load0 none) }), .die, od, load0 none, by decide +kernel⟩,
    ⟨base, .die, od, ⟨by decide +kernel, (fun _ h => nomatch h)⟩⟩,
    ⟨base, .die, od, by decide +kernel⟩,
    ⟨wU (patU fun p => { p with pending := some (content0 9) }), .die, od, content0 9, by decide +kernel⟩,
    ⟨wU fun u => setEp (fun e => { e with fired := [fired0 (some 9) none] }) (patU (fun p =>
      { p with pending := some (content0 9) }) u), .die, od, content0 9, by decide +kernel⟩⟩

theorem witness_VerificationAndRaceLoads (hs : ∀ k d x, Config.sigValid k d x = true) :
    (∃ (s : State) (p : Part), s.on p = true ∧ (s.part p).pat.verifying = none)
    ∧ (∃ (s : State) (p : Part) (l : Loading) (u : Machine.Unit) (n : Nat), s.on p = true ∧ (s.part p).pat.verifying = some l
      ∧ u = { (s.part p) with pat := { (s.part p).pat with verifying := none } } ∧ u.verifyCode l l.gather = n + 1)
    ∧ (∃ (s : State) (p : Part) (l : Loading) (u : Machine.Unit) (c : Cont), s.on p = true ∧ (s.part p).pat.verifying = some l
      ∧ u = { (s.part p) with pat := { (s.part p).pat with verifying := none } } ∧ c = parseCont l.gather ∧ u.verifyCode l
      l.gather = 0)
    ∧ (∃ (_u : Machine.Unit) (l : Loading), l.bad = true)
    ∧ (∃ (s : State) (f : Side) (_i _n : Word) (o : Origin), s.die.powered = true ∧ s.die.u.raceUp f.ix = true ∧
      s.die.u.miswired = false ∧ s.die.u.bit Reg.patCtrl 1 = true ∧ s.die.u.loadBusy = false ∧ o = .proxy f (sideAddr
      (s.die.u.node.toNat / 1024 % 4096) f))
    ∧ (∃ (s : State) (f : Side) (_i _n : Word) (_b : List Byte), s.die.powered = true ∧ (s.die.u.raceUp f.ix = false ∨
      s.die.u.miswired = true))
    ∧ (∃ (s : State) (f : Side) (i n : Word) (b : List Byte) (l : Loading), s.die.powered = true ∧ s.die.u.raceUp f.ix = true
      ∧ s.die.u.miswired = false ∧ s.die.u.pat.loading = some l ∧ l.race = some i.toNat ∧ Tab.find n.toNat l.chunks = none
      ∧ n.toNat % 4 = 0 ∧ overlaps l.chunks n.toNat b.length = false ∧ b ≠ [] ∧ b.length ≤ 216 ∧ n.toNat + b.length ≤
      maxCont s.die.u.kind)
    ∧ (∃ (s : State) (_f : Side) (i n : Word) (_b : List Byte) (l : Loading), s.die.powered = true ∧ s.die.u.pat.loading =
      some l ∧ (l.race ≠ some i.toNat ∨ (Tab.find n.toNat l.chunks).isSome = true))
    ∧ (∃ (s : State) (f : Side) (i : Word) (l : Loading), s.die.powered = true ∧ s.die.u.raceUp f.ix = true ∧ s.die.u.miswired
      = false ∧ s.die.u.pat.loading = some l ∧ l.race = some i.toNat) :=
  ⟨⟨base, .die, by decide +kernel⟩,
    ⟨wU (patU fun q => { q with verifying := some { load0 none with bad := true } }), .die,
      { load0 none with bad := true },
      { (wU (patU fun q => { q with verifying := some { load0 none with bad := true } })).part (.die : Part) with pat := { ((wU (patU fun q => { q with verifying := some { load0 none with bad := true } })).part (.die : Part)).pat with verifying := none } },
      0, ⟨by decide +kernel, by decide +kernel, rfl, by decide +kernel⟩⟩,
    ⟨wA fun a =>
      { ownedA a with u := patU (fun x => { x with verifying := some ⟨176, none, [(0, cont0)], false, 0, 0⟩ }) (ownedA a).u },
      .agg, ⟨176, none, [(0, cont0)], false, 0, 0⟩,
      { (wA fun a => { ownedA a with u := patU (fun x => { x with verifying := some ⟨176, none, [(0, cont0)], false, 0, 0⟩ }) (ownedA a).u }).part (.agg : Part) with pat := { ((wA fun a => { ownedA a with u := patU (fun x => { x with verifying := some ⟨176, none, [(0, cont0)], false, 0, 0⟩ }) (ownedA a).u }).part (.agg : Part)).pat with verifying := none } },
      parseCont (⟨176, none, [(0, cont0)], false, 0, 0⟩ : Loading).gather, ⟨by decide +kernel, by decide +kernel, rfl, rfl,
      verifyZero hs (by decide +kernel)⟩⟩,
    ⟨State.reset.die.u, { load0 none with bad := true }, by decide +kernel⟩,
    ⟨wU fun u => reg Reg.patCtrl 2 0 (raceUpU 0 u), .a, 0, 0, .proxy .a (sideAddr 0 .a), ⟨by decide +kernel,
      by decide +kernel, by decide +kernel, by decide +kernel, by decide +kernel, rfl⟩⟩,
    ⟨base, .a, 0, 0, [1], by decide +kernel⟩,
    ⟨wD fun d =>
      { d with u := raceUpU 0 (patU (fun p => { p with loading := some ⟨8, some 5, [(0, [1, 2, 3, 4])], false, 0, 0⟩ }) d.u) },
      .a, 5, 4, [9], ⟨8, some 5, [(0, [1, 2, 3, 4])], false, 0, 0⟩, by decide +kernel⟩,
    ⟨wD fun d =>
      { d with u := raceUpU 0 (patU (fun p => { p with loading := some ⟨8, some 5, [(0, [1, 2, 3, 4])], false, 0, 0⟩ }) d.u) },
      .a, 6, 0, [], ⟨8, some 5, [(0, [1, 2, 3, 4])], false, 0, 0⟩, by decide +kernel⟩,
    ⟨wD fun d =>
      { d with u := raceUpU 0 (patU (fun p => { p with loading := some ⟨8, some 5, [(0, [1, 2, 3, 4])], false, 0, 0⟩ }) d.u) },
      .a, 5, ⟨8, some 5, [(0, [1, 2, 3, 4])], false, 0, 0⟩, by decide +kernel⟩⟩

theorem witness_FirmwareBanks :
    (∃ (s : State) (p : Part) (o : Origin), s.takes p o Reg.patFwctl = true ∧ ((s.part p).pat.fw.otherImage = none ∨ (s.part
      p).pat.fw.verified = false))
    ∧ (∃ (s : State) (o : Origin) (i j : FwImage), s.die.takes o Reg.patFwctl = true ∧ s.die.u.kind = .die ∧
      s.die.u.pat.fw.otherImage = some i ∧ s.die.u.pat.fw.image = some j ∧ s.die.u.pat.fw.verified = true ∧ i.stv = j.stv)
    ∧ (∃ (s : State) (o : Origin) (i : FwImage), s.agg.takes o Reg.patFwctl = true ∧ s.agg.u.kind = .agg ∧
      s.agg.u.pat.fw.otherImage = some i ∧ s.agg.u.pat.fw.verified = true)
    ∧ (∃ (s : State) (c : Nat), s.agg.runs = true ∧ s.agg.u.pat.fw.startAt = some c ∧ msT 1000 ≤ s.agg.u.since c)
    ∧ (∃ (s : State) (c : Nat), s.die.powered = true ∧ s.die.u.pat.fw.startAt = some c ∧ msT 1000 ≤ s.die.u.since c)
    ∧ (∃ (s : State) (p : Part), s.on p = true ∧ (∀ c, (s.part p).pat.fw.startAt = some c → (s.part p).since c < msT 1000))
    ∧ (∃ (s : State) (p : Part) (o : Origin) (x y : FwImage), s.takes p o Reg.patFwctl = true ∧ (s.part p).pat.fw.bank0 = some
      x ∧ (s.part p).pat.fw.bank1 = some y) :=
  ⟨⟨base, .die, od, by decide +kernel⟩,
    ⟨wU (fwU fun f => { f with bank0 := some img1, bank1 := some img1, active := 0, verified := true }), od, img1, img1,
      by decide +kernel⟩,
    ⟨wU (fwU fun f => { f with bank0 := some img1, bank1 := some img1, active := 0, verified := true }), oa, img1,
      by decide +kernel⟩,
    ⟨wU fun u => aged (msT 1000) (fwU (fun f => { f with startAt := some 0 }) u), 0, by decide +kernel⟩,
    ⟨wU fun u => aged (msT 1000) (fwU (fun f => { f with startAt := some 0 }) u), 0, by decide +kernel⟩,
    ⟨base, .die, ⟨by decide +kernel, (fun _ h => nomatch h)⟩⟩,
    ⟨wU (fwU fun f => { f with bank0 := some img1, bank1 := some img1, active := 0, verified := true }), .die, od, img1,
      img1, by decide +kernel⟩⟩

theorem witness_OperatorCommands (hs : ∀ k d x, Config.sigValid k d x = true) (hd : devid .agg = 5) :
    (∃ (s : State) (i : Instr) (o : Origin) (code : Nat), s.opAt i o code ∧ code ≠ 0)
    ∧ (∃ (s : State) (i : Instr) (o : Origin), s.opAt i o 0)
    ∧ (∃ (s : State) (c : OpCmd) (g : WatchGroup) (o : Origin), s.opAt (.openGroup c g) o 0 ∧ (∀ t ∈ g.trays, t.2.length = 8)
      ∧ s.agg.ownsFor (wgSpans g) = true ∧ s.agg.vote.system.held = true ∧ s.agg.vote.gens < 0xFFFFFFFF ∧ s.agg.wgBusy g =
      false ∧ s.agg.wgFull g = false)
    ∧ (∃ (s : State) (c : OpCmd) (g : WatchGroup) (o : Origin) (x : WGroup), s.opAt (.teardown c g) o 0 ∧ (∀ t ∈ g.trays,
      t.2.length = 8) ∧ s.agg.ownsFor (wgSpans g) = true ∧ (s.agg.vote.groups.find? fun x => s.agg.ownsGroup x && x.wgid ==
      g.wgid.toNat && x.until_.isNone) = some x)
    ∧ (∃ (s : State) (c : OpCmd) (g : BitVec 6) (n : BitVec 16) (o : Origin), s.opAt (.setspares c g n) o 0 ∧ s.agg.tray / 64
      = g.toNat)
    ∧ (∃ (s : State) (c : OpCmd) (f : Word) (n : BitVec 16) (o : Origin), s.opAt (.evread c f n) o 0)
    ∧ (∃ (s : State) (c : OpCmd) (r h : Bool) (o : Origin), s.opAt (.evclear c r h) o 0)
    ∧ (∃ (s : State) (i : Instr) (o : Origin) (c : OpCmd) (n : Nat) (x : List Byte), s.agg.runs = true ∧ s.agg.u.inReset 5 =
      true ∧ o.suits .agg = true ∧ opOf i = some (c, n, x) ∧ c.via = .port o)
    ∧ (∃ (s : State) (c : OpCmd) (m : BitVec 8) (k : BitVec 128) (w : List Byte) (o : Origin), s.opAt (.mkakey c m k w) o 0)
    ∧ (∃ (s : State) (c : OpCmd) (d : BitVec 128) (g t : BitVec 6) (o : Origin), s.opAt (.nodeovr c d g t) o 0)
    ∧ (∃ (s : State) (c : OpCmd) (o : Origin) (x : List Byte), s.opAt (.enroll c o x) o 0)
    ∧ (∃ (s : State) (c : OpCmd) (x : List Byte) (o : Origin), s.opAt (.keyrotate c x) o 0)
    ∧ (∃ (s : State) (c : OpCmd) (d : BitVec 128) (o : Origin), s.opAt (.release c d) o 0) :=
  ⟨⟨base, .setspares op0 0 9, .pcie, 3, ⟨⟨by decide +kernel, by decide +kernel, rfl, _, _, _, rfl, rfl,
      by decide +kernel⟩, by decide⟩⟩,
    ⟨wA ownedA, .setspares op0 0 9, .pcie, ⟨by decide +kernel, by decide +kernel, rfl, _, _, _, rfl, rfl, opZero hs
      (by decide +kernel)⟩⟩,
    ⟨wA ownedA, op0, wg0, .pcie, ⟨⟨by decide +kernel, by decide +kernel, rfl, _, _, _, rfl, rfl, opZero hs
      (by decide +kernel)⟩, by decide +kernel⟩⟩,
    ⟨wA fun a => votes (fun v => { v with groups := [wgroup0] }) (ownedA a), op0, wg0, .pcie, wgroup0, ⟨⟨by decide +kernel,
      by decide +kernel, rfl, _, _, _, rfl, rfl, opZero hs (by decide +kernel)⟩, by decide +kernel⟩⟩,
    ⟨wA ownedA, op0, 0, 9, .pcie, ⟨⟨by decide +kernel, by decide +kernel, rfl, _, _, _, rfl, rfl, opZero hs
      (by decide +kernel)⟩, by decide +kernel⟩⟩,
    ⟨wA ownedA, op0, 0, 128, .pcie, ⟨by decide +kernel, by decide +kernel, rfl, _, _, _, rfl, rfl, opZero hs
      (by decide +kernel)⟩⟩,
    ⟨wA ownedA, op0, true, true, .pcie, ⟨by decide +kernel, by decide +kernel, rfl, _, _, _, rfl, rfl, opZero hs
      (by decide +kernel)⟩⟩,
    ⟨wA fun a => { ownedA a with u := reg Reg.rasStat 32 0 (ownedA a).u }, .setspares op0 0 9, .pcie, op0, 3, [0, 0, 9, 0],
      by decide +kernel⟩,
    ⟨wA ownedA, op0, 3, 0, zeros 144, .pcie, ⟨by decide +kernel, by decide +kernel, rfl, _, _, _, rfl, rfl, opZero hs
      (by decide +kernel)⟩⟩,
    ⟨wA ownedA, op0, 5, 0, 0, .pcie, ⟨by decide +kernel, by decide +kernel, rfl, _, _, _, rfl, rfl, opZeroId hs hd
      (by decide +kernel)⟩⟩,
    ⟨wA fun a => { decider a with u := timed 256 (decider a).u }, op0, .pcie, cert0, ⟨by decide +kernel, by decide +kernel,
      rfl, _, _, _, rfl, rfl, opZeroCert hs (by decide +kernel)⟩⟩,
    ⟨wA ownedA, op0, cert0, .pcie, ⟨by decide +kernel, by decide +kernel, rfl, _, _, _, rfl, rfl, opZeroCert hs
      (by decide +kernel)⟩⟩,
    ⟨wA ownedA, op0, 5, .pcie, ⟨by decide +kernel, by decide +kernel, rfl, _, _, _, rfl, rfl, opZeroId hs hd
      (by decide +kernel)⟩⟩⟩

theorem witness_Attestation :
    (∃ (s : State) (p : Part) (o : Origin), s.takes p o Reg.secAttctl = true ∧ (s.part p).secu.nonce = none)
    ∧ (∃ (s : State) (p : Part) (o : Origin), s.takes p o Reg.secAttctl = true ∧ (s.part p).secu.nonce.isSome = true)
    ∧ (∃ (s : State) (p : Part) (n : List Byte), s.on p = true ∧ (s.part p).secu.nonce = some n)
    ∧ (∃ (s : State) (p : Part), s.on p = true ∧ (s.part p).secu.nonce = none)
    ∧ (∃ (s : State) (p : Part) (o : Origin), s.takes p o Reg.secAttctl = true)
    ∧ (∃ (s : State) (o : Origin) (i : Nat), s.die.powered = true ∧ o.suits .die = true ∧ o.refused = false ∧ s.die.lit
      Reg.secBufdata = true ∧ s.die.u.fld Reg.secBufidx 7 0 = i)
    ∧ (∃ (s : State) (o : Origin) (i : Nat), s.agg.runs = true ∧ o.suits .agg = true ∧ s.agg.u.fld Reg.secBufidx 7 0 = i)
    ∧ (∃ (s : State) (o : Origin) (i n : Nat), s.die.powered = true ∧ o.suits .die = true ∧ o.refused = false ∧ s.die.lit
      Reg.patAtSecdata = true ∧ s.die.u.selOf Reg.patSel o = i ∧ s.die.u.rdN Reg.patAtSecofs i = n)
    ∧ (∃ (s : State) (o : Origin) (i n : Nat), s.agg.runs = true ∧ o.suits .agg = true ∧ s.agg.u.selOf Reg.patSel o = i ∧
      s.agg.u.rdN Reg.patAtSecofs i = n)
    ∧ (∃ (s : State), s.agg.runs = true ∧ s.agg.u.kind = .agg ∧ s.agg.u.aud.flash.length + s.agg.u.aud.pendFlash.length ≤
      trailCap)
    ∧ (∃ (s : State), s.agg.runs = true ∧ s.agg.u.kind = .agg ∧ s.agg.u.aud.pendFlash ≠ []) :=
  ⟨⟨base, .die, od, by decide +kernel⟩,
    ⟨wU (secuU fun x => { x with nonce := some [] }), .die, od, by decide +kernel⟩,
    ⟨wU (secuU fun x => { x with nonce := some (zeros 32) }), .die, zeros 32, by decide +kernel⟩,
    ⟨base, .die, by decide +kernel⟩,
    ⟨base, .die, od, by decide +kernel⟩,
    ⟨base, od, 0, by decide +kernel⟩,
    ⟨base, oa, 0, by decide +kernel⟩,
    ⟨base, od, 0, 0, by decide +kernel⟩,
    ⟨base, oa, 0, 0, by decide +kernel⟩,
    ⟨base, by decide +kernel⟩,
    ⟨wA fun a => { a with u := { a.u with aud := { a.u.aud with pendFlash := [[1]] } } }, by decide +kernel⟩⟩

theorem witness_EnergyRegister :
    (∃ (s : State) (v i : BitVec 24), s.cru.powered = true ∧ s.cru.error = false ∧ 0 ≤ s.cru.uOf v * s.cru.cOf i)
    ∧ (∃ (s : State) (v i : BitVec 24), s.cru.powered = true ∧ s.cru.uOf v * s.cru.cOf i < 0)
    ∧ (∃ (s : State) (_v _i : BitVec 24) (_ue : Bool), s.cru.powered = true ∧ s.cru.error = true)
    ∧ (∃ (s : State) (_v _i : BitVec 24) (_ue : Bool), s.cru.powered = true)
    ∧ (∃ (s : State) (f : Option (BitVec 128)) (u : Machine.Unit), s.cru.powered = true ∧ u =
      (match f with | some x => (s.cru.asUnit.todFrame x).1 | none => s.cru.asUnit).markEdge.1)
    ∧ (∃ (s : State) (_crc : Word) (_ue : Bool), s.cru.powered = false ∧ s.agg.cruOff = false ∧ s.cru.log.length < 1021)
    ∧ (∃ (s : State), s.cru.powered = true ∧ s.cru.log.length < 1022)
    ∧ (∃ (s : State) (_crc : Word), s.cru.powered = true)
    ∧ (∃ (s : State) (_f : Option (BitVec 128)) (_v _i : BitVec 24) (_ue _k : Bool) (_x : CalItem) (_n : BitVec 16) (_p : Fin
      8) (_w : Word), s.cru.powered = false) :=
  ⟨⟨wC cruOn, 5, 9, by decide +kernel⟩,
    ⟨wC fun c => { cruOn c with pars := [0, 0x1000000, 0, 0x1000000, 1000, 1000, 0, 0] }, 5, 0xFFFFF0, by decide +kernel⟩,
    ⟨wC fun c => { cruOn c with error := true }, 0, 0, true, by decide +kernel⟩,
    ⟨wC cruOn, 0, 0, true, by decide +kernel⟩,
    ⟨wC cruOn, none, (wC cruOn).cru.asUnit.markEdge.1, ⟨by decide +kernel, rfl⟩⟩,
    ⟨base, 0, true, by decide +kernel⟩,
    ⟨wC cruOn, by decide +kernel⟩,
    ⟨wC cruOn, 0, by decide +kernel⟩,
    ⟨base, none, 0, 0, true, true, .register, 0, 0, 0, by decide +kernel⟩⟩

theorem witness_ReadingsAndCalibration :
    (∃ (s : State) (b : List Byte), s.cru.powered = true ∧ b = s.cru.readingBytes ++ Config.sign meterKey (Config.sha384
      s.cru.readingBytes))
    ∧ (∃ (s : State) (b : List Byte) (t : Nat), s.cru.powered = true ∧ s.cru.reading = some (b, t) ∧ t + msT 10 ≤ s.cru.clk)
    ∧ (∃ (s : State), s.cru.powered = true ∧ (∀ b t, s.cru.reading = some (b, t) → s.cru.clk < t + msT 10))
    ∧ (∃ (s : State), s.cru.powered = true)
    ∧ (∃ (s : State), s.cru.powered = true)
    ∧ (∃ (s : State) (e : List Byte), s.cru.powered = true ∧ s.cru.log[s.cru.resend]? = some e)
    ∧ (∃ (s : State), s.cru.powered = true ∧ s.cru.log[s.cru.resend]? = none)
    ∧ (∃ (s : State), s.cru.powered = true)
    ∧ (∃ (s : State) (n : BitVec 16) (e : List Byte), s.cru.powered = true ∧ s.cru.log[n.toNat]? = some e)
    ∧ (∃ (s : State) (n : BitVec 16), s.cru.powered = true ∧ s.cru.log[n.toNat]? = none)
    ∧ (∃ (s : State) (p : Fin 8) (v : Word) (k : Bool), s.cru.powered = true ∧ s.cru.log.length < 1021 ∧ s.cru.pars.length = 8
      ∧ (s.cru.sealed = false ∨ k = true) ∧ parOk p.val v = true)
    ∧ (∃ (s : State) (p : Fin 8) (v : Word) (k : Bool), s.cru.powered = true ∧ (s.cru.logFull = true ∨ (s.cru.sealed = true ∧
      k = false) ∨ parOk p.val v = false))
    ∧ (∃ (s : State), s.cru.powered = true ∧ s.cru.sealed = false ∧ s.cru.log.length < 1022)
    ∧ (∃ (s : State) (k : Bool), s.cru.powered = true ∧ (s.cru.sealed = true ∨ k = false ∨ s.cru.logFull = true)) :=
  ⟨⟨wC cruOn, (wC cruOn).cru.readingBytes ++ Config.sign meterKey (Config.sha384 (wC cruOn).cru.readingBytes),
      ⟨by decide +kernel, rfl⟩⟩,
    ⟨wC fun c => { cruOn c with reading := some ([1], 0), clk := msT 10 }, [1], 0, by decide +kernel⟩,
    ⟨wC cruOn, ⟨by decide +kernel, (fun _ _ h => nomatch h)⟩⟩,
    ⟨wC cruOn, by decide +kernel⟩,
    ⟨wC cruOn, by decide +kernel⟩,
    ⟨wC fun c => { cruOn c with log := [[1]] }, [1], by decide +kernel⟩,
    ⟨wC cruOn, by decide +kernel⟩,
    ⟨wC cruOn, by decide +kernel⟩,
    ⟨wC fun c => { cruOn c with log := [[1]] }, 0, [1], by decide +kernel⟩,
    ⟨wC cruOn, 0, by decide +kernel⟩,
    ⟨wC cruOn, 4, 300000, true, by decide +kernel⟩,
    ⟨wC cruOn, 4, 300001, true, by decide +kernel⟩,
    ⟨wC cruOn, by decide +kernel⟩,
    ⟨wC cruOn, false, by decide +kernel⟩⟩

theorem witness_CrucibleMirror :
    (∃ (s : State) (_f : CrFrame), s.agg.runs = true)
    ∧ (∃ (s : State) (_st : BitVec 16) (_e : BitVec 64) (_fr : Word) (_t : BitVec 80) (_v _i : Word), s.agg.runs = true)
    ∧ (∃ (s : State) (b : List Byte), s.agg.runs = true ∧ s.agg.cru.rseq = some (leAt b 4 4))
    ∧ (∃ (s : State) (b : List Byte), s.agg.runs = true ∧ s.agg.cru.rseq ≠ some (leAt b 4 4))
    ∧ (∃ (s : State) (_e : List Byte), s.agg.runs = true)
    ∧ (∃ (s : State) (_m : BitVec 128) (_w _c : Word) (_l : List Word), s.agg.runs = true) :=
  ⟨⟨base, .logent [1], by decide +kernel⟩,
    ⟨base, 0, 0, 0, 0, 0, 0, by decide +kernel⟩,
    ⟨wA fun a => { a with cru := { a.cru with rseq := some 9 } }, [0, 0, 0, 0, 9], by decide +kernel⟩,
    ⟨base, [0, 0, 0, 0, 9], by decide +kernel⟩,
    ⟨base, [1], by decide +kernel⟩,
    ⟨base, 0, 0, 0, [], by decide +kernel⟩⟩

theorem witness_CrucibleApart :
    (∃ (s t s' t' : State), s.pending = t.pending ∧ s.cru = t.cru ∧ s.agg.cruOff = t.agg.cruOff ∧ step s = .next s' ∧ step t
      = .next t')
    ∧ (∃ (s t : State), step s = .next t)
    ∧ (∃ (s : State) (_crc : Word) (_ue : Bool), s.agg.cruOff = true) :=
  ⟨⟨base, base, base.tick, base.tick, ⟨rfl, rfl, rfl, rfl, rfl⟩⟩,
    ⟨base, base.tick, rfl⟩,
    ⟨wA fun a => { a with cruOff := true }, 0, true, by decide +kernel⟩⟩

theorem witness_CrucibleInvariant :
    ∃ (s t : State), step s = .next t ∧ s.cru.Inv :=
  ⟨base, base.tick, ⟨rfl, by decide, by decide, by decide +kernel, by decide⟩⟩

theorem witness_PowerStates :
    (∃ (s : State), s.die.powered = true ∧ s.die.pw.target = none ∧ s.die.pw.inforce = 0 ∧ s.die.u.kind = .die)
    ∧ (∃ (s : State), s.die.powered = true ∧ s.die.pw.target = none ∧ s.die.pw.inforce < 2 ∧ s.die.u.kind = .die)
    ∧ (∃ (s : State), s.die.powered = true ∧ s.die.pw.target = none ∧ s.die.pw.inforce = 2)
    ∧ (∃ (s : State) (t : Nat) (_st : BitVec 2), s.die.powered = true ∧ s.die.pw.target = some t)
    ∧ (∃ (s : State) (o : Origin) (t : Nat) (_st : BitVec 2), s.die.takes o Reg.pwrReq = true ∧ s.die.pw.target = some t)
    ∧ (∃ (s : State) (st : Nat), s.die.powered = true ∧ s.die.pw.target = some st ∧ s.die.pw.drain = none ∧ s.die.pw.kept =
      none ∧ s.die.pw.inforce ≤ st)
    ∧ (∃ (s : State) (st : Nat), s.die.powered = true ∧ s.die.pw.target = some st ∧ s.die.pw.drain = none ∧ s.die.pw.kept =
      none ∧ st < s.die.pw.inforce ∧ s.die.pw.inforce < 4 ∧ s.die.u.kind = .die)
    ∧ (∃ (s : State), s.die.powered = true ∧ (s.die.pw.target = none ∨ s.die.pw.drain.isSome = true))
    ∧ (∃ (s : State) (c : Nat), s.die.powered = true ∧ s.die.pw.drain = some c ∧ (s.die.drained = true ∨ msT (s.die.u.fld
      Reg.pwrDrainto 15 0) ≤ s.die.u.since c))
    ∧ (∃ (s : State), s.die.powered = true ∧ (∀ c, s.die.pw.drain = some c → s.die.drained = false ∧ s.die.u.since c < msT
      (s.die.u.fld Reg.pwrDrainto 15 0)))
    ∧ (∃ (s : State), s.die.powered = true ∧ s.die.u.pat.fw.swapAt = none)
    ∧ (∃ (s : State) (c : Nat), s.die.powered = true ∧ s.die.u.pat.fw.swapAt = some c)
    ∧ (∃ (s : State) (f : Side) (st : BitVec 8), s.die.powered = true ∧ s.die.u.raceUp f.ix = true ∧ s.die.u.miswired = false
      ∧ s.die.pw.inforce = 2 ∧ s.die.pw.target = none ∧ s.die.u.bit Reg.pwrCtrl 0 = true ∧ st.toNat < 2)
    ∧ (∃ (s : State) (f : Side) (st : BitVec 8), s.die.powered = true ∧ (s.die.u.raceUp f.ix = false ∨ s.die.u.miswired = true
      ∨ s.die.pw.inforce ≠ 2 ∨ s.die.u.bit Reg.pwrCtrl 0 = false ∨ 4 ≤ st.toNat)) :=
  ⟨⟨base, by decide +kernel⟩,
    ⟨base, by decide +kernel⟩,
    ⟨wD (pwr fun p => { p with inforce := 2 }), by decide +kernel⟩,
    ⟨wD (pwr fun p => { p with target := some 1 }), 1, 0, by decide +kernel⟩,
    ⟨wD (pwr fun p => { p with target := some 1 }), od, 1, 0, by decide +kernel⟩,
    ⟨wD (pwr fun p => { p with target := some 1 }), 1, by decide +kernel⟩,
    ⟨wD (pwr fun p => { p with target := some 0, inforce := 1 }), 0, by decide +kernel⟩,
    ⟨base, by decide +kernel⟩,
    ⟨wD (pwr fun p => { p with drain := some 0 }), 0, by decide +kernel⟩,
    ⟨base, ⟨by decide +kernel, (fun _ h => nomatch h)⟩⟩,
    ⟨base, by decide +kernel⟩,
    ⟨wD fun d => { d with u := fwU (fun f => { f with swapAt := some 9 }) d.u }, 9, by decide +kernel⟩,
    ⟨wD fun d => pwr (fun p => { p with inforce := 2 }) { d with u := reg Reg.pwrCtrl 1 0 (raceUpU 0 d.u) }, .a, 1,
      by decide +kernel⟩,
    ⟨base, .a, 0, by decide +kernel⟩⟩

theorem witness_Comparators :
    (∃ (s : State) (i : Fin 16) (v : Word), s.die.powered = true ∧ s.die.u.bit Reg.pwrAtCmpen 0 i.val = true ∧ s.die.u.bit
      Reg.pwrAtCmpstat 0 i.val = false ∧ s.die.u.cmpBeyond i.val v = true ∧ ((s.die.u.fld Reg.pwrAtCmpcfg 19 16
      i.val).testBit 1 = false ∨ s.die.pw.inforce < 2))
    ∧ (∃ (s : State) (i : Fin 16) (v : Word) (w : Nat), s.die.powered = true ∧ s.die.u.bit Reg.pwrAtCmpen 0 i.val = true ∧
      s.die.u.bit Reg.pwrAtCmpstat 0 i.val = false ∧ s.die.u.cmpBeyond i.val v = true ∧ (s.die.u.fld Reg.pwrAtCmpcfg 19 16
      i.val).testBit 1 = true ∧ s.die.pw.inforce = 2 ∧ s.die.pw.target = none ∧ s.die.u.fld Reg.pwrCtrl 5 4 = w ∧ w < 2)
    ∧ (∃ (s : State) (i : Fin 16) (v : Word), s.die.powered = true ∧ (s.die.u.bit Reg.pwrAtCmpen 0 i.val = false ∨ s.die.u.bit
      Reg.pwrAtCmpstat 0 i.val = true ∨ s.die.u.cmpBeyond i.val v = false))
    ∧ (∃ (s : State) (i : Fin 16) (v : Word), s.die.powered = true ∧ s.die.u.bit Reg.pwrAtCmpstat 0 i.val = true ∧
      s.die.u.cmpBack i.val v = true)
    ∧ (∃ (s : State) (i : Fin 16) (v : Word), s.die.powered = true ∧ (s.die.u.bit Reg.pwrAtCmpstat 0 i.val = false ∨
      s.die.u.cmpBack i.val v = false))
    ∧ (∃ (s : State) (o : Origin) (i : Nat), s.die.takes o Reg.pwrAtCmpen = true ∧ s.die.u.selOf Reg.pwrSel o = i ∧ cmpCfgBad
      (s.die.u.rd Reg.pwrAtCmpcfg i) = false)
    ∧ (∃ (s : State) (o : Origin) (i : Nat), s.die.takes o Reg.pwrAtCmpen = true ∧ s.die.u.selOf Reg.pwrSel o = i ∧ cmpCfgBad
      (s.die.u.rd Reg.pwrAtCmpcfg i) = true)
    ∧ (∃ (s : State) (o : Origin) (i : Nat), s.die.takes o Reg.pwrAtCmpen = true ∧ s.die.u.selOf Reg.pwrSel o = i) :=
  ⟨⟨wU (cmpOn 0), 2, 100, by decide +kernel⟩,
    ⟨wD fun d => pwr (fun p => { p with inforce := 2 }) { d with u := reg Reg.pwrCtrl 0x10 0 (cmpOn 0x20000 d.u) }, 2, 100,
      1, by decide +kernel⟩,
    ⟨base, 0, 0, by decide +kernel⟩,
    ⟨wU fun u => reg Reg.pwrAtCmpstat 1 2 (cmpOn 0 u), 2, 99, by decide +kernel⟩,
    ⟨base, 0, 0, by decide +kernel⟩,
    ⟨base, od, 0, by decide +kernel⟩,
    ⟨wU fun u => reg Reg.pwrAtCmpcfg 0xC0000000 2 { u with sel := [(Reg.pwrSel, 2)] }, od, 2, by decide +kernel⟩,
    ⟨base, od, 0, by decide +kernel⟩⟩

theorem witness_DieResets :
    (∃ (s : State), s.die.powered = false)
    ∧ (∃ (s : State), s.die.powered = true)
    ∧ (∃ (s : State), s.die.powered = true)
    ∧ (∃ (s : State), s.die.powered = false)
    ∧ (∃ (s : State), s.die.powered = true)
    ∧ (∃ (s : State), s.die.powered = true ∧ (∀ k, k < 5 → s.die.u.inReset k = true) ∧ s.die.u.ep.fired = [])
    ∧ (∃ (s : State), s.die.powered = true ∧ (∀ k, k < 5 → s.die.u.inReset k = false))
    ∧ (∃ (s : State) (ch : Nat), s.die.powered = true ∧ ch < mbxChans s.die.u.kind)
    ∧ (∃ (s : State), s.die.powered = true) :=
  ⟨⟨wD fun d => { d with powered := false }, by decide +kernel⟩,
    ⟨base, by decide +kernel⟩,
    ⟨base, by decide +kernel⟩,
    ⟨wD fun d => { d with powered := false }, by decide +kernel⟩,
    ⟨base, by decide +kernel⟩,
    ⟨wU (reg Reg.rasStat 0x1F), by decide +kernel⟩,
    ⟨base, by decide +kernel⟩,
    ⟨base, 0, by decide +kernel⟩,
    ⟨base, by decide +kernel⟩⟩

theorem witness_AggregatorResets :
    (∃ (s : State) (ch : Nat), s.agg.runs = true ∧ ch < mbxChans s.agg.u.kind)
    ∧ (∃ (s : State) (g t : BitVec 6) (_b : Bool) (n : Nat), n =
      (match s.agg.ovr with | some n => n | none => g.toNat * 64 + t.toNat))
    ∧ (∃ (s : State), s.agg.powered = true ∧ s.agg.jrn.warn.isSome = true ∧ s.agg.jrn.flushed = false)
    ∧ (∃ (s : State), s.agg.powered = true ∧ (s.agg.jrn.warn = none ∨ s.agg.jrn.flushed = true))
    ∧ (∃ (s : State), s.agg.powered = true ∧ s.agg.u.inReset 6 = true)
    ∧ (∃ (s : State), s.agg.powered = true ∧ s.agg.u.inReset 6 = false)
    ∧ (∃ (s : State), s.agg.runs = true)
    ∧ (∃ (s : State), s.agg.powered = true)
    ∧ (∃ (s : State), s.agg.powered = false)
    ∧ (∃ (s : State) (c : BitVec 8), s.agg.runs = true ∧ 105 < c.toNat)
    ∧ (∃ (s : State) (c : BitVec 8), s.agg.runs = true ∧ c.toNat ≤ 105) :=
  ⟨⟨base, 0, by decide +kernel⟩,
    ⟨base, 0, 0, true, 0, by decide +kernel⟩,
    ⟨wA fun a => { a with jrn := { a.jrn with warn := some 0 } }, by decide +kernel⟩,
    ⟨base, by decide +kernel⟩,
    ⟨wU (reg Reg.rasStat 0x40), by decide +kernel⟩,
    ⟨base, by decide +kernel⟩,
    ⟨base, by decide +kernel⟩,
    ⟨base, by decide +kernel⟩,
    ⟨wA fun a => { a with powered := false }, by decide +kernel⟩,
    ⟨base, 106, by decide +kernel⟩,
    ⟨base, 105, by decide +kernel⟩⟩

theorem witness_BulkWindowWrites :
    ∃ (s : State) (p : Part) (o : Origin) (ofs : BitVec 25) (_size : Nat) (_v : Word), s.on p = true ∧ o.suits p = true ∧
      0x20000 ≤ ofs.toNat ∧ ofs.toNat < (match p with | .die => 0x100000 | .agg => 0xE0000) :=
  ⟨base, .die, od, 0x20000, 0, 0, by decide +kernel⟩

theorem witness_SelectRegisters :
    (∃ (s : State) (p : Part) (o : Origin) (ofs : BitVec 25) (r : RegRow) (n : Nat) (v : Word), s.takes p o ofs.toNat = true
      ∧ regRow? ofs.toNat = some r ∧ selCount p ofs.toNat = some n ∧ ofs.toNat % 4 = 0 ∧ ofs.toNat <
      (match p with | .die => 0x20000 | .agg => 0x1000000) ∧ fieldOf v 15 0 < n)
    ∧ (∃ (s : State) (p : Part) (o : Origin) (ofs : BitVec 25) (r : RegRow) (n : Nat) (v : Word), s.takes p o ofs.toNat = true
      ∧ regRow? ofs.toNat = some r ∧ selCount p ofs.toNat = some n ∧ ofs.toNat % 4 = 0 ∧ ofs.toNat <
      (match p with | .die => 0x20000 | .agg => 0x1000000) ∧ n ≤ fieldOf v 15 0)
    ∧ (∃ (_u : Machine.Unit) (_o : Origin) (r : RegRow) (_ofs : Nat), r.win = true)
    ∧ (∃ (_d : Die) (_o : Origin) (_r : RegRow) (ofs _inst n : Nat), selCount .die ofs = some n)
    ∧ (∃ (_a : Agg) (_o : Origin) (r : RegRow) (ofs _inst n : Nat), selCount .agg ofs = some n ∧ r.agg = true) :=
  ⟨⟨base, .die, od, 0x1000, (regRow? 0x1000).getD row0, (selCount (.die : Part) 0x1000).getD 0, BitVec.ofNat 32
      (((selCount (.die : Part) 0x1000).getD 0) - 1), by decide +kernel⟩,
    ⟨base, .die, od, 0x1000, (regRow? 0x1000).getD row0, (selCount (.die : Part) 0x1000).getD 0, BitVec.ofNat 32 ((selCount
      (.die : Part) 0x1000).getD 0), by decide +kernel⟩,
    ⟨State.reset.die.u, od, (regRow? Reg.timAtCfg).getD row0, Reg.timAtCfg, by decide +kernel⟩,
    ⟨State.reset.die, od, (regRow? 0x1000).getD row0, 0x1000, 0, (selCount .die 0x1000).getD 0, by decide +kernel⟩,
    ⟨State.reset.agg, oa, (regRow? 0x1000).getD row0, 0x1000, 0, (selCount .agg 0x1000).getD 0, by decide +kernel⟩⟩

theorem witness_ReadEffects :
    (∃ (s : State) (o : Origin) (ofs : BitVec 25) (r : RegRow) (i : Nat), s.die.powered = true ∧ o.suits .die = true ∧
      o.refused = false ∧ s.die.lit ofs.toNat = true ∧ ofs.toNat < 0x20000 ∧ ofs.toNat % 4 = 0 ∧ regRow? ofs.toNat = some r
      ∧ r.acc = .rc ∧ r.die = true ∧ s.die.u.instOf o r ofs.toNat = i ∧ blockBase ofs.toNat ≠ Reg.mbxSel ∧ selCount .die
      ofs.toNat = none ∧ isHigh ofs.toNat = false ∧ Unit.evrDenied o ofs.toNat = false ∧ s.die.view o ofs.toNat i = none)
    ∧ (∃ (s : State) (o : Origin) (ofs : BitVec 25) (r : RegRow) (i : Nat), s.agg.runs = true ∧ o.suits .agg = true ∧
      ofs.toNat < 0x20000 ∧ ofs.toNat % 4 = 0 ∧ regRow? ofs.toNat = some r ∧ r.acc = .rc ∧ r.agg = true ∧ s.agg.u.instOf o
      r ofs.toNat = i ∧ blockBase ofs.toNat ≠ Reg.mbxSel ∧ selCount .agg ofs.toNat = none ∧ isHigh ofs.toNat = false ∧
      s.agg.view o ofs.toNat i = none)
    ∧ (∃ (s : State) (o : Origin) (ofs : BitVec 25) (size : Nat), s.die.powered = true ∧ o.suits .die = true ∧ o.refused =
      false ∧ s.die.lit ofs.toNat = true ∧ ofs.toNat < 0x20000 ∧ (size ≠ 4 ∨ ofs.toNat % 4 ≠ 0))
    ∧ (∃ (s : State) (o : Origin) (now : Nat → Word), s.die.powered = true ∧ o.suits .die = true ∧ o.refused = false ∧ (∀ k,
      now k = ({ s.die with u := { s.die.u with latch := [] } }).look o k))
    ∧ (∃ (s : State) (o : Origin), s.die.powered = true ∧ o.suits .die = true ∧ o.refused = false)
    ∧ (∃ (s : State) (o : Origin) (m : Mirror), s.agg.runs = true ∧ o.suits .agg = true ∧ s.agg.cru = m)
    ∧ (∃ (d : Die) (_o : Origin) (_r : RegRow) (ofs inst : Nat) (v : Word), selCount .die ofs = none ∧ d.u.latched? ofs inst =
      some v)
    ∧ (∃ (u : Machine.Unit) (ofs inst : Nat) (_now : Nat → Word) (v : Word), u.latched? ofs inst = some v ∧ ofs ≠
      Reg.cruTimes0 ∧ ofs ≠ Reg.cruTimes1 ∧ ofs ≠ Reg.timAtAts0 ∧ ofs ≠ Reg.timAtAts1) :=
  ⟨⟨wU (reg Reg.glbAccerr 5), od, BitVec.ofNat 25 Reg.glbAccerr, (regRow? Reg.glbAccerr).getD row0, 0, by decide +kernel⟩,
    ⟨wU (reg Reg.glbAccerr 5), oa, BitVec.ofNat 25 Reg.glbAccerr, (regRow? Reg.glbAccerr).getD row0, 0, by decide +kernel⟩,
    ⟨base, od, 0, 2, by decide +kernel⟩,
    ⟨base, od, fun k => ({ base.die with u := { base.die.u with latch := [] } }).look od k, ⟨by decide +kernel, rfl, rfl,
      fun _ => rfl⟩⟩,
    ⟨base, od, by decide +kernel⟩,
    ⟨base, oa, State.reset.agg.cru, by decide +kernel⟩,
    ⟨{ State.reset.die with u := { State.reset.die.u with latch := [(regKey 0x1054 0, 9)] } }, od, (regRow? 0x1054).getD
      row0, 0x1054, 0, 9, by decide +kernel⟩,
    ⟨{ State.reset.die.u with latch := [(regKey 0x1054 0, 9)] }, 0x1054, 0, fun _ => 0, 9, by decide +kernel⟩⟩

theorem witness_RegisterWrites :
    (∃ (s : State) (o : Origin) (ofs : BitVec 25) (size : Nat) (_v : Word), s.die.powered = true ∧ o.suits .die = true ∧
      ofs.toNat < 0x20000 ∧ (o.refused = true ∨ s.die.lit ofs.toNat = false ∨ size ≠ 4 ∨ ofs.toNat % 4 ≠ 0 ∨ regRow?
      ofs.toNat = none))
    ∧ (∃ (s : State) (o : Origin) (ofs : BitVec 25) (size : Nat) (_v : Word), s.agg.runs = true ∧ o.suits .agg = true ∧
      ofs.toNat < 0x1000000 ∧ (size ≠ 4 ∨ ofs.toNat % 4 ≠ 0 ∨ regRow? ofs.toNat = none))
    ∧ (∃ (s : State) (p : Part) (o : Origin) (ofs : BitVec 25) (r : RegRow) (_v : Word), s.takes p o ofs.toNat = true ∧
      ofs.toNat < 0x20000 ∧ ofs.toNat % 4 = 0 ∧ regRow? ofs.toNat = some r ∧ (r.acc = .ro ∨ r.acc = .rc) ∧ selCount p
      ofs.toNat = none)
    ∧ (∃ (s : State) (o : Origin) (ofs : BitVec 25) (r : RegRow) (i : Nat) (_v : Word), s.die.powered = true ∧ o.suits .die =
      true ∧ o.refused = false ∧ s.die.lit ofs.toNat = true ∧ ofs.toNat < 0x20000 ∧ ofs.toNat % 4 = 0 ∧ regRow? ofs.toNat =
      some r ∧ r.die = true ∧ r.acc = .rwl ∧ selCount .die ofs.toNat = none ∧ s.die.u.instOf o r ofs.toNat = i ∧
      s.die.u.locked ofs.toNat i = true)
    ∧ (∃ (s : State) (p : Part) (o : Origin) (m : Nat) (_v : Word), s.takes p o Reg.rasAtScrubper = true ∧ (s.part p).selOf
      Reg.rasSel o = m)
    ∧ (∃ (s : State) (p : Part) (o : Origin) (_v : Word), s.takes p o Reg.rasErr = true)
    ∧ (∃ (s : State) (p : Part) (o : Origin), s.takes p o Reg.patLoadctl = true)
    ∧ (∃ (s : State) (p : Part) (o : Origin) (l : Loading), s.takes p o Reg.patLoadctl = true ∧ (s.part p).bit Reg.patCtrl 0 =
      true ∧ (s.part p).loadBusy = false ∧ l = ⟨(s.part p).rdN Reg.patLoadlen, none, [], false, o.stamp, o.onode⟩)
    ∧ (∃ (s : State) (p : Part) (o : Origin) (m : Nat), s.takes p o Reg.rasAtCeclr = true ∧ (s.part p).selOf Reg.rasSel o = m)
    ∧ (∃ (s : State) (p : Part) (o : Origin) (m : BitVec 5) (x : Machine.Unit), s.takes p o Reg.rasFlipctl = true ∧ memWords
      (s.part p).kind m.toNat ≠ 0 ∧ x = (s.part p).wr Reg.rasFlipctl (((s.part p).rd Reg.rasFlipctl &&& ~~~0x1F00) |||
      BitVec.ofNat 32 (256 * m.toNat))) :=
  ⟨⟨base, od, 0, 2, 0, by decide +kernel⟩,
    ⟨base, oa, 0, 2, 0, by decide +kernel⟩,
    ⟨base, .die, od, BitVec.ofNat 25 Reg.glbAccerr, (regRow? Reg.glbAccerr).getD row0, 0, by decide +kernel⟩,
    ⟨wU (reg Reg.trcCtrl 1), od, BitVec.ofNat 25 Reg.trcBasel, (regRow? Reg.trcBasel).getD row0, 0, 0, by decide +kernel⟩,
    ⟨base, .die, od, 0, 0, by decide +kernel⟩,
    ⟨base, .die, od, 0, by decide +kernel⟩,
    ⟨base, .die, od, by decide +kernel⟩,
    ⟨wU (reg Reg.patCtrl 1), .die, od, ⟨((wU (reg Reg.patCtrl 1)).part (.die : Part)).rdN Reg.patLoadlen, none, [], false,
      od.stamp, od.onode⟩, ⟨by decide +kernel, by decide +kernel, by decide +kernel, rfl⟩⟩,
    ⟨base, .die, od, 0, by decide +kernel⟩,
    ⟨base, .die, od, 12, (base.part (.die : Part)).wr Reg.rasFlipctl (((base.part (.die : Part)).rd Reg.rasFlipctl &&&
      ~~~0x1F00) ||| BitVec.ofNat 32 (256 * (12 : BitVec 5).toNat)), ⟨by decide +kernel, by decide +kernel, rfl⟩⟩⟩

theorem witness_StepRunsFront :
    (∃ (c : Instr) (q : List Instr) (s : State), s.pending = c :: q)
    ∧ (∃ (s : State), s.pending = [])
    ∧ (∃ (s : State), s.die.powered = true)
    ∧ (∃ (s : State), s.die.powered = true ∧ s.die.u.rd Reg.timFreq = 0 ∧ s.die.u.tb.sub = 0 ∧ s.die.u.tb.now + 17 < 2 ^ 80)
    ∧ (∃ (s : State), s.agg.powered = true)
    ∧ (∃ (s : State), s.cru.powered = true)
    ∧ (∃ (s : State), s.die.powered = false ∧ s.agg.powered = false ∧ s.cru.powered = false) :=
  ⟨⟨.hostClockLoss, [], { base with pending := [.hostClockLoss] }, by decide +kernel⟩,
    ⟨base, by decide +kernel⟩,
    ⟨base, by decide +kernel⟩,
    ⟨base, by decide +kernel⟩,
    ⟨base, by decide +kernel⟩,
    ⟨wC cruOn, by decide +kernel⟩,
    ⟨{ base with die := { base.die with powered := false }, agg := { base.agg with powered := false } }, by decide +kernel⟩⟩

theorem witness_ResetState :
    ∃ (ofs _inst : Nat), ofs ≠ Reg.glbStraps :=
  ⟨0x1000, 0, by decide +kernel⟩

end Sys2Proof.Tests
end

section
/-! SUPPORT. Proofs about the fleet and address family (01 R44-R46): writes of the read-only bulk windows and of the select
registers. -/

namespace Sys2Proof.Machine

/-! ### What counting an access error leaves -/

/-- An access error changes registers alone. -/
theorem Unit.accErr_eq_regs (u : Unit) : u.accErr = { u with regs := u.accErr.regs } := rfl

/-- An access error counts GLB_ACCERR one further. -/
@[simp] theorem Unit.rd_accErr_glbAccerr (u : Unit) : u.accErr.rd Reg.glbAccerr = satInc (u.rd Reg.glbAccerr) := by
  have irq : u.accErr.rd Reg.glbAccerr = (u.count Reg.glbAccerr).rd Reg.glbAccerr :=
    Unit.rd_wr_other _ _ (by decide) (by decide) (.inl (by decide))
  rw [irq, Unit.count, Unit.rd_wr_same]

/-- An access error leaves every register but GLB_ACCERR and GLB_IRQSTAT. -/
theorem Unit.rd_accErr_other (u : Unit) {ofs : Nat} (inst : Nat) (lt : ofs < 2 ^ 25) (hacc : ofs ≠ Reg.glbAccerr)
    (hirq : ofs ≠ Reg.glbIrqstat) : u.accErr.rd ofs inst = u.rd ofs inst :=
  calc u.accErr.rd ofs inst
    _ = (u.count Reg.glbAccerr).rd ofs inst := Unit.rd_wr_other _ _ (by decide) lt (.inl hirq)
    _ = u.rd ofs inst := Unit.rd_wr_other _ _ (by decide) lt (.inl hacc)

/-! ### Writes of the bulk windows -/

/-- No line of the register table reaches into 0x2_0000-0xD_FFFF, where an aggregator has bulk windows. -/
theorem regTable_avoids_bulk : ∀ r ∈ regTable, r.ofs + 4 * r.cnt ≤ 0x20000 ∨ 0xE0000 ≤ r.ofs := by decide +kernel

/-- A bulk window holds no register. -/
theorem regRow?_bulk {ofs : Nat} (lo : 0x20000 ≤ ofs) (hi : ofs < 0xE0000) : regRow? ofs = none := by
  refine List.find?_eq_none.mpr fun r hr => ?_
  have out := regTable_avoids_bulk r hr
  simp only [Bool.and_eq_true, decide_eq_true_eq]
  omega

/-- A die unit counts a write of a bulk window and does nothing else (01 R44). -/
theorem Die.write_bulk (d : Die) (o : Origin) {ofs : Nat} (size : Nat) (v : Word) (suits : o.suits .die = true)
    (lo : 0x20000 ≤ ofs) (hi : ofs < 0x100000) : d.write o ofs size v = { d with u := d.u.accErr } := by
  have small : ofs % 2 ^ 20 = ofs := Nat.mod_eq_of_lt hi
  simp only [Die.write, small, suits, lo, decide_true, Bool.or_true, Bool.true_or, Bool.not_true, Bool.false_eq_true,
    if_false, if_true]

/-- An aggregator counts a write of a bulk window and does nothing else (01 R44): a narrow or misaligned one as such, an
aligned one because it reaches no register. -/
theorem Agg.write_bulk (a : Agg) (o : Origin) {ofs : Nat} (size : Nat) (v : Word) (suits : o.suits .agg = true)
    (lo : 0x20000 ≤ ofs) (hi : ofs < 0xE0000) : a.write o ofs size v = { a with u := a.u.accErr } := by
  have noProxy : ¬ 0x1000000 ≤ ofs := by omega
  simp only [Agg.write, suits, Bool.not_true, Bool.false_eq_true, if_false, if_neg noProxy]
  by_cases narrow : size ≠ 4 ∨ ofs % 4 ≠ 0
  · rw [if_pos narrow]; rfl
  · rw [if_neg narrow, regRow?_bulk lo hi]; rfl

/-- The command of a register write is the write itself. -/
theorem exec_registerWrite (s : State) (p : Part) (o : Origin) (ofs : BitVec 25) (size : Nat) (v : Word) :
    exec (.registerWrite p o ofs size v) s = s.write p o ofs.toNat size v := rfl

/-- Settles O54: at either part the write is an access error of the part and nothing else. -/
theorem bulkWindowWrites : Obligations.BulkWindowWrites := by
  intro s p o ofs size v on suits lo hi
  refine ⟨(s.part p).accErr, ?_, Unit.accErr_eq_regs _, Unit.rd_accErr_glbAccerr _,
    fun r i lt hacc hirq => Unit.rd_accErr_other _ i lt hacc hirq⟩
  rw [exec_registerWrite]
  cases p with
  | die => rw [State.write, State.onDie_on _ on, Die.write_bulk _ _ _ _ suits lo hi, State.thenUnit, State.part]
  | agg => rw [State.write, State.onAgg_on _ on, Agg.write_bulk _ _ _ _ suits lo hi, State.thenUnit, State.part]

/-! ### Writes of the select registers -/

/-- A write of a select register that the die unit takes is the unit's operation on it (01 R45). -/
theorem Die.write_select (d : Die) (o : Origin) (ofs : Nat) (v : Word) (r : RegRow) (n : Nat) (takes : d.takes o ofs = true)
    (row : regRow? ofs = some r) (sel : selCount .die ofs = some n) (lt : ofs < 0x20000) (aligned : ofs % 4 = 0) :
    d.write o ofs 4 v = { d with u := d.u.selWrite o ofs n v } := by
  have small : ofs % 2 ^ 20 = ofs := Nat.mod_eq_of_lt (by omega)
  simp only [Die.takes, row, Bool.and_eq_true, Bool.not_eq_true'] at takes
  obtain ⟨⟨⟨⟨-, suits⟩, refused⟩, lit⟩, die, -⟩ := takes
  have notBulk : ¬ 0x20000 ≤ ofs := Nat.not_le.mpr lt
  simp only [Die.write, small, suits, refused, lit, notBulk, aligned, row, die, Die.store, sel, Bool.not_true, decide_false,
    ne_eq, not_true_eq_false, Bool.or_self, Bool.false_eq_true, if_false, if_true]

/-- The command of a select write is a write of the whole register. -/
theorem exec_selectWrite (s : State) (p : Part) (o : Origin) (ofs : BitVec 25) (v : Word) :
    exec (.selectWrite p o ofs v) s = s.write p o ofs.toNat 4 v := rfl

/-- PAT_SEL names sections by STYPE, from 1 (16 R548): a write of IDX 0 selects nothing and is an access error. -/
theorem Unit.selWrite_patSel_zero (u : Unit) (o : Origin) (n : Nat) : u.selWrite o Reg.patSel n 0 = u.accErr :=
  if_pos (.inr ⟨rfl, rfl⟩)

/-- The selections of the die unit in the next state. -/
def selAfter : Answer → Tab Nat
  | .next s => s.die.u.sel
  | _ => []

/-- Refutes O55: the write of IDX 0 to PAT_SEL, below the instance count 12, is refused and counted, since PAT_SEL takes
STYPEs from 1 on (16 R548). On the die unit after reset the Ladle's selection stays empty, where the first clause has it
hold PAT_SEL. -/
theorem not_selectRegisters : ¬ Obligations.SelectRegisters := by
  rintro ⟨selects, -⟩
  have takes : State.reset.die.takes .ladle Reg.patSel = true := by decide +kernel
  have row : regRow? Reg.patSel = some ⟨Reg.patSel, 1, .rw, 0xFFFF, 0x0, false, true, true, false, false⟩ := by decide +kernel
  have count : selCount .die Reg.patSel = some 12 := by decide
  have claimed := selects State.reset .die .ladle (BitVec.ofNat 25 Reg.patSel) _ 12 0 takes row count (by decide) (by decide)
    (by decide)
  have actual : exec (.selectWrite .die .ladle (BitVec.ofNat 25 Reg.patSel) 0) State.reset
      = State.reset.thenUnit .die State.reset.die.u.accErr := by
    have ofs : (BitVec.ofNat 25 Reg.patSel).toNat = Reg.patSel := rfl
    rw [exec_selectWrite, ofs, State.write, State.onDie_on _ rfl,
      Die.write_select _ _ _ _ _ _ takes row count (by decide) (by decide), Unit.selWrite_patSel_zero, State.thenUnit]
  have kept : selAfter (State.reset.thenUnit .die State.reset.die.u.accErr) = [] := by decide +kernel
  rw [actual] at claimed
  rw [claimed] at kept
  exact absurd kept (by decide +kernel)

end Sys2Proof.Machine
end

section
/-! SUPPORT. Proofs about the mailboxes (14 R473, R493): a push and a doorbell set that the receiving side denies. -/

namespace Sys2Proof.Machine

/-! ### Bits of a register -/

/-- A bit that is set below the width of a register is 1. -/
theorem bitAt_setBit_true (w : Word) {k : Nat} (lt : k < 32) : bitAt (setBit w k true) k = true := by
  have one : k + 1 - k = 1 := Nat.add_sub_cancel_left k 1
  have mask : (1 <<< k % 2 ^ 32).testBit k = true := by
    rw [Nat.testBit_mod_two_pow, Nat.one_shiftLeft, Nat.testBit_two_pow_self]
    simpa using lt
  simp only [bitAt, setBit, setFld, one]
  simpa using .inr mask

/-- A register that is not 0 has a bit set. -/
theorem bitList_ne_nil {w : Word} (nonzero : w ≠ 0) : bitList w.toNat 32 ≠ [] := by
  intro empty
  have clear : ∀ k < 32, w.toNat.testBit k = false := by
    simpa [bitList] using empty
  exact nonzero (BitVec.eq_of_getLsbD_eq fun k lt => (clear k lt).trans BitVec.getLsbD_zero.symm)

/-! ### The sides of a channel -/

/-- A side that is put back is what was put. -/
@[simp] theorem Unit.mside_setSide_same (u : Unit) (ch : Nat) (k : Bool) (x : MbxSide) :
    (u.setSide ch k x).mside ch k = x := by
  cases k <;> simp [Unit.mside, Unit.setSide, Unit.chan, MbxChan.get, MbxChan.set]

/-- The side across the channel stays. -/
@[simp] theorem Unit.mside_setSide_across (u : Unit) (ch : Nat) (k : Bool) (x : MbxSide) :
    (u.setSide ch k x).mside ch (!k) = u.mside ch (!k) := by
  cases k <;> simp [Unit.mside, Unit.setSide, Unit.chan, MbxChan.get, MbxChan.set]

/-- A flag set at a side leaves the side across the channel. -/
@[simp] theorem Unit.mside_mflag_across (u : Unit) (ch : Nat) (k : Bool) (bit : Nat) :
    (u.mflag ch k bit).mside ch (!k) = u.mside ch (!k) := Unit.mside_setSide_across _ _ _ _

/-- A flag set at a side is set there. -/
theorem Unit.bitAt_mflag_flags (u : Unit) (ch : Nat) (k : Bool) {bit : Nat} (lt : bit < 32) :
    bitAt ((u.mflag ch k bit).mside ch k).flags bit = true := by
  rw [Unit.mflag, Unit.mside_setSide_same]
  exact bitAt_setBit_true _ lt

/-! ### What a side denies -/

/-- A side denies what reaches it while its EN is 0 or with a PRIV below its MINPRIV (14 R473, R493). -/
theorem MbxSide.denies_iff (r : MbxSide) (stamp : Word) :
    r.denies stamp = true ↔ bitAt r.cfg 0 = false ∨ fieldOf stamp 15 12 < fieldOf r.cfg 7 4 := by
  simp [MbxSide.denies]

/-- A denied push sets FLAGS.DENIED of the sender and does nothing else. -/
theorem Unit.mpush_denied {u : Unit} {ch : Nat} {k : Bool} {stamp : Word} (w : Word)
    (denies : (u.mside ch !k).denies stamp = true) : u.mpush ch k w stamp = u.mflag ch k 3 := if_pos denies

/-- A denied doorbell set of at least one bit sets FLAGS.DENIED of the sender and does nothing else. -/
theorem Unit.mset_denied {u : Unit} {ch : Nat} {k : Bool} {bits stamp : Word} (nonzero : bits ≠ 0)
    (denies : (u.mside ch !k).denies stamp = true) : u.mset ch k bits.toNat stamp = u.mflag ch k 3 := by
  have nonempty : (bitList bits.toNat 32).isEmpty = false := List.isEmpty_eq_false_iff.mpr (bitList_ne_nil nonzero)
  simp [Unit.mset, nonempty, denies]

/-! ### Writes of the registers that send -/

/-- The registers whose write sends to the side across: TXDATA and DBSET. -/
def mbxSends (ofs : Nat) : Prop := ofs = Reg.mbxAtTxdata ∨ ofs = Reg.mbxAtDbset

/-- The line of a sending register in the table: write-only, of both parts, windowed, not audited. -/
def mbxSendRow (ofs : Nat) : RegRow := ⟨ofs, 1, .wo, 0xFFFFFFFF, 0x0, true, true, true, false, false⟩

theorem regRow?_mbxSends {ofs : Nat} (sends : mbxSends ofs) : regRow? ofs = some (mbxSendRow ofs) := by
  rcases sends with rfl | rfl <;> decide +kernel

/-- No value is out of range for a sending register. -/
theorem badValue_mbxSends {ofs : Nat} (sends : mbxSends ofs) (p : Part) (v : Word) : badValue p ofs v = false := by
  rcases sends with rfl | rfl <;> cases p <;> rfl

/-- A sending register acts on the selected channel. -/
theorem Unit.instOf_mbxSends (u : Unit) (o : Origin) {ofs : Nat} (sends : mbxSends ofs) :
    u.instOf o (mbxSendRow ofs) ofs = u.selOf Reg.mbxSel o := by
  rcases sends with rfl | rfl <;> rfl

/-- A sending register of the die unit stores nothing. -/
theorem Die.put_mbxSends (d : Die) (o : Origin) {ofs : Nat} (sends : mbxSends ofs) (inst : Nat) (v : Word) :
    d.put o (mbxSendRow ofs) ofs inst v = d := by
  rcases sends with rfl | rfl <;> rfl

/-- The command of a sending register of the die unit is the unit's. -/
theorem Die.command_mbxSends (d : Die) (o : Origin) {ofs : Nat} (sends : mbxSends ofs) (inst : Nat) (v was : Word) :
    d.command o ofs inst v was = { d with u := d.u.command o ofs inst v } := by
  rcases sends with rfl | rfl <;> rfl

/-- A sending register of the aggregator stores nothing. -/
theorem Agg.put_mbxSends (a : Agg) (o : Origin) {ofs : Nat} (sends : mbxSends ofs) (inst : Nat) (v : Word) :
    a.put o (mbxSendRow ofs) ofs inst v = a := by
  rcases sends with rfl | rfl <;> rfl

/-- The command of a sending register of the aggregator is the unit's. -/
theorem Agg.command_mbxSends (a : Agg) (o : Origin) {ofs : Nat} (sends : mbxSends ofs) (inst : Nat) (v : Word) :
    a.command o ofs inst v = { a with u := a.u.command o ofs inst v } := by
  rcases sends with rfl | rfl <;> rfl

/-- What `Die.write_takes` and `Agg.write_takes` ask of an offset. -/
theorem mbxSends_plain {ofs : Nat} (sends : mbxSends ofs) (p : Part) :
    selCount p ofs = none ∧ ofs ≠ Reg.timAtArm ∧ ofs < 0x20000 ∧ ofs % 4 = 0 := by
  rcases sends with rfl | rfl <;> cases p <;> decide

/-- A write of a sending register that the die unit takes is the unit's command on the selected channel. -/
theorem Die.write_mbxSends {d : Die} {o : Origin} {ofs : Nat} (sends : mbxSends ofs) (takes : d.takes o ofs = true)
    (v : Word) : d.write o ofs 4 v = { d with u := d.u.command o ofs (d.u.selOf Reg.mbxSel o) v } := by
  obtain ⟨noSelect, notArm, low, aligned⟩ := mbxSends_plain sends .die
  rw [Die.write_takes d o ofs v _ takes (regRow?_mbxSends sends) noSelect ⟨nofun, nofun⟩ (fun arm => notArm arm.1)
    (badValue_mbxSends sends .die v) low aligned, Unit.instOf_mbxSends _ _ sends, Die.take, Die.put_mbxSends _ _ sends,
    Die.command_mbxSends _ _ sends]
  rfl

/-- The same at the aggregator. -/
theorem Agg.write_mbxSends {a : Agg} {o : Origin} {ofs : Nat} (sends : mbxSends ofs) (takes : a.takes o ofs = true)
    (v : Word) : a.write o ofs 4 v = { a with u := a.u.command o ofs (a.u.selOf Reg.mbxSel o) v } := by
  obtain ⟨noSelect, notArm, low, aligned⟩ := mbxSends_plain sends .agg
  rw [Agg.write_takes a o ofs v _ takes (regRow?_mbxSends sends) noSelect ⟨nofun, nofun⟩ (fun arm => notArm arm.1)
    (badValue_mbxSends sends .agg v) (by omega) aligned, Unit.instOf_mbxSends _ _ sends, Agg.takeWrite,
    Agg.put_mbxSends _ _ sends, Agg.command_mbxSends _ _ sends]
  rfl

/-- A part that takes a write is there. -/
theorem State.on_of_takes {s : State} {p : Part} {o : Origin} {ofs : Nat} (takes : s.takes p o ofs = true) :
    s.on p = true := by
  cases p with
  | die =>
    simp only [State.takes, Die.takes, Bool.and_eq_true] at takes
    obtain ⟨⟨⟨⟨powered, -⟩, -⟩, -⟩, -⟩ := takes
    exact powered
  | agg =>
    simp only [State.takes, Agg.takes, Bool.and_eq_true] at takes
    obtain ⟨⟨runs, -⟩, -⟩ := takes
    exact runs

/-- A write of a sending register that a part takes is the command of what both parts have. -/
theorem State.write_mbxSends {s : State} {p : Part} {o : Origin} {ofs : Nat} (sends : mbxSends ofs)
    (takes : s.takes p o ofs = true) (v : Word) :
    s.write p o ofs 4 v = s.thenUnit p ((s.part p).command o ofs ((s.part p).selOf Reg.mbxSel o) v) := by
  have on := State.on_of_takes takes
  cases p with
  | die => rw [State.write, State.onDie_on _ on, Die.write_mbxSends sends takes, State.thenUnit, State.part]
  | agg => rw [State.write, State.onAgg_on _ on, Agg.write_mbxSends sends takes, State.thenUnit, State.part]

/-- A push that a part takes is the push of its unit into the queue across the selected channel (14 R472). -/
theorem exec_mbxPush {s : State} {p : Part} {o : Origin} (takes : s.takes p o Reg.mbxAtTxdata = true) (w : Word) :
    exec (.mbxPush p o w) s
      = s.thenUnit p ((s.part p).mpush ((s.part p).selOf Reg.mbxSel o) o.sideK w o.stamp) :=
  State.write_mbxSends (.inl rfl) takes w

/-- A doorbell set that a part takes is the one of its unit at the side across the selected channel (14 R474). -/
theorem exec_doorbellSet {s : State} {p : Part} {o : Origin} (takes : s.takes p o Reg.mbxAtDbset = true) (bits : Word) :
    exec (.doorbellSet p o bits) s
      = s.thenUnit p ((s.part p).mset ((s.part p).selOf Reg.mbxSel o) o.sideK bits.toNat o.stamp) :=
  State.write_mbxSends (.inr rfl) takes bits

/-! ### A denied push and a denied doorbell set -/

/-- Settles O35: the receiving side denies the push or the set, and DENIED of the sender's side is the unit's one change. -/
theorem mailboxDenies : Obligations.MailboxDenies := by
  constructor
  · rintro s p o w _ takes rfl below
    refine ⟨_, exec_mbxPush takes w, ?_⟩
    rw [Unit.mpush_denied w ((MbxSide.denies_iff _ _).mpr below)]
    exact ⟨Unit.mside_mflag_across _ _ _ _, Unit.bitAt_mflag_flags _ _ _ (by decide)⟩
  · rintro s p o bits _ takes rfl nonzero below
    refine ⟨_, exec_doorbellSet takes bits, ?_⟩
    rw [Unit.mset_denied nonzero ((MbxSide.denies_iff _ _).mpr below)]
    exact ⟨Unit.mside_mflag_across _ _ _ _, Unit.bitAt_mflag_flags _ _ _ (by decide)⟩

end Sys2Proof.Machine
end
